-- ==== Sys2Proof/Word.lean ====
section
/-! DEFINITION. The word types of the model: a byte of memory, of a descriptor or of a message, and a 64-bit word. Register
fields have many widths, so the register file keeps each as a number below two to its width (Machine/Ops.lean truncates
every value it stores); bytes in memory and in messages are bit vectors. -/

namespace Sys2Proof

/-- One byte. -/
abbrev Byte := BitVec 8

/-- A 64-bit word, for the arithmetic that wraps at 64 bits (the Cog generator, SHA3-256). -/
abbrev Word := BitVec 64

end Sys2Proof
end

