-- ==== Sys2Proof/Syntax.lean ====
section
/-! DEFINITION. The commands the package takes from outside and the steps it takes by itself, as spec/opcode_table.json lists
them. Numbers name units as the spec numbers them: dies 0 and 1, partitions 0 to 7, ports 0 to 7, Miller cores 0 to 3. -/

namespace Sys2Proof

/-- Who reads or writes the set-up space (spec/05, Access rules). -/
inductive Requester where
  | pf
  /-- VF m, for m = 1 to 8 (R185). -/
  | vf (m : Nat)
  | mctp
  /-- Miller core c, for c = 0 to 3. -/
  | miller (c : Nat)
  deriving DecidableEq, Repr

/-- The path a management message came by; its response goes back by the same (R223, R862). -/
inductive Binding where
  | vdm | i2c | tap
  deriving DecidableEq, Repr

/-- Which submission ring a descriptor comes from. -/
inductive SqRef where
  /-- Submission ring `ring` of partition `part`. -/
  | host (part ring : Nat)
  /-- Post ring `ring` of Miller core `core`. -/
  | post (core ring : Nat)
  deriving DecidableEq, Repr

/-- Which completion ring. -/
inductive CqRef where
  | host (part ring : Nat)
  | core (core : Nat)
  deriving DecidableEq, Repr

/-- Who asks for a pawl: a PAWL descriptor's job, or the task running on a tile. -/
inductive PawlAsker where
  | job (id : Nat)
  | task (tile : Nat)
  deriving DecidableEq, Repr

/-- Who releases or renews a pawl: a descriptor at hand-over (R290), or the task running on a tile. -/
inductive PawlFreer where
  | desc (sq : SqRef)
  | task (tile : Nat)
  deriving DecidableEq, Repr

/-- A tile's store. -/
structure TileStore where
  tile : Nat
  addr : Nat
  data : List Byte
  deriving DecidableEq, Repr

/-- An event that touches pawls and can share a ck_hub cycle with others (R325): the PAWL operations, the end of a task (a fault breaks what
its context holds), CTX_KILL, PAWL_BREAK, a partition reset, and the two expiries. -/
inductive PawlEvent where
  | release (who : PawlFreer) (pawl : Nat) (mended : Bool)
  | renew (who : PawlFreer) (pawl lease : Nat)
  | taskEnd (tile status cause : Nat)
  | ctxKill (part mask : Nat)
  | partReset (mask : Nat)
  | pawlBreak (part pawl : Nat)
  | lease (pawl : Nat)
  | acquire (who : PawlAsker) (pawl lease : Nat)
  | tryOnce (who : PawlAsker) (pawl lease : Nat)
  | limit (pawl : Nat)
  deriving DecidableEq, Repr

/-- A host read the package has sent. -/
inductive HostRead where
  /-- Doorbell or ring-index line `line` (0 to 7) of partition `part`. -/
  | line (part line : Nat)
  /-- The oldest outstanding descriptor fetch of a submission ring. -/
  | fetch (part ring : Nat)
  /-- A data read made for job `job`. -/
  | data (job : Nat)
  /-- The image read of a slot PROGRAM. -/
  | slot
  deriving DecidableEq, Repr

/-- A host access that waits for an ATS translation (R187). -/
inductive HostAccess where
  | read (which : HostRead)
  /-- The oldest completion record held for completion ring `ring` of partition `part`. -/
  | record (part ring : Nat)
  /-- A data write made for job `job`. -/
  | dataWrite (job : Nat)
  deriving DecidableEq, Repr

/-- A set-up write: its sender, offset, size and value, and the bits that hardware updates in the same cycle with their values (R207). -/
structure SetWrite where
  who : Requester
  off : Nat
  size : Nat
  val : Nat
  meetMask : Nat
  meetVal : Nat
  deriving DecidableEq, Repr

/-- What a function's configuration space holds that spec/05 gives a value (R182, R185, R186). -/
inductive CfgItem where
  | vendorId | deviceId | classCode | revisionId | subVendorId | subDeviceId
  | bar (n : Nat)
  | totalVfs | vfStride | firstVfOffset | numVfs | vfEnable
  | maxPayload | maxReadRequest | tags
  | msixVectors | msixEnable
  | atsUnit | atsQueueDepth | atsEnable
  | noSoftReset | powerState | aer | acs
  deriving DecidableEq, Repr

/-- A PCIe request to a function beyond its BAR0 (R63, R182, R185, R186): of its configuration space, or of a word of BAR2. -/
inductive CfgRequest where
  | read (fn : Nat) (item : CfgItem)
  | write (fn : Nat) (item : CfgItem) (value : Nat)
  | vfEnable (enable : Bool) (numVfs : Nat)
  | atsEnable (fn : Nat) (enable : Bool)
  | msixEnable (fn : Nat) (enable : Bool)
  | msixMask (fn vector : Nat)
  | bar2Read (fn off : Nat)
  | bar2Write (fn off value : Nat)
  deriving DecidableEq, Repr

/-- An upset found by the configuration scrubber: the frame, the 64-bit word within it and the flipped bits of the word. -/
structure Upset where
  frame : Nat
  word : Nat
  flips : List Nat
  deriving DecidableEq, Repr

/-- An error that has struck a stored sector since it was last accessed: the sector's physical local address and the symbols
changed, each with its XOR value (R392). -/
structure Strike where
  addr : Nat
  err : List (Nat × Nat)
  deriving DecidableEq, Repr

/-- A DIMM as its SPD and training give it (R28, R339, R887): capacity in GiB (0 for none fitted), ×8 devices, the counts of column,
bank-group and row bits, a second rank, and whether it trains at the rate of its pair. -/
structure Dimm where
  cap : Nat
  x8 : Bool
  col : Nat
  bg : Nat
  row : Nat
  rank2 : Bool
  trains : Bool
  deriving DecidableEq, Repr

/-- A fabric message (R476), without its MTYPE, which the command's row gives. -/
structure Msg where
  dest : Nat
  src : Nat
  mflags : Nat
  part : Nat
  status : Nat
  rtag : Nat
  len : Nat
  cause : Nat
  addr : Nat
  aux : Nat
  data : List Byte
  deriving DecidableEq, Repr

/-- The answer of another package to a request an engine sent: its STATUS, CAUSE, AUX and data (R476 to R478). -/
structure Reply where
  status : Nat
  cause : Nat
  aux : Nat
  data : List Byte
  deriving DecidableEq, Repr

/-- What the planning service answers to a PLAN_REQ (R810, R812, R813): its OUTCOME and knot records, the window it gives when no plan
is given, VALID_SPAN in nanoseconds and the PTP time at which the captured epoch's last slice ends, and the fields it copies. -/
structure PlanAnswer where
  outcome : Nat
  knots : List Byte
  validFrom : Nat
  validUntil : Nat
  span : Nat
  sliceEnd : Nat
  epoch : Nat
  minClear : Nat
  mark : List Byte
  stream : Nat
  seq : Nat
  deriving DecidableEq, Repr

/-- What the ageing service answers to a TELEMETRY message with HISTORY_END (R810, R816). -/
structure SohAnswer where
  outcome : Nat
  soh : Nat
  low : Nat
  high : Nat
  imax : Nat
  mark : List Byte
  stream : Nat
  seq : Nat
  deriving DecidableEq, Repr

/-- The commands of the part, one constructor for each row of spec/opcode_table.json, in the table's order. Operands carry what
the row's step takes from outside: which unit it acts on, the value written, the bytes that arrive. -/
inductive Instr where
  /-- COLD_START (R60): Main power rises and every block outside the always-on domain is held in reset until all
  rails are good and PERST# is high. -/
  | coldStart
  /-- MAIN_POWER_LOSS (R109): Main power is lost, the always-on domain is isolated with any crossing write
  discarded, and the package enters Standstill. -/
  | mainPowerLoss
  /-- RAIL_DROOP (R844): A main rail below its lower limit for more than 2 µs without PERST# warning is treated as a
  loss of main power. -/
  | railDroop (rail mv ns : Nat)
  /-- PERST_ASSERT (R65): PERST# goes low and resets everything outside the always-on domain. -/
  | perstAssert
  /-- PERST_DEASSERT (R62): PERST# rises, the always-on domain hands over the reset cause, clocks lock, link
  training begins and a configuration sequence starts. -/
  | perstDeassert (src fail chain : Nat)
  /-- VBAT_LOW (R111): VBAT falls below 2.1 V, setting VBAT_LOW and writing event 0x08. -/
  | vbatLow (mv : Nat)
  /-- ZERO_ASSERT (R112): ZERO# held low for 2 ck_aon is recognised in any state. -/
  | zeroAssert (ckAon : Nat)
  /-- AON_WRITE (R115): A write to an always-on register sets AON_PEND while it crosses, or is dropped with AON_DROP
  when AON_PEND is already 1. -/
  | aonWrite (who : Requester) (off size val : Nat)
  /-- AON_STATUS_WRITE (R114): A write to AON_STATUS is applied at once in the hub, never dropped, and does not set
  AON_PEND. -/
  | aonStatusWrite (who : Requester) (val : Nat) (meet : Nat := 0)
  /-- AON_WRITE_APPLIED (R33): An always-on write finishes crossing, is applied whole and AON_PEND falls. -/
  | aonWriteApplied
  /-- PKG_RESET (R68): A write setting PKG_RESET with KEY 0x7A11 starts a package reset, optionally keeping memory
  in self-refresh, else sets BADKEY. -/
  | pkgReset (val : Nat)
  /-- PART_RESET (R72): Setting a PART_RESET bit stops the partition's tasks, zeroes its tile state and invalidates
  its cache entries. -/
  | partReset (mask : Nat)
  /-- PARTITION_RESET_DONE (R79): A partition reset completes, clears its PART_RESET bit, returns rings to OFF and
  writes event 0x01. -/
  | partitionResetDone (part : Nat)
  /-- SVC_PART_RESET (R817): A Miller core resets a service-owned partition through SVC_PART_RESET with the effects
  of R72 to R79. -/
  | svcPartReset (core mask : Nat)
  /-- DIE_RESET (R81): Setting a DIE_RESET bit starts a die recovery reset whose work ends with ABORTED_HOST, or
  sets DIE_BADREQ if recovering or Furled. -/
  | dieReset (mask : Nat)
  /-- DIE_FAULT (R65): An uncorrectable die-internal fault starts a die recovery reset that ends the die's work with
  FAULT_ENGINE. -/
  | dieFault (die : Nat)
  /-- DIE_RECOVERY_DONE (R86): A recovering die returns to dispatch, hub-shadowed settings are re-applied and event
  0x03 is written. -/
  | dieRecoveryDone (die : Nat) (tests : List (Nat × Nat))
  /-- MBARY_PORT_RESET (R88): Setting an Mbary bit of PORT_RESET discards that port's flits in flight and resets its
  counters and status. -/
  | mbaryPortReset (mask : Nat)
  /-- ETH_PORT_RESET (R119): Setting an ETH bit of PORT_RESET discards that port's frames in flight and zeroes its
  counters while keeping configuration and PHC. -/
  | ethPortReset (mask : Nat)
  /-- A1_ENTRY (R89): A die idle for A1_IDLE ticks with A1_EN set gates its ck_core and enters A1. -/
  | a1Entry (die : Nat)
  /-- A1_EN_CLEAR (R89): A write clearing A1_EN takes every die out of A1 at once. -/
  | a1EnClear
  /-- FURL (R93): Setting FURL stops dispatch to both grind dies and waits up to FURL_WAIT ticks, or is ignored with
  TRANSITION during a transition. -/
  | furl
  /-- FURL_WAIT_EXPIRY (R94): FURL_WAIT expires with work running, abandoning entry with BUSY or aborting the work
  when FORCE is 1. -/
  | furlWaitExpiry
  /-- FURL_DIES_QUIET (R97): Once the dies are quiet, write-combining entries are flushed, memory enters self-
  refresh and the dies are power-gated into Furled. -/
  | furlDiesQuiet
  /-- WAKE (R99): Setting WAKE starts an exit from Furled, abandons an entry before the dies are quiet, or does
  nothing in A0. -/
  | wake
  /-- FURL_EXIT_DONE (R101): A Furled exit completes, dispatch is released, held work is served in arrival order and
  event 0x06 is written. -/
  | furlExitDone (tests : List (Nat × Nat))
  /-- TIER_S_PAIR_IDLE (R100): A tier S channel pair woken while Furled returns to self-refresh after 1 ms without
  access. -/
  | tierSPairIdle (pair : Nat)
  /-- CORE_CLK_GO (R43): Setting GO with TARGET starts a ck_core change, sets PENDING if one is running, or sets
  BADVAL if out of range. -/
  | coreClkGo (die target : Nat)
  /-- PLL_RELOCK (R46): The PLL locks at the target, ck_core is released after 8 cycles, BUSY clears and event 0x01
  is written. -/
  | pllRelock (die : Nat)
  /-- CLOCK_LOST_LOCK (R52): A clock in use loses lock, setting its CLK_LOSS bit, writing event 0x03 and starting
  die recovery or GMC UNSYNC as applicable. -/
  | clockLostLock (bit : Nat)
  /-- GMC_PLL_RELOCK (R903): The ck_gmc PLL relocks after REFCLK returns, and a root returns to LOCKED. -/
  | gmcPllRelock
  /-- FLUME_WRITE_RESUMED (R37): A writer stalled on a full flume writes once a slot becomes writable. -/
  | flumeWriteResumed (flume freed : Nat)
  /-- IMAGE_ATTEMPT (R138): The configuration controller reads one image source and runs the ordered checks of R138.
  -/
  | imageAttempt (nvmBad : Option Nat)
  /-- DIE_SELF_TEST_DONE (R138): Grind-die self-test and HBM training finish as step 11, failing the attempt with
  DIE_FAIL or HBM_FAIL. -/
  | dieSelfTestDone (passed : Nat)
  /-- IMAGE_TAG_CHECK (R143): The body is decrypted and the GCM tag verified, zeroing what the attempt wrote on
  failure. -/
  | imageTagCheck (nvmBad : Bool := false)
  /-- DATA_SECTION_LANDING (R145): After the tag passes, DATA sections are re-read, decrypted and written to their
  destinations once the tier is ready. -/
  | dataSectionLanding (nvmBad : Bool := false)
  /-- TIER_S_TRAINING_DONE (R134): Every populated tier S channel has finished training and step 12 checks tier S
  DATA destinations. -/
  | tierSTrainingDone (dimms : List Dimm) (rates : List Nat)
  /-- RELEASE_EDGE (R149): After all checks and landings, settings are applied and one release edge enables dies,
  Tenter, Miller cores, pins and the host port. -/
  | releaseEdge
  /-- RETRY_BACKOFF_EXPIRY (R158): In retry mode, 100 ms after every source failed a new configuration sequence
  starts. -/
  | retryBackoffExpiry
  /-- CHAIN_BYTE (R162): A byte arriving on the chain input is consumed into the package's own segment or forwarded
  out of CFG_OUT. -/
  | chainByte (byte : Byte)
  /-- CHAIN_TIMEOUT (R165): No chain byte within 1,000 ms of PERST# or a clock pause over 10 ms inside a segment
  fails the attempt. -/
  | chainTimeout
  /-- KR_LOAD (R141): Setting LOAD moves KR_DATA0 to KR_DATA7 into the key RAM, or is refused with KR_REFUSED while
  LOCK is 1. -/
  | krLoad
  /-- KR_CLEAR (R140): Setting CLEAR empties the key RAM, or is refused with KR_REFUSED while LOCK is 1. -/
  | krClear
  /-- KR_LOCK (R142): Setting LOCK makes the key RAM refuse LOAD and CLEAR until a cold start. -/
  | krLock
  /-- ARB_SET_GO (R155): ARB_CTRL.GO writes ARB_SET to the anti-rollback counter when it exceeds the counter and not
  the loaded version, else sets ARB_REFUSED. -/
  | arbSetGo
  /-- SLOT_PROGRAM (R172): OP PROGRAM reads an image from host memory by DMA and writes it to the selected slot. -/
  | slotProgram (slot : Nat) (image : List Byte)
  /-- SLOT_CTRL_ERASE (R173): OP ERASE erases the selected slot and leaves STATE empty. -/
  | slotCtrlErase (slot : Nat)
  /-- SLOT_CTRL_VERIFY (R173): OP VERIFY runs checks 1 to 10 on a slot without loading and reports RESULT. -/
  | slotCtrlVerify (slot : Nat)
  /-- SLOT_OP_DONE (R174): A slot operation finishes, clears BUSY, sets RESULT and writes event 0x04. -/
  | slotOpDone
  /-- SCRUB_PASS (R176): Every 40 ms the configuration scrubber reads all Tenter frames and treats upsets per R177.
  -/
  | scrubPass (upsets : List Upset)
  /-- REGISTER_WRITE (R205): A set-up write to a register without its own row is checked for size and state and
  applied in requester priority order. -/
  | registerWrite (who : Requester) (off size val meetMask meetVal : Nat) (also : List SetWrite := [])
  /-- SPLIT_READ_LOW (R212): A 4-byte read of a 64-bit register's low half latches its high half into the
  requester's shadow. -/
  | splitReadLow (who : Requester) (off : Nat)
  /-- GMC_COUNT_SPLIT_READ (R217): A 4-byte read of GMC_COUNT returns all ones and sets SPLIT_GMC. -/
  | gmcCountSplitRead (who : Requester)
  /-- PART_GRANT (R219): A PART_GRANT write applies GROUPS, OWNER and the staged quotas in one cycle or refuses with
  a cause. -/
  | partGrant (who : Requester) (part val : Nat)
  /-- PF_FLR (R65): A PF function-level reset resets PF state and every host-owned partition, freeing their
  placements unzeroed. -/
  | pfFlr
  /-- VF_FLR (R65): A VF function-level reset starts a partition reset of that VF's partition. -/
  | vfFlr (vf : Nat)
  /-- D3HOT_ENTRY (R184): Entry to D3hot changes no state outside the PCIe function. -/
  | d3hotEntry (fn : Nat)
  /-- HOST_LINK_DOWN (R882): With the host link down or a partition's VF gone, host reads fail, host writes are
  discarded and polling pauses. -/
  | hostLinkDown
  /-- HOST_LINK_UP (R882): The host link comes up and doorbell polling and host accesses resume. -/
  | hostLinkUp (rate width : Nat) (flit cxl : Bool) (credits : Option Nat := none)
  /-- ATS_INVALIDATE (R188): An ATS invalidation request is answered only after every access using the invalidated
  translations completes. -/
  | atsInvalidate (fn page count : Nat)
  /-- SNP_DATA (R193): A SnpData snoop is answered by keeping the Shared doorbell line. -/
  | snpData (part line : Nat)
  /-- SNP_CUR (R193): A SnpCur snoop is answered by keeping the Shared doorbell line. -/
  | snpCur (part line : Nat)
  /-- SNP_INV (R193): A SnpInv snoop invalidates the held line and issues RdShared to re-read it. -/
  | snpInv (part line : Nat)
  /-- DOORBELL_POLL (R245): In polled mode each doorbell and ring-index line of an active ring is read once per
  POLL_NS. -/
  | doorbellPoll (part : Nat)
  /-- DOORBELL_LINE_RETURN (R244): A doorbell-line read returns and every changed word of a ring not OFF is
  examined, or a failed read is retried. -/
  | doorbellLineReturn (part line : Nat) (words : Option (List Nat))
  /-- HOST_READ_COMPLETION (R881): A host read completion arrives and is used or treated as a failed host read. -/
  | hostReadCompletion (which : HostRead) (ok : Bool) (data : List Byte)
  /-- HOST_READ_TIMEOUT (R881): A host read's completion timeout expires and the read fails. -/
  | hostReadTimeout (which : HostRead)
  /-- DESCRIPTOR_FETCH (R256): Once completion slots are free, the ring engine reserves them and issues a fetch read
  of up to FETCH_MAX descriptors. -/
  | descriptorFetch (sq : SqRef)
  /-- DESCRIPTOR_FETCH_RETURN (R253): Fetched descriptors arrive, are stamped, validated and queued for hand-over,
  or complete with POISON_READ. -/
  | descriptorFetchReturn (sq : SqRef) (descs : Option (List (List Byte)))
  /-- HAND_OVER (R287): A descriptor is handed to the Hopper, checked for width, admitted into job and Tailrace
  entries, refused, or held. -/
  | handOver (sq : SqRef) (also : List SqRef := [])
  /-- SQ_ENABLE (R270): Setting ENABLE on an OFF submission ring starts it at GEN_INIT or refuses with a cause. -/
  | sqEnable (sq : SqRef) (word : Nat)
  /-- SQ_DISABLE (R272): Clearing ENABLE on an active or halted submission ring moves it to DRAINING. -/
  | sqDisable (sq : SqRef)
  /-- CQ_ENABLE (R270): Setting ENABLE on an OFF completion ring starts it at GEN_INIT or refuses with a cause. -/
  | cqEnable (cq : CqRef) (word : Nat)
  /-- CQ_DISABLE (R274): Clearing ENABLE on a completion ring turns it OFF only when every submission ring naming it
  is OFF, else sets IN_USE. -/
  | cqDisable (cq : CqRef)
  /-- IRQ_TIME_EXPIRY (R266): At a tick boundary, TIME ticks after the first unsignalled record, the completion
  ring's vector is sent. -/
  | irqTimeExpiry (part ring : Nat)
  /-- NOP (R251): A NOP descriptor completes with DONE. -/
  | nop (job : Nat)
  /-- LAUNCH (R291): A LAUNCH descriptor becomes a job of TASKS tasks entering its ready list after any DELAY. -/
  | launch (job : Nat) (strikes : List Strike) (replies : List Reply)
  /-- LAUNCH_AT (R551): A LAUNCH_AT descriptor becomes a job that starts its tasks at the agreed count AT. -/
  | launchAt (job : Nat) (strikes : List Strike) (replies : List Reply)
  /-- LAUNCH_AT_READY (R553): At count AT minus 4,096 a LAUNCH_AT job enters the priority-3 ready list. -/
  | launchAtReady (job : Nat)
  /-- LAUNCH_AT_START (R553): At the first ck_core edge at or after AT, waiting tasks issue their first instruction.
  -/
  | launchAtStart (job : Nat)
  /-- ACQUIRE (R319): A pawl ACQUIRE grants a free pawl, queues the requester, or returns a violation. -/
  | acquire (who : PawlAsker) (pawl lease : Nat) (also : List PawlEvent := [])
  /-- TRY (R319): A pawl TRY grants a free pawl or returns TIMEOUT_WAIT with TRY_HELD. -/
  | pawlTry (who : PawlAsker) (pawl lease : Nat) (also : List PawlEvent := [])
  /-- RELEASE (R321): A pawl RELEASE by its owner passes the pawl to the oldest waiter or frees it, clearing BROKEN
  with MENDED. -/
  | release (who : PawlFreer) (pawl : Nat) (mended : Bool) (also : List PawlEvent := [])
  /-- RENEW (R319): A pawl RENEW by its owner restarts the lease with the new LEASE. -/
  | renew (who : PawlFreer) (pawl lease : Nat) (also : List PawlEvent := [])
  /-- PAWL_BREAK (R322): PAWL_BREAK.GO breaks a held pawl with HOST_BREAK. -/
  | pawlBreak (part pawl : Nat) (also : List PawlEvent := [])
  /-- LEASE_EXPIRY (R322): A pawl lease falls due and the pawl is broken with LEASE_EXPIRED. -/
  | leaseExpiry (pawl : Nat) (also : List PawlEvent := [])
  /-- WAIT_LIMIT_EXPIRY (R320): A waiting ACQUIRE's WAIT_LIMIT falls due and it ends with TIMEOUT_WAIT. -/
  | waitLimitExpiry (pawl : Nat) (also : List PawlEvent := [])
  /-- CTX_KILL (R294): Setting a CTX_KILL bit ends every job of the context and marks it faulted. -/
  | ctxKill (part mask : Nat)
  /-- DELAY_DUE (R316): At a tick boundary every delayed job that has fallen due moves into its ready list. -/
  | delayDue
  /-- AGE_PROMOTION (R298): A job waiting AGE ticks in a ready list moves to the next higher list. -/
  | agePromotion (part : Nat)
  /-- DEADLINE_PASSED (R307): A job whose DEADLINE passes before its first dispatch completes with TIMEOUT_WAIT. -/
  | deadlinePassed (job : Nat)
  /-- TASK_DISPATCH (R299): A task of the highest ready job is dispatched to the lowest-numbered free tile of the
  partition on an allowed die. -/
  | taskDispatch (part : Nat)
  /-- TASK_END (R304): A task ends after its writes are flushed, stopping further dispatch on failure and completing
  the job when its last task ends. -/
  | taskEnd (tile status cause : Nat)
  /-- TAILRACE_RELEASE (R310): The Tailrace writes a flow's finished record once every earlier descriptor of the
  flow has been released. -/
  | tailraceRelease
  /-- LOAD (R373): A tile load is served through the sector path in 32-byte sectors, translating through the
  placement table. -/
  | loadTile (tile reg addr len : Nat) (strikes : List Strike)
  /-- STORE (R375): A tile store enters the write-combining buffer or goes directly down the sector path, line by
  line. `also` lists the stores of other tiles in the same ck_core cycle (R380). -/
  | storeTile (tile addr : Nat) (data : List Byte) (also : List TileStore := [])
  /-- SPOUT_GATHER (R382): A gather of 1 to 8 elements is accepted by the die's Spout port and completes as a whole.
  -/
  | spoutGather (tile reg size : Nat) (addrs : List Nat) (strikes : List Strike)
  /-- TRANSLATION_FILL (R363): A translation-cache miss is filled from the named package's placement table, or the
  fill is discarded after an invalidation. -/
  | translationFill (die part unit : Nat)
  /-- TRANSLATION_ENTRY_EXPIRY (R365): A translation-cache entry is dropped 2^18 ck_core after its fill. -/
  | translationEntryExpiry (die pkg part unit : Nat)
  /-- WC_HOLD_EXPIRY (R377): A write-combining entry idle for WC_HOLD ck_core is flushed. -/
  | wcHoldExpiry (die pkg line : Nat)
  /-- FLUSH_ACK (R378): A flush write is acknowledged, freeing the entry, or is abandoned with its status and event
  0x10. -/
  | flushAck (die line : Nat) (strikes : List Strike)
  /-- COPY (R387): A COPY descriptor moves BYTES between device and host addresses through the data mover. -/
  | copy (job : Nat) (strikes : List Strike)
  /-- INVALIDATE (R371): An INVALIDATE descriptor drops translation entries and flushes write-combining entries as
  SCOPE asks on both dies. -/
  | invalidate (job : Nat)
  /-- PLACE (R348): OP PLACE maps partition units onto tier F and tier S under quota, zeroing FREE units taken. -/
  | place (job : Nat)
  /-- UNPLACE (R354): OP UNPLACE invalidates translations, waits for accesses and frees the placed units in the
  range. -/
  | unplace (job : Nat)
  /-- PT_XCHG (R357): PT_XCHG.GO exchanges the physical mappings of two runs of equal COUNT, or sets XCHG_REFUSED.
  -/
  | ptXchg (part runA runB : Nat)
  /-- FREE_ALL (R356): PRELOAD_CTRL.FREE_ALL turns every PRELOADED unit into FREE. -/
  | freeAll
  /-- PATROL_SCRUB (R399): The patrol scrubber reads each sector of a stack or channel once per PERIOD_H, writing
  back corrections and counting errors. -/
  | patrolScrub (memory : Nat) (strikes : List Strike)
  /-- LIVE_REMAP (R403): A tier F row reaching its error limit is copied, repaired by soft PPR, written back and
  recorded before its bank is released. -/
  | liveRemap (stack off : Nat) (spare : Bool)
  /-- REMAP_RETIRE (R410): Setting RETIRE moves channel CH's device-mark entries to retired and ends the mark in
  force. -/
  | remapRetire (channel : Nat)
  /-- CHANNEL_TAKE_OUT (R411): Setting TAKE_OUT, or a second failing device or persistent parity error, takes a tier
  S channel out of service. -/
  | channelTakeOut (channel reason : Nat)
  /-- SLUICE_REFILL (R419): At the end of each refill period every enabled sluice gains RATE shares up to its burst
  limit. -/
  | sluiceRefill (memory : Nat)
  /-- GOVERNOR_READING (R426): Every 1 ms the Governor reads its sensors and power and updates states, narrowing,
  throttle, clocks and holds. -/
  | governorReading (temps : List (Option Int)) (power : Nat) (rails : List Nat)
  /-- LOCAL_HOLD_END (R436): A local dispatch hold ends at the next tick boundary after every sensor leaves
  CRITICAL. -/
  | localHoldEnd
  /-- PORT_ENABLE (R454): A PORT_CFG write with MODE not OFF and ENABLE 1 moves an OFF port to DETECT. -/
  | portEnable (port mode : Nat)
  /-- DETECT_POLL (R454): Every 10 ms a port in DETECT looks for partner receivers and enters EQUALISE on detection.
  -/
  | detectPoll (port : Nat) (found : Bool)
  /-- EQUALISE_DONE (R454): Equaliser adaptation succeeds and the port enters ALIGN, or returns to DETECT after 100
  ms. -/
  | equaliseDone (port : Nat) (ok : Bool)
  /-- ALIGN_DONE (R454): Lane deskew and flit boundaries are found and the port enters CONFIG, or returns to DETECT
  on failure. -/
  | alignDone (port : Nat) (ok : Bool)
  /-- TS_FLIT (R455): A received TS flit is checked against the topology and moves the port to STANDBY once both
  sides acknowledge. -/
  | tsFlit (port : Nat) (body : List Byte)
  /-- DATA_FLIT (R464): A received DATA flit is accepted in sequence, discarded as a duplicate, or answered with
  NAK. -/
  | dataFlit (port : Nat) (flit : List Byte) (corrected : Nat) (bad : Bool) (frac : Nat)
  /-- NAK (R466): A received NAK makes the sender replay its retry buffer from ACK + 1, entering RETRAIN after 8
  replays from one SEQ. -/
  | nak (port ack : Nat) (valid : Bool)
  /-- REPLAY_TIMEOUT (R467): An unacknowledged flit waiting 1,024 ck_fab without ACK progress triggers a replay. -/
  | replayTimeout (port : Nat)
  /-- LOSS_OF_ALIGNMENT (R454): An ACTIVE port losing lane alignment enters RETRAIN. -/
  | lossOfAlignment (port : Nat)
  /-- RETRAIN_END (R458): RETRAIN ends within 2 ms keeping sequence state, or fails and the port goes DOWN and
  floods LINK_CHANGE. -/
  | retrainEnd (port : Nat) (ok : Bool)
  /-- FENCE_CLEAR (R503): Writing FENCE_CLEAR moves a FENCED port to DETECT to train and rejoin. -/
  | fenceClear (port : Nat)
  /-- READ (R477): A READ request message is served at the target with owner check and sluice charge and answered
  with READ_RSP. -/
  | readReq (port : Nat) (msg : Msg) (strikes : List Strike)
  /-- WRITE (R477): A WRITE request message of whole sectors is served at the target and answered with WRITE_RSP. -/
  | writeReq (port : Nat) (msg : Msg) (strikes : List Strike)
  /-- WRITE_MASKED (R477): A WRITE_MASKED request writes a 128-byte line under its byte mask and is answered with
  WRITE_RSP. -/
  | writeMasked (port : Nat) (msg : Msg) (strikes : List Strike)
  /-- XLATE (R363): An XLATE request is answered from the target's placement table with XLATE_RSP. -/
  | xlate (port : Nat) (msg : Msg)
  /-- READ_RSP (R478): A READ_RSP ends the requester's read with its status, or is discarded as late or for a reset
  partition. -/
  | readRsp (port : Nat) (msg : Msg)
  /-- WRITE_RSP (R478): A WRITE_RSP ends the requester's write with its status. -/
  | writeRsp (port : Nat) (msg : Msg)
  /-- XLATE_RSP (R363): An XLATE_RSP fills the requester's translation-cache entry. -/
  | xlateRsp (port : Nat) (msg : Msg)
  /-- REQ_TIMEOUT (R479): A request without response after REQ_TIMEOUT ticks ends with FAULT_FABRIC. -/
  | reqTimeout (tag : Nat)
  /-- COLL_UP (R512): A COLL_UP chunk from a child is accumulated in rank order, or at the root converted and sent
  down the tree. -/
  | collUp (port : Nat) (msg : Msg)
  /-- COLL_DOWN (R514): A COLL_DOWN chunk is stored at the member and forwarded to its children. -/
  | collDown (port : Nat) (msg : Msg)
  /-- COLL_ABORT (R523): A COLL_ABORT completes the member's operation with the abort status and advances to SEQ +
  1. -/
  | collAbort (port : Nat) (msg : Msg)
  /-- COLL_ACK (R518): A COLL_ACK frees room for a further chunk to that member. -/
  | collAck (port : Nat) (msg : Msg)
  /-- COLL_TIMEOUT (R521): A member waiting more than COLL_TIMEOUT ticks completes with COLL_TIMEOUT and sends
  COLL_ABORT. -/
  | collTimeout (group : Nat)
  /-- ALL_REDUCE (R512): A COLLECTIVE of KIND ALL_REDUCE delivers the reduced vector to every member. -/
  | allReduce (job : Nat)
  /-- REDUCE_SCATTER (R511): A COLLECTIVE of KIND REDUCE_SCATTER delivers each rank its slice of the reduced vector.
  -/
  | reduceScatter (job : Nat)
  /-- ALL_GATHER (R511): A COLLECTIVE of KIND ALL_GATHER delivers every member's input to every member in rank
  order. -/
  | allGather (job : Nat)
  /-- BROADCAST (R511): A COLLECTIVE of KIND BROADCAST copies ROOT's input to every member. -/
  | broadcast (job : Nat)
  /-- BARRIER (R511): A COLLECTIVE of KIND BARRIER completes only after every member has submitted. -/
  | barrier (job : Nat)
  /-- SYNC (R542): A SYNC from the parent port yields an exchange that steps or slews the GMC and updates its lock
  state. -/
  | sync (port : Nat) (msg : Msg) (frac : Nat)
  /-- SYNC_SEND (R482): Every 2^16 counts a SYNC is sent on every STANDBY and ACTIVE port. -/
  | syncSend (fracs : List Nat)
  /-- GMC_HOLDOVER (R548): A LOCKED package with no used exchange for 4 × 2^16 counts enters HOLDOVER. -/
  | gmcHoldover
  /-- HOLD (R526): A HOLD message is recorded per origin and forwarded, taking effect at once if its hold count has
  passed. -/
  | holdMsg (port : Nat) (msg : Msg)
  /-- HOLD_START (R526): At hold count H collective engines finish their chunk and the Hopper starts no new work. -/
  | holdStart
  /-- RESUME (R528): A RESUME message sets the resume count of its origin's hold entry. -/
  | resumeMsg (port : Nat) (msg : Msg)
  /-- HOLD_END (R528): At the latest resume count of the entries the fabric hold ends. -/
  | holdEnd
  /-- NOTICE (R524): A NOTICE is recorded when the origin shares an enabled group, and forwarded. -/
  | noticeMsg (port : Nat) (msg : Msg)
  /-- LINK_CHANGE (R493): A LINK_CHANGE sets or clears the link's bit in the shadow routing table and is forwarded.
  -/
  | linkChange (port : Nat) (msg : Msg)
  /-- JOIN_AT (R498): A JOIN_AT proposal is combined with the local one to agree the join epoch. -/
  | joinAt (port : Nat) (msg : Msg)
  /-- ROUTING_EPOCH_BOUNDARY (R490): At each epoch boundary the shadow routing table becomes active, ports join or
  fence, and the GMC parent is chosen again. -/
  | routingEpochBoundary
  /-- HOLD_ENTRY_LAPSE (R529): A hold entry not refreshed for 50 ms lapses and is dropped at the next epoch boundary
  with event 0x0B. -/
  | holdEntryLapse (origin : Nat)
  /-- COG_GO (R559): COG_CTRL.GO computes cog() on the COG registers into COG_OUT. -/
  | cogGo
  /-- MK_CLEAR (R562): MK_CTRL OP CLEAR sets WEIGHTS_MARK to zero. -/
  | mkClear (part : Nat)
  /-- MK_ABSORB (R562): MK_CTRL OP ABSORB hashes MK_LEN bytes into WEIGHTS_MARK, or sets MK_FAILED on a failed read.
  -/
  | mkAbsorb (part : Nat) (strikes : List Strike) (replies : List Reply)
  /-- MARK_STORE_PIN (R571): MS_CTRL.PIN programs the next empty mark-store entry, or sets MS_REFUSED with FULL. -/
  | markStorePin
  /-- MARK_STORE_ERASE (R572): MS_CTRL.ERASE with KEY 0x7A11 erases the mark store, else sets MS_REFUSED with
  BADKEY. -/
  | markStoreErase (key : Nat)
  /-- INPUT_MARK_DONE (R566): The input Mark digest completes after the FENCE is met and dispatch may begin. -/
  | inputMarkDone (job : Nat) (strikes : List Strike) (replies : List Reply)
  /-- OUTPUT_MARK_DONE (R567): The output Mark digest over the output regions completes after the last task and the
  Mark block is written. -/
  | outputMarkDone (job : Nat) (strikes : List Strike) (replies : List Reply)
  /-- REPLAY_FRAME_DELIVERY (R580): In replay a FRAME record is delivered as an arrival at ARRIVAL + REPLAY_OFFSET.
  -/
  | replayFrameDelivery (part : Nat)
  /-- REPLAY_DESC_RELEASE (R581): In replay a held descriptor is accepted at its recorded ARRIVAL + REPLAY_OFFSET.
  -/
  | replayDescRelease (sq : SqRef)
  /-- TILE_TAKE_OUT (R625): Setting TAKE_OUT removes a tile from the pool, entering OUT after its running task. -/
  | tileTakeOut (tile : Nat)
  /-- TILE_RETURN (R626): Setting RETURN on an OUT or FAILED tile starts a self-test, else sets TILE_BADREQ. -/
  | tileReturn (tile : Nat)
  /-- SELF_TEST_DONE (R624): A tile self-test ends, making the tile FREE or FAILED. -/
  | selfTestDone (tile result us : Nat)
  /-- TILE_PARITY (R622): A vector-register or matrix-engine parity error ends the task with FAULT_ENGINE and tests
  or retires the tile. -/
  | tileParity (tile : Nat) (matrix : Bool)
  /-- BSORT (R651): The BSORT instruction sorts a key register with its index register. -/
  | bsort (tile keys idx op ktype q : Nat)
  /-- BMERGE (R651): The BMERGE instruction merges a sorted register pair into the better half. -/
  | bmerge (tile keysA idxA keysB idxB op ktype q : Nat)
  /-- BDROP (R651): The BDROP instruction removes NaN keys from a register and returns the count. -/
  | bdrop (tile keys idx op ktype q : Nat)
  /-- SELECT (R640): A SELECT descriptor chooses the K best elements of each key row with optional payload
  gathering. -/
  | select (job : Nat) (clock : List Nat) (strikes : List Strike) (replies : List Reply)
  /-- CHOL (R666): A SOLVE with METHOD CHOL factors and solves by Cholesky. -/
  | chol (job : Nat) (clock : List Nat) (parity : Option Nat) (strikes : List Strike) (replies : List Reply)
  /-- LDLT (R666): A SOLVE with METHOD LDLT factors and solves as L D Lᵀ. -/
  | ldlt (job : Nat) (clock : List Nat) (parity : Option Nat) (strikes : List Strike) (replies : List Reply)
  /-- LU (R666): A SOLVE with METHOD LU factors with partial pivoting and solves. -/
  | solveLu (job : Nat) (clock : List Nat) (parity : Option Nat) (strikes : List Strike) (replies : List Reply)
  /-- BTRI (R669): A SOLVE with METHOD BTRI factors and solves a block-tridiagonal system. -/
  | btri (job : Nat) (clock : List Nat) (parity : Option Nat) (strikes : List Strike) (replies : List Reply)
  /-- PCG (R670): A SOLVE with METHOD PCG iterates preconditioned conjugate gradients on a CSR matrix. -/
  | pcg (job : Nat) (clock : List Nat) (parity : Option Nat) (strikes : List Strike) (replies : List Reply)
  /-- SOLVE_FACTOR (R683): A SOLVE with METHOD SOLVE_FACTOR solves with a stored complete factor. -/
  | solveFactor (job : Nat) (clock : List Nat) (parity : Option Nat) (strikes : List Strike) (replies : List Reply)
  /-- BUILD (R712): A WORLD_UPDATE BUILD builds an OPEN epoch from merged brick records. -/
  | build (job : Nat) (strikes : List Strike) (replies : List Reply)
  /-- SLICES (R713): A WORLD_UPDATE SLICES merges predicted slice records into an OPEN epoch. -/
  | slices (job : Nat) (strikes : List Strike) (replies : List Reply)
  /-- SWAP (R721): A WORLD_UPDATE SWAP makes an OPEN epoch CURRENT in one ck_hub cycle. -/
  | swap (job : Nat) (strikes : List Strike)
  /-- SWAP_RETIRE (R721): Once every operation holding the replaced epoch completes, it is RETIRED and the SWAP
  completes. -/
  | swapRetire (job : Nat)
  /-- REFRESH (R728): A WORLD_UPDATE REFRESH invalidates the epoch's node-cache lines on both dies. -/
  | refresh (job : Nat) (strikes : List Strike)
  /-- NODE_CACHE_LINE_EXPIRY (R725): A node-cache line is dropped 2^16 ck_core after its fill. -/
  | nodeCacheLineExpiry (die phys : Nat)
  /-- CHECK (R757): A CHECK descriptor sweeps candidate trajectories through the captured epoch and writes verdicts,
  costs and a report. -/
  | checkDesc (job : Nat) (clock : List Nat) (strikes : List Strike) (replies : List Reply)
  /-- PLAN (R764): A PLAN descriptor iterates check, assembly, BTRI solve and line search to refine a trajectory. -/
  | planDesc (job : Nat) (clock : List Nat) (parity : Option Nat) (strikes : List Strike) (replies : List Reply)
  /-- MILLER_ACCESS_FAULT (R778): A Miller core access outside its map or permissions raises a RISC-V access fault
  and records M_ERR. -/
  | millerAccessFault (core addr size : Nat) (atomic : Bool)
  /-- SVC_MB_RING (R784): A core writing SVC_MB_RING raises line 1 at each target core. -/
  | svcMbRing (core mask : Nat)
  /-- H2M_RING (R785): The host writing H2M_RING raises line 0 at each named core. -/
  | h2mRing (mask : Nat)
  /-- M2H_RING (R785): A core writing M2H_RING sets its M2H_PEND bit and sends M2H_VECTOR on the PF. -/
  | m2hRing (core : Nat)
  /-- POST_TAIL (R788): A core's 8-byte store to POST_TAIL is examined at once as a post-ring doorbell. -/
  | postTail (core ring word : Nat)
  /-- CQ_HEADW (R788): A core's 8-byte store to CQ_HEADW is examined at once as its completion-ring head doorbell.
  -/
  | cqHeadw (core word : Nat)
  /-- WATCHDOG_EXPIRY (R819): M_WD × 1,024 counts without a kick set WD_FIRED, write event 0x01 and raise the M2H
  interrupt. -/
  | watchdogExpiry (core : Nat)
  /-- TENTER_ACCESS_TIMEOUT (R792): A Tenter register access unanswered by user logic for 1,024 ck_hub completes
  without fault and counts in TENT_TIMEOUTS. -/
  | tenterAccessTimeout (core size : Nat) (write : Bool)
  /-- USER_RESET (R793): Setting USER_RESET holds Tenter user logic in reset for 16 cycles of each user clock. -/
  | userReset
  /-- TENTER_USER_INTERRUPT (R783): A rising edge on a Tenter user interrupt sets lines 16 to 23 at every core. -/
  | tenterUserInterrupt (n : Nat)
  /-- ETH_MODE_WRITE (R795): A write to ETH_MODE applies only while every port is disabled, else sets MODE_REFUSED.
  -/
  | ethModeWrite (mode : Nat)
  /-- ETH_LINK_CHANGE (R783): An Ethernet link changes state, raising line 6 and event 0x02. -/
  | ethLinkChange (port : Nat) (link fec : Bool)
  /-- PHC_STEP (R796): A write to PHC_STEP adds its signed value to the PHC in one cycle. -/
  | phcStep (val : Nat)
  /-- PHC_SNAP (R797): PHC_SNAP.GO latches the GMC and PHC from one ck_gmc cycle. -/
  | phcSnap
  /-- TX_TS_POP (R801): A write to TX_TS_POP pops the head of the transmit stamp FIFO. -/
  | txTsPop
  /-- FRAME_RECEIVE (R806): A received frame is stamped, classified, checked and delivered to a frame mailbox or
  general queue, or dropped. -/
  | frameReceive (port : Nat) (frame : List Byte) (good : Bool)
  /-- FRAME_TRANSMIT (R805): A transmit-queue entry is sent in queue order, stamped as flagged, and Q_HEAD advances.
  -/
  | frameTransmit (port : Nat)
  /-- SWEEP (R811): A complete SWEEP message is binned and built into a new world epoch by the planning service. -/
  | sweep (part core ring : Nat) (descs : List (List Byte))
  /-- SWEEP_WAIT_EXPIRY (R811): An incomplete sweep is dropped after SWEEP_WAIT and rejected with INCOMPLETE. -/
  | sweepWaitExpiry (part wait : Nat)
  /-- PLAN_REQ (R812): A PLAN_REQ is answered with exactly one PLAN frame after the check, policy, select and plan
  sequence. -/
  | planReq (part : Nat) (answer : PlanAnswer)
  /-- TELEMETRY (R816): TELEMETRY messages accumulate per pack and one with HISTORY_END is scored and answered with
  one SOH frame. -/
  | telemetry (part : Nat) (answer : SohAnswer)
  /-- STATUS_REQ (R816): A STATUS_REQ is answered with one STATUS frame holding the telemetry record. -/
  | statusReq (part stream seq : Nat)
  /-- GET_IDENTITY (R227): The MCTP GET_IDENTITY command returns identity, tile mask, serial, loaded version and
  build and CFG_STATUS. -/
  | getIdentity (via : Binding) (tag : Nat)
  /-- READ_REG (R227): The MCTP READ_REG command returns the value of a set-up register. -/
  | readReg (via : Binding) (tag off width : Nat)
  /-- WRITE_REG (R228): The MCTP WRITE_REG command writes a register in the permitted blocks while MCTP_WR_EN is 1,
  else returns DENIED. -/
  | writeReg (via : Binding) (tag off width val : Nat)
  /-- GET_TELEMETRY (R227): The MCTP GET_TELEMETRY command returns the 32-byte telemetry record. -/
  | getTelemetry (via : Binding) (tag : Nat)
  /-- SLOT_BEGIN (R229): The MCTP SLOT_BEGIN command erases a slot and opens a slot session with STATE writing. -/
  | slotBegin (via : Binding) (tag slot length : Nat)
  /-- SLOT_WRITE (R229): The MCTP SLOT_WRITE command writes contiguous bytes of the open slot session. -/
  | slotWrite (via : Binding) (tag off : Nat) (data : List Byte)
  /-- SLOT_COMMIT (R230): The MCTP SLOT_COMMIT command writes LENGTH and GENERATION and sets the slot valid. -/
  | slotCommit (via : Binding) (tag : Nat)
  /-- SLOT_ERASE (R227): The MCTP SLOT_ERASE command erases a slot. -/
  | slotErase (via : Binding) (tag slot : Nat)
  /-- SLOT_VERIFY (R227): The MCTP SLOT_VERIFY command runs checks 1 to 10 on a slot and returns the result code. -/
  | slotVerify (via : Binding) (tag slot : Nat)
  /-- RELOAD (R233): The MCTP RELOAD command starts a new configuration sequence, or after release a keyed package
  reset. -/
  | reload (via : Binding) (tag key : Nat)
  /-- SLOT_SESSION_TIMEOUT (R231): A slot session without SLOT_WRITE for 60 s ends and leaves the slot writing. -/
  | slotSessionTimeout
  /-- SET_ENDPOINT_ID (R225): The MCTP control command Set Endpoint ID sets MCTP_EID. -/
  | setEndpointId (via : Binding) (tag op eid : Nat)
  /-- GET_ENDPOINT_ID (R225): The MCTP control command Get Endpoint ID returns the endpoint ID. -/
  | getEndpointId (via : Binding) (tag : Nat)
  /-- GET_MCTP_VERSION_SUPPORT (R225): The MCTP control command Get MCTP Version Support returns supported versions.
  -/
  | getMctpVersionSupport (via : Binding) (tag type : Nat)
  /-- GET_MESSAGE_TYPE_SUPPORT (R226): The MCTP control command Get Message Type Support returns types 0x00, 0x05
  and 0x7E. -/
  | getMessageTypeSupport (via : Binding) (tag : Nat)
  /-- GET_VENDOR_DEFINED_MESSAGE_SUPPORT (R225): The MCTP control command Get Vendor Defined Message Support returns
  Vendor ID 0x1FA2. -/
  | getVendorDefinedMessageSupport (via : Binding) (tag selector : Nat)
  /-- GET_VERSION (R235): The SPDM GET_VERSION request resets the connection state of its binding and returns
  version 1.2. -/
  | getVersion (via : Binding)
  /-- GET_CAPABILITIES (R234): The SPDM GET_CAPABILITIES request returns CERT_CAP, CHAL_CAP and signed MEAS_CAP. -/
  | getCapabilities (via : Binding) (version : Nat)
  /-- NEGOTIATE_ALGORITHMS (R234): The SPDM NEGOTIATE_ALGORITHMS request selects P-384, SHA-384 and SHA3-256. -/
  | negotiateAlgorithms (via : Binding) (version asym hash meas : Nat)
  /-- GET_DIGESTS (R234): The SPDM GET_DIGESTS request returns the digest of certificate slot 0. -/
  | getDigests (via : Binding) (version : Nat)
  /-- GET_CERTIFICATE (R234): The SPDM GET_CERTIFICATE request returns the device identity certificate chain. -/
  | getCertificate (via : Binding) (version slot off length : Nat)
  /-- CHALLENGE (R234): The SPDM CHALLENGE request is answered with a signed response. -/
  | challenge (via : Binding) (version slot : Nat) (nonce : List Byte) (kind : Nat := 0)
  /-- GET_MEASUREMENTS (R236): The SPDM GET_MEASUREMENTS request returns the five measurement blocks, zero before
  release. -/
  | getMeasurements (via : Binding) (version index : Nat) (signed : Bool) (nonce : List Byte)
  /-- I2C_BUS_TIMEOUT (R864): SCL held low for 35 ms releases both lines, resets the interface and discards a
  partial packet. -/
  | i2cBusTimeout
  /-- EXTEST (R859): The EXTEST TAP instruction drives boundary pins, accepted only while PERST# is low or halted
  and withholding the release edge. -/
  | extest (value : Nat)
  /-- SAMPLE_PRELOAD (R855): The SAMPLE/PRELOAD TAP instruction samples and preloads the boundary register. -/
  | samplePreload (pins value : Nat)
  /-- IDCODE (R856): The IDCODE TAP instruction reads the identification code. -/
  | idcode
  /-- EXTEST_PULSE (R859): The EXTEST_PULSE TAP instruction tests AC pins under IEEE 1149.6, accepted only while
  PERST# is low or halted. -/
  | extestPulse (value : Nat)
  /-- EXTEST_TRAIN (R859): The EXTEST_TRAIN TAP instruction tests AC pins under IEEE 1149.6, accepted only while
  PERST# is low or halted. -/
  | extestTrain (value : Nat)
  /-- HIGHZ (R859): The HIGHZ TAP instruction floats outputs, accepted only while PERST# is low or halted. -/
  | highz
  /-- CLAMP (R859): The CLAMP TAP instruction holds outputs at preloaded values, accepted only while PERST# is low
  or halted. -/
  | clamp
  /-- MCTP_PIPE (R861): The MCTP_PIPE TAP instruction carries MCTP packets through the TAP, handled as from the
  management port. -/
  | mctpPipe (start : Bool) (byte : Option Byte)
  /-- BYPASS (R855): The BYPASS TAP instruction selects the one-bit bypass register. -/
  | bypass (opcode : Nat)
  /-- VBAT_REMOVED (R110): VBAT is removed or falls below 2.0 V during Standstill, and the always-on domain may lose
  its state and key RAM. -/
  | vbatRemoved (mv : Nat) (damaged : Bool)
  /-- VBAT_APPLIED (R111): VBAT is applied or rises back above 2.1 V, clearing VBAT_LOW. -/
  | vbatApplied (mv : Nat)
  /-- CONFIGURATION_REQUEST (R63): A PCIe configuration request arrives and is answered with Configuration Request
  Retry Status before the release edge, or otherwise served, including VF Enable and NumVFs writes. -/
  | configurationRequest (req : CfgRequest)
  /-- D3HOT_EXIT (R182): The host returns a function from D3hot to D0, keeping its state since No_Soft_Reset is 1.
  -/
  | d3hotExit (fn : Nat)
  /-- TRANSLATION_COMPLETION (R187): An ATS Translation Completion arrives and a refused translation makes its read
  a failed host read or its write a refused host write. -/
  | translationCompletion (fn page : Nat) (granted : Bool) (which : HostAccess)
  /-- MSIX_UNMASK (R269): The host clears an MSI-X mask bit or enables MSI-X, and a pending vector in the PBA is
  sent. -/
  | msixUnmask (fn : Nat) (vector : Option Nat)
  /-- UNSUPPORTED_CONTROL_COMMAND (R225): An MCTP control command or Oszoed COMMAND not supported is answered with
  ERROR_UNSUPPORTED_CMD or BAD_COMMAND. -/
  | unsupportedControlCommand (via : Binding) (tag : Nat) (oszoed : Bool) (command version : Nat)
  /-- MISALIGNED_READ (R200): A set-up read of a refused size or alignment returns all ones with a successful
  completion and sets MMIO_SIZE. -/
  | misalignedRead (who : Requester) (off size : Nat)
  /-- IDLE_FLIT (R460): A received IDLE flit delivers the partner's cumulative ACK and credit counts, freeing retry-
  buffer entries and credits. -/
  | idleFlit (port : Nat) (flit : List Byte)
  /-- PORT_DISABLE (R879): A PORT_CFG write setting MODE OFF or ENABLE 0 takes the Mbary port out of use, stops its
  ck_fab PLL and returns it to OFF. -/
  | portDisable (port : Nat) (mode : Nat) (enable : Bool)
  /-- MACHINE_TIMER_INTERRUPT (R780): The GMC reaches a core's M_TIMECMP and that core's machine timer interrupt is
  raised. -/
  | machineTimerInterrupt (core : Nat)
  /-- MEMORY_WINDOW_ACCESS (R781): A Miller core load or store through the memory window is made on behalf of
  M_PART, faulting with NOT_SERVICE or on a failing status. -/
  | memoryWindowAccess (core addr size : Nat) (store : Bool) (strikes : List Strike) (data : List Byte)
  /-- USER_PORT_WRITE (R791): Tenter user logic writes block memory through the user port, with a same-cycle hub
  write applied first. -/
  | userPortWrite (off : Nat) (data : List Byte) (hub : Option (Nat × List Byte)) (read : Option (Nat × Nat × Nat) := none)
  /-- TAP_RESET (R855): The TAP is reset by TRST# or TMS, loading IDCODE and ending any boundary instruction that
  withholds the release edge. -/
  | tapReset
  deriving DecidableEq, Repr

end Sys2Proof
end

