-- ==== Sys2Proof/Decode.lean ====
section
/-! DEFINITION. The reading of table words. The rows of spec/opcode_table.json give no bits: a command comes as an event with
operands, not as a word, so no word spells one. -/

namespace Sys2Proof

/-- The command that a table word spells: none, since no row of the table gives bits. -/
def decodeTableWord (_nbits _w : Nat) : Option Instr := none

end Sys2Proof
end

