-- ==== Sys2Proof/Config.lean ====
section
/-! DEFINITION. What an implementation fixes or the spec leaves open: the free values, each a constant without a body, so that
nothing can be proved of the value, and the limits the spec states once and several files use. -/

namespace Sys2Proof

/-- FREE. The n-th free value the machine takes: a result the spec leaves undefined or does not state. The state counts how
many have been taken; only the field that needs the value narrows it to its width. -/
opaque Config.freeNat : Nat → Nat

/-- FREE. The servo of R545: the counts by which the GMC is to be slewed after a used exchange that gave theta, in 1/16 count. -/
opaque Config.slewOf : Int → Int

/-- FREE. The order among equal keys (R633): a rank of each element, the same for equal keys, K, OP, KTYPE, Q and WIDTH. -/
opaque Config.tieRank : (keys : List Nat) → (k op ktype q width : Nat) → (index : Nat) → Nat

/-- FREE. The index an epoch stores where it points at nothing (SLICE_FIRST of a leaf without slice bricks, CHILD_BASE of a root
without children), given the next free index: R714 makes it the same on every part, no rule gives it. -/
opaque Config.emptyIndex : Nat → Nat

/-- FREE. How far the FP32 forward kinematics of the Checker puts one coordinate from its exact value (R740): the chain of
roundings is not stated, only that it stays within E. It depends on the robot block, the joint values and the coordinate. -/
opaque Config.fkError : (robot : List Byte) → (q : List Nat) → (coord : Nat) → Nat

/-- FREE. Whether a Tenter bitstream enables a user clock (R879): the bitstream is opaque, so this depends on its frames alone. -/
opaque Config.tentClock : (frames : List (Nat × List Byte)) → Bool

/-- FREE. The fused device-identity certificate chain (R234). -/
opaque Config.certChain : List Byte

/-- Bytes of one slot of the NVM die (R124). -/
def Config.slotBytes : Nat := 0x03C00000

/-- Completion-record and log constants. -/
def Config.evtSlots : Nat := 4096
def Config.vioSlots : Nat := 2048

end Sys2Proof
end

