-- ==== Sys2Proof/Machine/Bits.lean ====
section
/-! DEFINITION. Bit fields, counters, byte order and small keyed lists: the plain helpers every other file of the machine
uses. Bit 0 is the least significant bit (R5) and multi-byte fields are little-endian (R6). -/

namespace Sys2Proof.Machine

/-- The field of `v` of `w` bits whose lowest bit is `lo`. -/
def bits (v lo w : Nat) : Nat := (v >>> lo) % 2 ^ w

/-- One bit of `v`, as 0 or 1. -/
def bit1 (v i : Nat) : Nat := (v >>> i) % 2

/-- `v` with the field of `w` bits at `lo` replaced by `x`. -/
def putBits (v lo w x : Nat) : Nat :=
  ((v >>> (lo + w)) <<< (lo + w)) + ((x % 2 ^ w) <<< lo) + v % 2 ^ lo

/-- `v` with bit `i` set. -/
def setBit (v i : Nat) : Nat := v ||| (1 <<< i)

/-- `v` with bit `i` cleared. -/
def clrBit (v i : Nat) : Nat := if v.testBit i then v - (1 <<< i) else v

/-- The bits of `v` that `m` does not name (the effect of writing `m` to a write-1-to-clear field). -/
def clearBits (v m : Nat) : Nat := v - (v &&& m)

/-- The numbers of the bits of `v` that are set, below `n`, in ascending order. -/
def bitList (v n : Nat) : List Nat := (List.range n).filter (fun i => v.testBit i)

/-- How many of the low `n` bits of `v` are set. -/
def popCount (v n : Nat) : Nat := (bitList v n).length

/-- Truth as a one-bit field. -/
def b2n (b : Bool) : Nat := if b then 1 else 0

/-- The `w`-bit number `v` read as two's complement. -/
def sext (w v : Nat) : Int :=
  let u := v % 2 ^ w
  if u < 2 ^ (w - 1) then (u : Int) else (u : Int) - (2 : Int) ^ w

/-- The integer `i` as a `w`-bit two's complement number. -/
def toW (w : Nat) (i : Int) : Nat := (i % ((2 : Int) ^ w)).toNat

/-- Count up by `k`, stopping at the largest number of `w` bits. -/
def satAdd (w v k : Nat) : Nat := min (v + k) (2 ^ w - 1)

/-- The low byte of a number. -/
def byteOf (v : Nat) : Byte := BitVec.ofNat 8 v

/-- The `n` bytes of `v`, least significant first (R6). -/
def leBytes : Nat → Nat → List Byte
  | 0, _ => []
  | n + 1, v => byteOf v :: leBytes n (v / 256)

/-- The number that little-endian bytes spell (R6). -/
def ofLe : List Byte → Nat
  | [] => 0
  | b :: r => b.toNat + 256 * ofLe r

/-- The `n` bytes of `v`, most significant first, for the fields whose own standard defines that order (R7). -/
def beBytes (n v : Nat) : List Byte := (leBytes n v).reverse

/-- The number that big-endian bytes spell (R7). -/
def ofBe (l : List Byte) : Nat := ofLe l.reverse

/-- `n` zero bytes. -/
def zeros (n : Nat) : List Byte := List.replicate n 0

/-- `n` bytes of the list from offset `o`, zero beyond its end. -/
def slice (l : List Byte) (o n : Nat) : List Byte :=
  let t := (l.drop o).take n
  t ++ zeros (n - t.length)

/-- The little-endian number of `n` bytes at offset `o` of a structure. -/
def fieldAt (l : List Byte) (o n : Nat) : Nat := ofLe (slice l o n)

/-- `l` cut or zero-filled to `n` bytes. -/
def padTo (n : Nat) (l : List Byte) : List Byte := slice l 0 n

/-- A list of values under ascending keys, each key at most once. -/
abbrev Tab (α : Type) := List (Nat × α)

/-- The value under key `k`. -/
def Tab.find {α : Type} : Tab α → Nat → Option α
  | [], _ => none
  | (j, v) :: r, k => if j = k then some v else Tab.find r k

/-- The value under key `k`, or `d`. -/
def Tab.get {α : Type} (t : Tab α) (k : Nat) (d : α) : α := (Tab.find t k).getD d

/-- The table with key `k` holding `v`, in key order. -/
def Tab.put {α : Type} : Tab α → Nat → α → Tab α
  | [], k, v => [(k, v)]
  | (j, w) :: r, k, v =>
    if k < j then (k, v) :: (j, w) :: r
    else if k = j then (k, v) :: r
    else (j, w) :: Tab.put r k v

/-- The table without key `k`. -/
def Tab.del {α : Type} (t : Tab α) (k : Nat) : Tab α := t.filter (fun e => e.1 ≠ k)

/-- The list with `x` inserted after every element that `le` puts at or before it (a stable insertion). -/
def insertBy {α : Type} (le : α → α → Bool) (x : α) : List α → List α
  | [] => [x]
  | y :: r => if le y x then y :: insertBy le x r else x :: y :: r

/-- Stable insertion sort. -/
def sortBy {α : Type} (le : α → α → Bool) (l : List α) : List α := l.foldl (fun acc x => insertBy le x acc) []

/-- The first index at which `f` holds, at or after `i`, among the next `n`. -/
def firstFrom (f : Nat → Bool) : Nat → Nat → Option Nat
  | 0, _ => none
  | n + 1, i => if f i then some i else firstFrom f n (i + 1)

/-- The list without repeats, first occurrences kept. -/
def nub {α : Type} [DecidableEq α] (l : List α) : List α :=
  l.foldl (fun acc x => if x ∈ acc then acc else acc ++ [x]) []

/-- `a` divided by `b`, rounded up. -/
def ceilDiv (a b : Nat) : Nat := (a + b - 1) / b

end Sys2Proof.Machine
end

