-- ==== Sys2Proof/Machine/Fields.lean ====
section
/-! DEFINITION. The set-up space's register fields, one constructor of `Fld` for each field of the register tables of
spec/ (R52, R121, R181, R218, R222, R284 to R286, R327, R329, R390, R391, R443 to R445, R530, R585, R629, R653, R689,
R732, R776, R821, R838, R846, R899), named REGISTER_FIELD as the tables name them, and `Fld.desc`, which gives each
field its place, width, access type, reset value and Survives letters. The completion-ring set of a Miller core, which the
table of R821 calls CQ_*, is CORE_CQ_* here, and the nine Ethernet counters at port +0xA0 are ETH_COUNT. -/

namespace Sys2Proof.Machine

/-- The access types of spec/00_scope.md (Register access types). -/
inductive Acc where
  | ro | rw | wo | w1c | w1s | rwh | sc
  deriving DecidableEq, Repr

/-- What the register tables say of one field. `base` is the PF set-up offset of the register's first instance; `dims` lists
(count, stride) for each index of a repeated register, outermost first; `size` is the register's length in bytes; `lo` and
`width` are the field's bits; the reset value of instance i is `reset + step * i`. `f`, `p`, `s`, `b` are the Survives letters
and `star` the asterisk of R222 and R327. `live` marks a read-only field with no Survives letter: it shows live state, is
re-evaluated after every event and is not returned to reset by a function-level or partition reset or by Furled.
`part` is the number of instances per partition for a register that belongs to a partition (0 when it belongs to none);
`die` marks the fields of a grind die (R117). -/
structure FieldDesc where
  base  : Nat
  dims  : List (Nat × Nat)
  size  : Nat
  lo    : Nat
  width : Nat
  acc   : Acc
  reset : Nat := 0
  step  : Nat := 0
  f : Bool := false
  p : Bool := false
  s : Bool := false
  b : Bool := false
  star : Bool := false
  live : Bool := false
  part : Nat := 0
  die  : Bool := false
  deriving DecidableEq, Repr

/-- One constructor for each register field of the spec's tables. -/
inductive Fld where
  -- R52
  | CLK_LOCK_CORE_G0 | CLK_LOCK_CORE_G1 | CLK_LOCK_HUB | CLK_LOCK_GMC | CLK_LOCK_PCIE | CLK_LOCK_MF | CLK_LOCK_CFG
  | CLK_LOCK_MS | CLK_LOCK_FAB | CLK_LOCK_ETH | CLK_LOCK_TENT | CLK_LOCK_AON | CLK_LOSS_LOSS | CORE_CLK_TARGET
  | CORE_CLK_GO | CORE_CLK_BUSY | CORE_CLK_PENDING | CORE_CLK_BADVAL | CORE_CLK_ACTUAL | MS_RATE_PAIR 
  -- R121
  | RST_CTRL_PKG_RESET | RST_CTRL_KEEP_MEM | RST_CTRL_BADKEY | RST_CTRL_KEY | PART_RESET_PART | DIE_RESET_G0
  | DIE_RESET_G1 | DIE_RESET_BUSY | DIE_RESET_DIE_BADREQ | PORT_RESET_MBARY | PORT_RESET_ETH | RAIL_STATUS_GOOD
  | RAIL_STATUS_VBAT_LOW | PWR_CTRL_FURL | PWR_CTRL_WAKE | PWR_CTRL_FORCE | PWR_CTRL_A1_EN | PWR_CTRL_A1_IDLE
  | PWR_CTRL_FURL_WAIT | PWR_STATUS_STATE | PWR_STATUS_DIE_A1 | PWR_STATUS_FURL_REFUSED | PWR_STATUS_REFUSE_CAUSE
  | AON_STATUS_AON_PEND | AON_STATUS_AON_DROP | AON_STATUS_ZEROED | AON_STATUS_VBAT_LOST | RESET_CAUSE_CAUSE
  | AON_COUNT_LO_COUNT | AON_COUNT_HI_COUNT | AON_SCRATCH_DATA 
  -- R181
  | CFG_STATUS_DONE | CFG_STATUS_SOURCE | CFG_STATUS_KEY_SRC | CFG_STATUS_STRAP_BAD | CFG_STATUS_CFG_SRC
  | CFG_STATUS_FAIL_MODE | CFG_STATUS_CHAIN_FIRST | CFG_STATUS_LAST_CAUSE | CFG_STATUS_ATTEMPTS
  | LOADED_VERSION_VERSION | LOADED_BUILD_BUILD | LOADED_GEN_GEN | IMAGE_MARK_MARK | ARB_VALUE_VALUE | ARB_SET_VALUE
  | ARB_CTRL_GO | ARB_CTRL_BUSY | ARB_CTRL_ARB_REFUSED | SLOT_CTRL_SLOT | SLOT_CTRL_OP | SLOT_CTRL_GO
  | SLOT_CTRL_BUSY | SLOT_CTRL_SLOT_BADREQ | SLOT_CTRL_RESULT | SLOT_SRC_ADDR | SLOT_LEN_LEN | SLOT_STATE_A
  | SLOT_STATE_B | SLOT_STATE_RELOAD_OK | GEN_A_GEN | GEN_B_GEN | KR_DATA_DATA | KR_CTRL_LOAD | KR_CTRL_CLEAR
  | KR_CTRL_LOCK | KR_CTRL_VALID | KR_CTRL_KR_REFUSED | SCRUB_CTRL_EN | SCRUB_CTRL_RELOAD_EN | SCRUB_CYCLES_COUNT
  | SCRUB_CORR_COUNT | SCRUB_ESS_COUNT | SCRUB_UNREC_COUNT | SCRUB_LAST_FRAME | SCRUB_LAST_UNREC 
  -- R218
  | IDENT_PART | IDENT_STEPPING | IDENT_GRADE | TILE_PRESENT_MASK | SERIAL_SERIAL | HOST_LINK_RATE | HOST_LINK_WIDTH
  | HOST_LINK_FLIT | HOST_LINK_CXL_CACHE | HOST_LINK_ATS_EN | GLOBAL_CTRL_MCTP_WR_EN | GLOBAL_CTRL_VDM_EN
  | GLOBAL_CTRL_SMBUS_EN | GLOBAL_CTRL_I2C_ADDR | MCTP_EID_EID | GLOBAL_ERR_MMIO_SIZE | GLOBAL_ERR_UNMAPPED_WR
  | GLOBAL_ERR_SPLIT_GMC | GLOBAL_ERR_COLLIDE_ANY | COLLIDE_FIRST_OFFSET | COLLIDE_COUNT_COUNT | COLLIDE_QUERY_OFFSET
  | COLLIDE_BIT_COLLIDE | SCRATCH_DATA 
  -- R222
  | PART_STATUS_PART | PART_STATUS_OWNER | PART_STATUS_ACTIVE | PART_STATUS_RESETTING | PART_STATUS_VF_ENABLED
  | PART_GRANT_GROUPS | PART_GRANT_OWNER | F_QUOTA_UNITS | S_QUOTA_UNITS | GRANT_STATUS_GRANT_REFUSED
  | GRANT_STATUS_CAUSE | PART_COLLIDE_QUERY_OFFSET | PART_COLLIDE_BIT_COLLIDE 
  -- R284
  | SQ_BASE_ADDR | SQ_CFG_LOG2_SIZE | SQ_CFG_CQ_ID | SQ_CFG_TALLY_BYTES | SQ_CTRL_ENABLE | SQ_CTRL_GEN_INIT
  | SQ_STATUS_STATE | SQ_STATUS_CFG_REFUSED | SQ_STATUS_REFUSE_CAUSE | SQ_STATUS_HALT_CAUSE | SQ_HEAD_INDEX
  | SQ_HEAD_GEN | SQ_TAIL_WORD | SQ_INFLIGHT_COUNT | SQ_COMPLETED_COUNT 
  -- R285
  | CQ_BASE_ADDR | CQ_CFG_LOG2_SIZE | CQ_CFG_ENTRY | CQ_CTRL_ENABLE | CQ_CTRL_GEN_INIT | CQ_STATUS_STATE
  | CQ_STATUS_CFG_REFUSED | CQ_STATUS_REFUSE_CAUSE | CQ_STATUS_VECTOR_BAD | CQ_STATUS_HALT_CAUSE | CQ_TAIL_INDEX
  | CQ_TAIL_GEN | CQ_HEAD_WORD | CQ_RESERVED_COUNT | CQ_LOST_COUNT 
  -- R286
  | DB_BASE_ADDR | DB_CTRL_EN | DB_CTRL_FORCE_POLL | DB_CTRL_SNOOPING | DB_CTRL_DB_REFUSED | DB_CTRL_POLL_NS
  | DB_READ_FAIL_COUNT | IRQ_CQ_VECTOR | IRQ_CQ_IRQ_EN | IRQ_CQ_ERR_NOW | IRQ_CQ_COUNT | IRQ_CQ_TIME
  | RE_CFG_FETCH_MAX | RE_VIOL_COUNT_COUNT 
  -- R327
  | HOP_TICK_TICK | HOP_TICK_TICK_REFUSED | HOP_USE_JOBS | HOP_USE_TAILRACE | PART_HOP_JOB_QUOTA | PART_HOP_TR_QUOTA
  | PART_HOP_PAWL_BASE | PART_HOP_PAWL_COUNT | PART_HOP_STAT_HOP_REFUSED | PART_HOP_STAT_CAUSE 
  -- R329
  | HOP_PCTRL_ADMIT_REFUSE | HOP_PCTRL_AGE | HOP_PUSE_JOBS | HOP_PUSE_TAILRACE | HOP_READY_COUNT | HOP_WAITS_DELAYED
  | HOP_WAITS_PAWL_WAITERS | CTX_KILL_CTX | CTX_FAULTED_CTX | FLOW_QUERY_FLOW | FLOW_STATE_HELD
  | FLOW_STATE_HEAD_RUNNING | PAWL_QUERY_INDEX | PAWL_INFO_HELD | PAWL_INFO_BROKEN | PAWL_INFO_CTX
  | PAWL_INFO_WAITERS | PAWL_INFO_LEASE_LEFT | PAWL_INFO_BREAK_CAUSE | PAWL_BREAK_INDEX | PAWL_BREAK_GO
  | PAWL_BROKE_COUNT_COUNT | WAIT_TIMEOUTS_COUNT 
  -- R390
  | TF_STATUS_TRAINED | TF_FREE_G0 | TF_FREE_G1 | PRELOADED_UNITS | PRELOAD_CTRL_FREE_ALL | WC_CTRL_WC_HOLD
  | WC_RMW_COUNT | TC_MISS_COUNT | TS_CHAN_PRESENT | TS_CHAN_IN_SERVICE | TS_CHAN_CAP_GIB | TS_FREE_UNITS 
  -- R391
  | PL_F_USED_UNITS | PL_S_USED_UNITS | PL_SPILLED_UNITS | PL_RUNS_COUNT | DS_GRANT_G0 | DS_GRANT_G1
  | DS_GRANT_DS_REFUSED | DS_GRANT_CAUSE | PT_XCHG_RUN_A | PT_XCHG_RUN_B | PT_XCHG_GO | PT_XCHG_STATUS_XCHG_REFUSED
  | PT_XCHG_STATUS_CAUSE | RUN_QUERY_RUN | RUN_INFO_A_PUNIT | RUN_INFO_A_VALID | RUN_INFO_A_PREF_F | RUN_INFO_A_COUNT
  | RUN_INFO_B_TIER | RUN_INFO_B_FIRST | RUN_INFO_B_WAYS_LOG2 | RUN_INFO_B_PHYS_IDX 
  -- R443
  | GOV_CTRL_MODE | GOV_CTRL_MIN_CODE | GOV_CAP_POWER_CAP | GOV_RATES_HOT_RATE | GOV_RATES_CRIT_RATE
  | GOV_STATE_STATES | GOV_STATE_HOLD | GOV_STATE_TRIPPED | GOV_STATE_CAP_ACTIVE | GOV_STATE_THROTTLE
  | GOV_STATE_SENSOR_FAIL | GOV_TEMP2_HUB | GOV_POWER_MW | GOV_RISES_COUNT 
  -- R444
  | REMAP_STATUS_ENTRIES | REMAP_STATUS_TABLE_FULL | REMAP_CTRL_CH | REMAP_CTRL_RETIRE | TF_CE_COUNT | TF_UE_COUNT
  | TF_REMAP_LIVE | TF_REMAP_SPARE_OUT | TF_SCRUB_PERIOD_H | TF_SCRUB_EN | TF_SCRUB_ROW_CE_LIMIT | TS_CE_COUNT
  | TS_UE_COUNT | TS_MARK_DEVICE | TS_MARK_OUT_REASON | TS_CTRL_TAKE_OUT | TS_CTRL_DEV_CE_LIMIT
  | TS_CTRL_ROW_CE_LIMIT 
  -- R445
  | SL_CFG_RATE | SL_CFG_EN | SL_CFG_BURST | SL_EFF_RATE | SL_EFF_NARROWED | SL_LEVEL_BYTES | SL_WAITS_COUNT 
  -- R530
  | FAB_TOPO_PKG | FAB_EPOCH_EPOCH | FAB_CTRL_REQ_TIMEOUT | FAB_CTRL_FENCE_LIMIT | FAB_CTRL_PROB_EPOCHS
  | FAB_CTRL_COLL_TIMEOUT | FAB_CFG_STATUS_TOPO_REFUSED | FAB_HOLD_HOLD | FAB_HOLD_ORIGINS | FAB_HOLD_AT_COUNT
  | NOTICE_LAST_ORIGIN | NOTICE_LAST_CAUSE | NOTICE_LAST_COUNT | LATE_RSP_COUNT | PORT_CFG_MODE | PORT_CFG_ENABLE
  | PORT_CFG_FENCE_CLEAR | PORT_STATUS_STATE | PORT_STATUS_PROBATION | PORT_STATUS_FENCE_PENDING
  | PORT_STATUS_WIRING_BAD | PORT_STATUS_PARTNER_PKG | PORT_STATUS_PARTNER_PORT | PORT_STATUS_JOIN_EPOCH
  | PORT_CORR_COUNT | PORT_NAKS_COUNT | PORT_REPLAYS_COUNT | PORT_RETRAINS_COUNT | PORT_OFFENCES_COUNT | GRP_CFG_PART
  | GRP_CFG_FANOUT | GRP_CFG_EN | GRP_CFG_RANK | GRP_CFG_MEMBERS | GRP_CFG_NEXT_SEQ_LO | GRP_DIGEST_CRC
  | GRP_STATUS_GRP_REFUSED | GRP_STATUS_CAUSE | GRP_NEXT_SEQ_SEQ 
  -- R585
  | GMC_COUNT_COUNT | GMC_SNAP_COUNT | GMC_STATUS_STATE | GMC_STATUS_ROOT | GMC_STATUS_PARENT | GMC_STATUS_DEPTH
  | GMC_CFG_REF_PKG | GMC_CFG_REF_REFUSED | GMC_THETA_THETA | GMC_DELAY_DELAY | COG_CTRL_GO | COG_CTRL_BUSY
  | COG_OUT_W | MS_CTRL_PIN | MS_CTRL_ERASE | MS_CTRL_SRC | MS_CTRL_PART | MS_CTRL_KIND | MS_CTRL_BUSY
  | MS_CTRL_MS_REFUSED | MS_CTRL_CAUSE | MS_CTRL_KEY | MS_NAME_NAME | MS_VALUE_MARK | MS_QUERY_INDEX | MS_USED_COUNT
  | WEIGHTS_MARK_MARK | MK_ADDR_ADDR | MK_LEN_LEN | MK_CTRL_OP | MK_CTRL_GO | MK_CTRL_BUSY | MK_CTRL_MK_FAILED
  | MK_CTRL_STATUS | TALLY_BASE_ADDR | TALLY_SIZE_SIZE | TALLY_CTRL_MODE | TALLY_CTRL_STOP | TALLY_CTRL_TALLY_REFUSED
  | TALLY_HEAD_OFFSET | TALLY_SEQ_SEQ | REPLAY_BASE_ADDR | REPLAY_SIZE_SIZE | REPLAY_OFFSET_COUNTS
  | REPLAY_POS_OFFSET | REPLAY_DROPPED_COUNT 
  -- R629
  | TILE_STATE_STATE | TILE_STATE_GRANTED | TILE_STATE_PART | TILE_CTRL_TAKE_OUT | TILE_CTRL_RETURN
  | TILE_CTRL_AUTO_TEST | TILE_CTRL_TILE_BADREQ | TILE_TEST_LAST | TILE_TEST_FAILS | TILE_TEST_DURATION
  | TILE_MEM_CE_COUNT | TILE_MEM_UE_COUNT | TILE_LAST_ERR_WORD | TILE_LAST_ERR_UE | TILE_LAST_ERR_KIND
  | PERF_SEL_EVENT | PERF_CNT_COUNT 
  -- R653
  | BOLT_CTRL_STAT_EN | BOLT_KEYS_COUNT | BOLT_NAN_COUNT | BOLT_ROWS_COUNT | BOLT_PASSES_COUNT 
  -- R689
  | QN_STATUS_BUSY | QN_STATUS_PART | QN_STATUS_METHOD | QN_STATUS_COLS | QN_CTRL_STAT_EN | QN_SOLVES_COUNT
  | QN_REG_PIVOTS_COUNT | QN_DEADLINES_COUNT | QN_BUSY_COUNT 
  -- R732
  | WORLD_CUR_HEADER | WORLD_EPOCH_EPOCH | WORLD_USERS_CURRENT | WORLD_USERS_OLDER | WORLD_SWAPS_COUNT
  | NC_CTRL_STAT_EN | NC_HIT_COUNT | NC_MISS_COUNT 
  -- R776
  | CK_CANDS_COUNT | CK_CONTACTS_COUNT | CK_SAMPLES_COUNT | CK_BOX_COUNT | CK_REPAIRED_COUNT | CK_PLANS_COUNT 
  -- R821
  | SVC_CTRL_SVC_LOCK | SVC_CTRL_ETH_MODE | SVC_CTRL_MODE_REFUSED | SVC_UDP_PORT | SVC_PART_RESET_PART
  | SVC_MB_RING_TARGET | M2H_VECTOR_VECTOR | M_STATUS_RUNNING | M_STATUS_WD_FIRED | M_PART_PART | M_IRQ_PEND_LINES
  | M_IRQ_EN_LINES | M_TIMECMP_COUNT | M_MB_CORE_SRC | M_WD_LIMIT | M_WD_KICK_KICK | M_ERR_ADDR_ADDR | H2M_RING_CORE
  | M2H_RING_RING | M2H_PEND_CORE | MAC_ADDR | PHC_ADJ_ADJ | PHC_STEP_NS | PHC_SNAP_GO | TX_TS_POP_POP
  | TENT_CTRL_USER_RESET | TENT_TIMEOUTS_COUNT 
  -- R838
  | EVT_HEAD_COUNT | EVT_ACK_COUNT | EVT_CFG_VECTOR | EVT_CFG_IRQ_FAULT | EVT_CFG_IRQ_ANY | EVT_LOST_COUNT
  | EVT_DROPPED_COUNT 
  -- R846
  | RAIL_MV0_CORE_G0 | RAIL_MV0_CORE_G1 | RAIL_MV1_HUB | RAIL_MV1_VDDQ_S | RAIL_MV2_VBAT | RAIL_MV2_CORE_MAX_G0
  | RAIL_MV2_CORE_MAX_G1 
  -- R121
  | AON_LAST_EVENT_RECORD 
  -- R443
  | GOV_STACK_T_WARM | GOV_STACK_T_HOT | GOV_STACK_T_CRIT | GOV_STACK_T_RESUME | GOV_DIE_T_WARM | GOV_DIE_T_HOT
  | GOV_DIE_T_CRIT | GOV_DIE_T_RESUME | GOV_TEMP0_STACK0 | GOV_TEMP0_STACK1 | GOV_TEMP1_G0 | GOV_TEMP1_G1
  | GOV_SEEN_HOT | GOV_SEEN_CRIT | GOV_SEEN_TRIP | GOV_SEEN_SENSOR 
  -- R444
  | TF_LAST_PCH | TF_LAST_BANK | TF_LAST_UE | TF_LAST_ROW | TS_LAST_RANK | TS_LAST_BANK | TS_LAST_UE | TS_LAST_DEVICE
  | TS_LAST_ROW | TS_SCRUB_PERIOD_H | TS_SCRUB_EN 
  -- R530
  | FAB_TOPO_DX | FAB_TOPO_DY | FAB_TOPO_DZ | LINK_DOWN_ACTIVE_BITMAP | LINK_DOWN_SHADOW_BITMAP | EXPRESS_ACTIVE_DEST
  | EXPRESS_ACTIVE_PORT | EXPRESS_ACTIVE_VALID | EXPRESS_SHADOW_DEST | EXPRESS_SHADOW_PORT | EXPRESS_SHADOW_VALID
  | GRP_MEMBERS_BITMAP 
  -- R585
  | GMC_SEEN_UNSYNC | GMC_SEEN_HOLDOVER | GMC_SEEN_STEP | GMC_SEEN_PARENT_CHANGE | COG_KEY_VALUE | COG_JOB_VALUE
  | COG_STREAM_VALUE | COG_INDEX_VALUE | MS_ENTRY_ENTRY | TALLY_CTRL_GAP | TALLY_CTRL_WRAPPED 
  -- R821
  | M_ERR_STATUS | M_ERR_CAUSE | POST_BASE_ADDR | POST_CFG_LOG2_SIZE | POST_CFG_PART | POST_CFG_TALLY_BYTES
  | POST_CFG_ENABLE | POST_TAIL_WORD | POST_STATUS_STATE | POST_STATUS_CFG_REFUSED | POST_STATUS_REFUSE_CAUSE
  | POST_STATUS_HALT_CAUSE | POST_HEAD_WORD | CORE_CQ_BASE_ADDR | CORE_CQ_CFG_LOG2_SIZE | CORE_CQ_CFG_ENTRY
  | CORE_CQ_CFG_ENABLE | CORE_CQ_HEADW_WORD | CORE_CQ_STATUS_STATE | CORE_CQ_STATUS_CFG_REFUSED
  | CORE_CQ_STATUS_REFUSE_CAUSE | CORE_CQ_STATUS_HALT_CAUSE | CORE_CQ_TAIL_WORD | H2M_DATA_DATA | M2H_DATA_DATA
  | ETH_CFG_ENABLE | ETH_CFG_REJECT_EN | ETH_CFG_REJ_PER_MS | ETH_STATUS_LINK | ETH_STATUS_FEC_LOCK | MCAST_ADDR
  | MCAST_VALID | GENQ_BASE_ADDR | GENQ_BUF_ADDR | GENQ_CFG_LOG2_ENTRIES | GENQ_CFG_SLOT | GENQ_CFG_CORE
  | GENQ_CFG_ENABLE | GENQ_HEAD_INDEX | GENQ_TAIL_INDEX | TXQ_BASE_ADDR | TXQ_BUF_ADDR | TXQ_CFG_LOG2_ENTRIES
  | TXQ_CFG_SLOT | TXQ_CFG_CORE | TXQ_CFG_ENABLE | TXQ_HEAD_INDEX | TXQ_TAIL_INDEX | SVCQ_BASE_ADDR | SVCQ_BUF_ADDR
  | SVCQ_CFG_LOG2_ENTRIES | SVCQ_CFG_SLOT | SVCQ_CFG_CORE | SVCQ_CFG_ENABLE | SVCQ_HEAD_INDEX | SVCQ_TAIL_INDEX
  | ETH_COUNT_COUNT | LAST_DROP_REASON | LAST_DROP_TYPE | LAST_DROP_SEQ | PHC_SNAP_GMC_COUNT | PHC_SNAP_PTP_COUNT
  | TX_TS_TAG_TAG | TX_TS_TAG_VALID | TX_TS_PTP_STAMP | TX_TS_GMC_STAMP | TENT_STATUS_LOADED | TENT_STATUS_ISOLATED 
  -- R838
  | EVT_CLASSES_FAULTS | EVT_CLASSES_WARNS 
  -- R899
  | VIO_HEAD_COUNT | VIO_ACK_COUNT | VIO_CFG_VECTOR | VIO_CFG_IRQ_FAULT | VIO_CFG_IRQ_ANY | VIO_LOST_COUNT
  | VIO_DROPPED_COUNT | VIO_CLASSES_FAULTS | VIO_CLASSES_WARNS 
  deriving DecidableEq, Repr

/-- The register tables, field by field. -/
def Fld.desc : Fld → FieldDesc
  | .CLK_LOCK_CORE_G0 => { base := 0x020000, dims := [], size := 4, lo := 0, width := 1, acc := .ro, live := true }
  | .CLK_LOCK_CORE_G1 => { base := 0x020000, dims := [], size := 4, lo := 1, width := 1, acc := .ro, live := true }
  | .CLK_LOCK_HUB => { base := 0x020000, dims := [], size := 4, lo := 2, width := 1, acc := .ro, live := true }
  | .CLK_LOCK_GMC => { base := 0x020000, dims := [], size := 4, lo := 3, width := 1, acc := .ro, live := true }
  | .CLK_LOCK_PCIE => { base := 0x020000, dims := [], size := 4, lo := 4, width := 1, acc := .ro, live := true }
  | .CLK_LOCK_MF => { base := 0x020000, dims := [], size := 4, lo := 5, width := 2, acc := .ro, live := true }
  | .CLK_LOCK_CFG => { base := 0x020000, dims := [], size := 4, lo := 7, width := 1, acc := .ro, live := true }
  | .CLK_LOCK_MS => { base := 0x020000, dims := [], size := 4, lo := 8, width := 4, acc := .ro, live := true }
  | .CLK_LOCK_FAB => { base := 0x020000, dims := [], size := 4, lo := 12, width := 8, acc := .ro, live := true }
  | .CLK_LOCK_ETH => { base := 0x020000, dims := [], size := 4, lo := 20, width := 4, acc := .ro, live := true }
  | .CLK_LOCK_TENT => { base := 0x020000, dims := [], size := 4, lo := 24, width := 1, acc := .ro, live := true }
  | .CLK_LOCK_AON => { base := 0x020000, dims := [], size := 4, lo := 25, width := 1, acc := .ro, live := true }
  | .CLK_LOSS_LOSS => { base := 0x020008, dims := [], size := 4, lo := 0, width := 26, acc := .w1c, f := true }
  | .CORE_CLK_TARGET => { base := 0x020010, dims := [(2, 0x8)], size := 4, lo := 0, width := 6, acc := .rw, reset := 0x20, f := true, s := true }
  | .CORE_CLK_GO => { base := 0x020010, dims := [(2, 0x8)], size := 4, lo := 8, width := 1, acc := .sc }
  | .CORE_CLK_BUSY => { base := 0x020010, dims := [(2, 0x8)], size := 4, lo := 9, width := 1, acc := .ro, live := true }
  | .CORE_CLK_PENDING => { base := 0x020010, dims := [(2, 0x8)], size := 4, lo := 10, width := 1, acc := .ro, live := true }
  | .CORE_CLK_BADVAL => { base := 0x020010, dims := [(2, 0x8)], size := 4, lo := 11, width := 1, acc := .w1c, f := true }
  | .CORE_CLK_ACTUAL => { base := 0x020010, dims := [(2, 0x8)], size := 4, lo := 16, width := 6, acc := .ro, live := true }
  | .MS_RATE_PAIR => { base := 0x020020, dims := [], size := 4, lo := 0, width := 8, acc := .ro, live := true }
  | .RST_CTRL_PKG_RESET => { base := 0x030000, dims := [], size := 4, lo := 0, width := 1, acc := .sc }
  | .RST_CTRL_KEEP_MEM => { base := 0x030000, dims := [], size := 4, lo := 1, width := 1, acc := .rw }
  | .RST_CTRL_BADKEY => { base := 0x030000, dims := [], size := 4, lo := 2, width := 1, acc := .w1c, f := true }
  | .RST_CTRL_KEY => { base := 0x030000, dims := [], size := 4, lo := 16, width := 16, acc := .wo }
  | .PART_RESET_PART => { base := 0x030008, dims := [], size := 4, lo := 0, width := 8, acc := .w1s }
  | .DIE_RESET_G0 => { base := 0x030010, dims := [], size := 4, lo := 0, width := 1, acc := .sc }
  | .DIE_RESET_G1 => { base := 0x030010, dims := [], size := 4, lo := 1, width := 1, acc := .sc }
  | .DIE_RESET_BUSY => { base := 0x030010, dims := [], size := 4, lo := 4, width := 2, acc := .ro, live := true }
  | .DIE_RESET_DIE_BADREQ => { base := 0x030010, dims := [], size := 4, lo := 6, width := 1, acc := .w1c, f := true }
  | .PORT_RESET_MBARY => { base := 0x030018, dims := [], size := 4, lo := 0, width := 8, acc := .w1s }
  | .PORT_RESET_ETH => { base := 0x030018, dims := [], size := 4, lo := 8, width := 4, acc := .w1s }
  | .RAIL_STATUS_GOOD => { base := 0x030020, dims := [], size := 4, lo := 0, width := 8, acc := .ro, live := true }
  | .RAIL_STATUS_VBAT_LOW => { base := 0x030020, dims := [], size := 4, lo := 8, width := 1, acc := .ro, live := true }
  | .PWR_CTRL_FURL => { base := 0x030030, dims := [], size := 4, lo := 0, width := 1, acc := .sc }
  | .PWR_CTRL_WAKE => { base := 0x030030, dims := [], size := 4, lo := 1, width := 1, acc := .sc }
  | .PWR_CTRL_FORCE => { base := 0x030030, dims := [], size := 4, lo := 2, width := 1, acc := .rw, f := true, s := true }
  | .PWR_CTRL_A1_EN => { base := 0x030030, dims := [], size := 4, lo := 3, width := 1, acc := .rw, reset := 0x1, f := true, s := true }
  | .PWR_CTRL_A1_IDLE => { base := 0x030030, dims := [], size := 4, lo := 8, width := 8, acc := .rw, reset := 0x4, f := true, s := true }
  | .PWR_CTRL_FURL_WAIT => { base := 0x030030, dims := [], size := 4, lo := 16, width := 16, acc := .rw, reset := 0x3E8, f := true, s := true }
  | .PWR_STATUS_STATE => { base := 0x030038, dims := [], size := 4, lo := 0, width := 2, acc := .ro, live := true }
  | .PWR_STATUS_DIE_A1 => { base := 0x030038, dims := [], size := 4, lo := 2, width := 2, acc := .ro, live := true }
  | .PWR_STATUS_FURL_REFUSED => { base := 0x030038, dims := [], size := 4, lo := 4, width := 1, acc := .w1c, f := true, s := true }
  | .PWR_STATUS_REFUSE_CAUSE => { base := 0x030038, dims := [], size := 4, lo := 5, width := 2, acc := .ro, f := true, s := true }
  | .AON_STATUS_AON_PEND => { base := 0x030100, dims := [], size := 4, lo := 0, width := 1, acc := .ro, live := true }
  | .AON_STATUS_AON_DROP => { base := 0x030100, dims := [], size := 4, lo := 1, width := 1, acc := .w1c, f := true, p := true, s := true, b := true }
  | .AON_STATUS_ZEROED => { base := 0x030100, dims := [], size := 4, lo := 2, width := 1, acc := .w1c, f := true, p := true, s := true, b := true }
  | .AON_STATUS_VBAT_LOST => { base := 0x030100, dims := [], size := 4, lo := 3, width := 1, acc := .w1c, f := true, p := true, s := true, b := true }
  | .RESET_CAUSE_CAUSE => { base := 0x030108, dims := [], size := 4, lo := 0, width := 4, acc := .ro, reset := 0x1, live := true }
  | .AON_COUNT_LO_COUNT => { base := 0x030110, dims := [], size := 4, lo := 0, width := 32, acc := .ro, f := true, p := true, s := true, b := true }
  | .AON_COUNT_HI_COUNT => { base := 0x030114, dims := [], size := 4, lo := 0, width := 16, acc := .ro, f := true, p := true, s := true, b := true }
  | .AON_SCRATCH_DATA => { base := 0x030120, dims := [(4, 0x4)], size := 4, lo := 0, width := 32, acc := .rw, f := true, p := true, s := true, b := true }
  | .CFG_STATUS_DONE => { base := 0x010000, dims := [], size := 4, lo := 0, width := 1, acc := .ro, f := true, s := true }
  | .CFG_STATUS_SOURCE => { base := 0x010000, dims := [], size := 4, lo := 1, width := 2, acc := .ro, f := true, s := true }
  | .CFG_STATUS_KEY_SRC => { base := 0x010000, dims := [], size := 4, lo := 3, width := 1, acc := .ro, f := true, p := true, s := true, b := true }
  | .CFG_STATUS_STRAP_BAD => { base := 0x010000, dims := [], size := 4, lo := 4, width := 1, acc := .ro, f := true, s := true }
  | .CFG_STATUS_CFG_SRC => { base := 0x010000, dims := [], size := 4, lo := 5, width := 2, acc := .ro, f := true, s := true }
  | .CFG_STATUS_FAIL_MODE => { base := 0x010000, dims := [], size := 4, lo := 7, width := 1, acc := .ro, f := true, s := true }
  | .CFG_STATUS_CHAIN_FIRST => { base := 0x010000, dims := [], size := 4, lo := 8, width := 1, acc := .ro, f := true, s := true }
  | .CFG_STATUS_LAST_CAUSE => { base := 0x010000, dims := [], size := 4, lo := 16, width := 8, acc := .ro, f := true, s := true }
  | .CFG_STATUS_ATTEMPTS => { base := 0x010000, dims := [], size := 4, lo := 24, width := 8, acc := .ro, f := true, s := true }
  | .LOADED_VERSION_VERSION => { base := 0x010008, dims := [], size := 8, lo := 0, width := 64, acc := .ro, f := true, s := true }
  | .LOADED_BUILD_BUILD => { base := 0x010010, dims := [], size := 8, lo := 0, width := 64, acc := .ro, f := true, s := true }
  | .LOADED_GEN_GEN => { base := 0x010018, dims := [], size := 4, lo := 0, width := 32, acc := .ro, f := true, s := true }
  | .IMAGE_MARK_MARK => { base := 0x010020, dims := [], size := 32, lo := 0, width := 256, acc := .ro, f := true, s := true }
  | .ARB_VALUE_VALUE => { base := 0x010040, dims := [], size := 8, lo := 0, width := 64, acc := .ro, f := true, p := true, s := true, b := true }
  | .ARB_SET_VALUE => { base := 0x010048, dims := [], size := 8, lo := 0, width := 64, acc := .rw }
  | .ARB_CTRL_GO => { base := 0x010050, dims := [], size := 4, lo := 0, width := 1, acc := .sc }
  | .ARB_CTRL_BUSY => { base := 0x010050, dims := [], size := 4, lo := 1, width := 1, acc := .ro, live := true }
  | .ARB_CTRL_ARB_REFUSED => { base := 0x010050, dims := [], size := 4, lo := 2, width := 1, acc := .w1c, f := true }
  | .SLOT_CTRL_SLOT => { base := 0x010060, dims := [], size := 4, lo := 0, width := 1, acc := .rw, f := true }
  | .SLOT_CTRL_OP => { base := 0x010060, dims := [], size := 4, lo := 1, width := 3, acc := .rw, f := true }
  | .SLOT_CTRL_GO => { base := 0x010060, dims := [], size := 4, lo := 4, width := 1, acc := .sc }
  | .SLOT_CTRL_BUSY => { base := 0x010060, dims := [], size := 4, lo := 5, width := 1, acc := .ro, live := true }
  | .SLOT_CTRL_SLOT_BADREQ => { base := 0x010060, dims := [], size := 4, lo := 6, width := 1, acc := .w1c, f := true }
  | .SLOT_CTRL_RESULT => { base := 0x010060, dims := [], size := 4, lo := 8, width := 8, acc := .ro, f := true }
  | .SLOT_SRC_ADDR => { base := 0x010068, dims := [], size := 8, lo := 0, width := 64, acc := .rw, f := true }
  | .SLOT_LEN_LEN => { base := 0x010070, dims := [], size := 4, lo := 0, width := 32, acc := .rw, f := true }
  | .SLOT_STATE_A => { base := 0x010078, dims := [], size := 4, lo := 0, width := 2, acc := .ro, live := true }
  | .SLOT_STATE_B => { base := 0x010078, dims := [], size := 4, lo := 2, width := 2, acc := .ro, live := true }
  | .SLOT_STATE_RELOAD_OK => { base := 0x010078, dims := [], size := 4, lo := 4, width := 1, acc := .ro, live := true }
  | .GEN_A_GEN => { base := 0x010080, dims := [], size := 4, lo := 0, width := 32, acc := .ro, live := true }
  | .GEN_B_GEN => { base := 0x010084, dims := [], size := 4, lo := 0, width := 32, acc := .ro, live := true }
  | .KR_DATA_DATA => { base := 0x010100, dims := [(8, 0x4)], size := 4, lo := 0, width := 32, acc := .wo }
  | .KR_CTRL_LOAD => { base := 0x010120, dims := [], size := 4, lo := 0, width := 1, acc := .sc }
  | .KR_CTRL_CLEAR => { base := 0x010120, dims := [], size := 4, lo := 1, width := 1, acc := .sc }
  | .KR_CTRL_LOCK => { base := 0x010120, dims := [], size := 4, lo := 2, width := 1, acc := .w1s, f := true, p := true, s := true }
  | .KR_CTRL_VALID => { base := 0x010120, dims := [], size := 4, lo := 3, width := 1, acc := .ro, f := true, p := true, s := true, b := true }
  | .KR_CTRL_KR_REFUSED => { base := 0x010120, dims := [], size := 4, lo := 4, width := 1, acc := .w1c, f := true, p := true, s := true, b := true }
  | .SCRUB_CTRL_EN => { base := 0x010200, dims := [], size := 4, lo := 0, width := 1, acc := .rw, reset := 0x1, f := true, s := true }
  | .SCRUB_CTRL_RELOAD_EN => { base := 0x010200, dims := [], size := 4, lo := 1, width := 1, acc := .rw, reset := 0x1, f := true, s := true }
  | .SCRUB_CYCLES_COUNT => { base := 0x010208, dims := [], size := 4, lo := 0, width := 32, acc := .rwh, f := true, s := true }
  | .SCRUB_CORR_COUNT => { base := 0x01020C, dims := [], size := 4, lo := 0, width := 32, acc := .rwh, f := true, s := true }
  | .SCRUB_ESS_COUNT => { base := 0x010210, dims := [], size := 4, lo := 0, width := 32, acc := .rwh, f := true, s := true }
  | .SCRUB_UNREC_COUNT => { base := 0x010214, dims := [], size := 4, lo := 0, width := 32, acc := .rwh, f := true, s := true }
  | .SCRUB_LAST_FRAME => { base := 0x010218, dims := [], size := 4, lo := 0, width := 17, acc := .ro, f := true, s := true }
  | .SCRUB_LAST_UNREC => { base := 0x010218, dims := [], size := 4, lo := 17, width := 1, acc := .ro, f := true, s := true }
  | .IDENT_PART => { base := 0x000000, dims := [], size := 4, lo := 0, width := 16, acc := .ro, reset := 0x4400, f := true, p := true, s := true, b := true }
  | .IDENT_STEPPING => { base := 0x000000, dims := [], size := 4, lo := 16, width := 4, acc := .ro, f := true, p := true, s := true, b := true }
  | .IDENT_GRADE => { base := 0x000000, dims := [], size := 4, lo := 20, width := 2, acc := .ro, f := true, p := true, s := true, b := true }
  | .TILE_PRESENT_MASK => { base := 0x000004, dims := [], size := 4, lo := 0, width := 32, acc := .ro, reset := 0xFFFFFFFF, f := true, p := true, s := true, b := true }
  | .SERIAL_SERIAL => { base := 0x000008, dims := [], size := 8, lo := 0, width := 64, acc := .ro, f := true, p := true, s := true, b := true }
  | .HOST_LINK_RATE => { base := 0x000010, dims := [], size := 4, lo := 0, width := 3, acc := .ro, live := true }
  | .HOST_LINK_WIDTH => { base := 0x000010, dims := [], size := 4, lo := 3, width := 5, acc := .ro, live := true }
  | .HOST_LINK_FLIT => { base := 0x000010, dims := [], size := 4, lo := 8, width := 1, acc := .ro, live := true }
  | .HOST_LINK_CXL_CACHE => { base := 0x000010, dims := [], size := 4, lo := 9, width := 1, acc := .ro, live := true }
  | .HOST_LINK_ATS_EN => { base := 0x000010, dims := [], size := 4, lo := 10, width := 1, acc := .ro, live := true }
  | .GLOBAL_CTRL_MCTP_WR_EN => { base := 0x000018, dims := [], size := 4, lo := 0, width := 1, acc := .rw, reset := 0x1, f := true, s := true }
  | .GLOBAL_CTRL_VDM_EN => { base := 0x000018, dims := [], size := 4, lo := 1, width := 1, acc := .rw, reset := 0x1, f := true, s := true }
  | .GLOBAL_CTRL_SMBUS_EN => { base := 0x000018, dims := [], size := 4, lo := 2, width := 1, acc := .rw, reset := 0x1, f := true, s := true }
  | .GLOBAL_CTRL_I2C_ADDR => { base := 0x000018, dims := [], size := 4, lo := 16, width := 7, acc := .rw, reset := 0x4C, f := true, s := true }
  | .MCTP_EID_EID => { base := 0x00001C, dims := [], size := 4, lo := 0, width := 8, acc := .ro, f := true, s := true }
  | .GLOBAL_ERR_MMIO_SIZE => { base := 0x000020, dims := [], size := 4, lo := 0, width := 1, acc := .w1c, f := true }
  | .GLOBAL_ERR_UNMAPPED_WR => { base := 0x000020, dims := [], size := 4, lo := 1, width := 1, acc := .w1c, f := true }
  | .GLOBAL_ERR_SPLIT_GMC => { base := 0x000020, dims := [], size := 4, lo := 2, width := 1, acc := .w1c, f := true }
  | .GLOBAL_ERR_COLLIDE_ANY => { base := 0x000020, dims := [], size := 4, lo := 3, width := 1, acc := .w1c, f := true }
  | .COLLIDE_FIRST_OFFSET => { base := 0x000028, dims := [], size := 4, lo := 0, width := 24, acc := .ro, f := true }
  | .COLLIDE_COUNT_COUNT => { base := 0x00002C, dims := [], size := 4, lo := 0, width := 32, acc := .ro, f := true }
  | .COLLIDE_QUERY_OFFSET => { base := 0x000030, dims := [], size := 4, lo := 2, width := 22, acc := .rw }
  | .COLLIDE_BIT_COLLIDE => { base := 0x000034, dims := [], size := 4, lo := 0, width := 1, acc := .w1c, f := true }
  | .SCRATCH_DATA => { base := 0x000040, dims := [(2, 0x4)], size := 4, lo := 0, width := 32, acc := .rw, f := true, s := true }
  | .PART_STATUS_PART => { base := 0x100000, dims := [(8, 0x10000)], size := 4, lo := 0, width := 3, acc := .ro, step := 0x1, f := true, p := true, s := true, b := true, part := 1 }
  | .PART_STATUS_OWNER => { base := 0x100000, dims := [(8, 0x10000)], size := 4, lo := 3, width := 2, acc := .ro, f := true, s := true, star := true, part := 1 }
  | .PART_STATUS_ACTIVE => { base := 0x100000, dims := [(8, 0x10000)], size := 4, lo := 5, width := 1, acc := .ro, live := true, part := 1 }
  | .PART_STATUS_RESETTING => { base := 0x100000, dims := [(8, 0x10000)], size := 4, lo := 6, width := 1, acc := .ro, live := true, part := 1 }
  | .PART_STATUS_VF_ENABLED => { base := 0x100000, dims := [(8, 0x10000)], size := 4, lo := 7, width := 1, acc := .ro, live := true, part := 1 }
  | .PART_GRANT_GROUPS => { base := 0x100008, dims := [(8, 0x10000)], size := 4, lo := 0, width := 8, acc := .rw, f := true, s := true, star := true, part := 1 }
  | .PART_GRANT_OWNER => { base := 0x100008, dims := [(8, 0x10000)], size := 4, lo := 8, width := 2, acc := .rw, f := true, s := true, star := true, part := 1 }
  | .F_QUOTA_UNITS => { base := 0x100010, dims := [(8, 0x10000)], size := 4, lo := 0, width := 32, acc := .rw, f := true, s := true, star := true, part := 1 }
  | .S_QUOTA_UNITS => { base := 0x100014, dims := [(8, 0x10000)], size := 4, lo := 0, width := 32, acc := .rw, f := true, s := true, star := true, part := 1 }
  | .GRANT_STATUS_GRANT_REFUSED => { base := 0x100018, dims := [(8, 0x10000)], size := 4, lo := 0, width := 1, acc := .w1c, f := true, part := 1 }
  | .GRANT_STATUS_CAUSE => { base := 0x100018, dims := [(8, 0x10000)], size := 4, lo := 1, width := 3, acc := .ro, f := true, part := 1 }
  | .PART_COLLIDE_QUERY_OFFSET => { base := 0x100020, dims := [(8, 0x10000)], size := 4, lo := 2, width := 14, acc := .rw, part := 1 }
  | .PART_COLLIDE_BIT_COLLIDE => { base := 0x100024, dims := [(8, 0x10000)], size := 4, lo := 0, width := 1, acc := .w1c, f := true, part := 1 }
  | .SQ_BASE_ADDR => { base := 0x101000, dims := [(8, 0x10000), (32, 0x80)], size := 8, lo := 12, width := 52, acc := .rw, s := true, part := 32 }
  | .SQ_CFG_LOG2_SIZE => { base := 0x101008, dims := [(8, 0x10000), (32, 0x80)], size := 4, lo := 0, width := 5, acc := .rw, s := true, part := 32 }
  | .SQ_CFG_CQ_ID => { base := 0x101008, dims := [(8, 0x10000), (32, 0x80)], size := 4, lo := 8, width := 5, acc := .rw, s := true, part := 32 }
  | .SQ_CFG_TALLY_BYTES => { base := 0x101008, dims := [(8, 0x10000), (32, 0x80)], size := 4, lo := 16, width := 1, acc := .rw, s := true, part := 32 }
  | .SQ_CTRL_ENABLE => { base := 0x101010, dims := [(8, 0x10000), (32, 0x80)], size := 4, lo := 0, width := 1, acc := .rw, s := true, part := 32 }
  | .SQ_CTRL_GEN_INIT => { base := 0x101010, dims := [(8, 0x10000), (32, 0x80)], size := 4, lo := 16, width := 16, acc := .rw, s := true, part := 32 }
  | .SQ_STATUS_STATE => { base := 0x101018, dims := [(8, 0x10000), (32, 0x80)], size := 4, lo := 0, width := 2, acc := .ro, s := true, part := 32 }
  | .SQ_STATUS_CFG_REFUSED => { base := 0x101018, dims := [(8, 0x10000), (32, 0x80)], size := 4, lo := 2, width := 1, acc := .w1c, s := true, part := 32 }
  | .SQ_STATUS_REFUSE_CAUSE => { base := 0x101018, dims := [(8, 0x10000), (32, 0x80)], size := 4, lo := 3, width := 3, acc := .ro, s := true, part := 32 }
  | .SQ_STATUS_HALT_CAUSE => { base := 0x101018, dims := [(8, 0x10000), (32, 0x80)], size := 4, lo := 8, width := 8, acc := .ro, s := true, part := 32 }
  | .SQ_HEAD_INDEX => { base := 0x101020, dims := [(8, 0x10000), (32, 0x80)], size := 8, lo := 0, width := 32, acc := .ro, s := true, part := 32 }
  | .SQ_HEAD_GEN => { base := 0x101020, dims := [(8, 0x10000), (32, 0x80)], size := 8, lo := 32, width := 16, acc := .ro, s := true, part := 32 }
  | .SQ_TAIL_WORD => { base := 0x101028, dims := [(8, 0x10000), (32, 0x80)], size := 8, lo := 0, width := 48, acc := .ro, s := true, part := 32 }
  | .SQ_INFLIGHT_COUNT => { base := 0x101030, dims := [(8, 0x10000), (32, 0x80)], size := 4, lo := 0, width := 32, acc := .ro, s := true, part := 32 }
  | .SQ_COMPLETED_COUNT => { base := 0x101034, dims := [(8, 0x10000), (32, 0x80)], size := 4, lo := 0, width := 32, acc := .rwh, s := true, part := 32 }
  | .CQ_BASE_ADDR => { base := 0x102000, dims := [(8, 0x10000), (32, 0x80)], size := 8, lo := 12, width := 52, acc := .rw, s := true, part := 32 }
  | .CQ_CFG_LOG2_SIZE => { base := 0x102008, dims := [(8, 0x10000), (32, 0x80)], size := 4, lo := 0, width := 5, acc := .rw, s := true, part := 32 }
  | .CQ_CFG_ENTRY => { base := 0x102008, dims := [(8, 0x10000), (32, 0x80)], size := 4, lo := 8, width := 1, acc := .rw, s := true, part := 32 }
  | .CQ_CTRL_ENABLE => { base := 0x102010, dims := [(8, 0x10000), (32, 0x80)], size := 4, lo := 0, width := 1, acc := .rw, s := true, part := 32 }
  | .CQ_CTRL_GEN_INIT => { base := 0x102010, dims := [(8, 0x10000), (32, 0x80)], size := 4, lo := 16, width := 16, acc := .rw, s := true, part := 32 }
  | .CQ_STATUS_STATE => { base := 0x102018, dims := [(8, 0x10000), (32, 0x80)], size := 4, lo := 0, width := 2, acc := .ro, s := true, part := 32 }
  | .CQ_STATUS_CFG_REFUSED => { base := 0x102018, dims := [(8, 0x10000), (32, 0x80)], size := 4, lo := 2, width := 1, acc := .w1c, s := true, part := 32 }
  | .CQ_STATUS_REFUSE_CAUSE => { base := 0x102018, dims := [(8, 0x10000), (32, 0x80)], size := 4, lo := 3, width := 3, acc := .ro, s := true, part := 32 }
  | .CQ_STATUS_VECTOR_BAD => { base := 0x102018, dims := [(8, 0x10000), (32, 0x80)], size := 4, lo := 6, width := 1, acc := .w1c, s := true, part := 32 }
  | .CQ_STATUS_HALT_CAUSE => { base := 0x102018, dims := [(8, 0x10000), (32, 0x80)], size := 4, lo := 8, width := 8, acc := .ro, s := true, part := 32 }
  | .CQ_TAIL_INDEX => { base := 0x102020, dims := [(8, 0x10000), (32, 0x80)], size := 8, lo := 0, width := 32, acc := .ro, s := true, part := 32 }
  | .CQ_TAIL_GEN => { base := 0x102020, dims := [(8, 0x10000), (32, 0x80)], size := 8, lo := 32, width := 16, acc := .ro, s := true, part := 32 }
  | .CQ_HEAD_WORD => { base := 0x102028, dims := [(8, 0x10000), (32, 0x80)], size := 8, lo := 0, width := 48, acc := .ro, s := true, part := 32 }
  | .CQ_RESERVED_COUNT => { base := 0x102030, dims := [(8, 0x10000), (32, 0x80)], size := 4, lo := 0, width := 32, acc := .ro, s := true, part := 32 }
  | .CQ_LOST_COUNT => { base := 0x102034, dims := [(8, 0x10000), (32, 0x80)], size := 4, lo := 0, width := 32, acc := .rwh, s := true, part := 32 }
  | .DB_BASE_ADDR => { base := 0x103000, dims := [(8, 0x10000)], size := 8, lo := 12, width := 52, acc := .rw, s := true, part := 1 }
  | .DB_CTRL_EN => { base := 0x103008, dims := [(8, 0x10000)], size := 4, lo := 0, width := 1, acc := .rw, s := true, part := 1 }
  | .DB_CTRL_FORCE_POLL => { base := 0x103008, dims := [(8, 0x10000)], size := 4, lo := 1, width := 1, acc := .rw, s := true, part := 1 }
  | .DB_CTRL_SNOOPING => { base := 0x103008, dims := [(8, 0x10000)], size := 4, lo := 2, width := 1, acc := .ro, s := true, part := 1 }
  | .DB_CTRL_DB_REFUSED => { base := 0x103008, dims := [(8, 0x10000)], size := 4, lo := 3, width := 1, acc := .w1c, s := true, part := 1 }
  | .DB_CTRL_POLL_NS => { base := 0x103008, dims := [(8, 0x10000)], size := 4, lo := 8, width := 20, acc := .rw, reset := 0x3E8, s := true, part := 1 }
  | .DB_READ_FAIL_COUNT => { base := 0x103010, dims := [(8, 0x10000)], size := 4, lo := 0, width := 32, acc := .rwh, s := true, part := 1 }
  | .IRQ_CQ_VECTOR => { base := 0x108000, dims := [(8, 0x10000), (32, 0x8)], size := 8, lo := 0, width := 11, acc := .rw, s := true, part := 32 }
  | .IRQ_CQ_IRQ_EN => { base := 0x108000, dims := [(8, 0x10000), (32, 0x8)], size := 8, lo := 11, width := 1, acc := .rw, s := true, part := 32 }
  | .IRQ_CQ_ERR_NOW => { base := 0x108000, dims := [(8, 0x10000), (32, 0x8)], size := 8, lo := 12, width := 1, acc := .rw, reset := 0x1, s := true, part := 32 }
  | .IRQ_CQ_COUNT => { base := 0x108000, dims := [(8, 0x10000), (32, 0x8)], size := 8, lo := 16, width := 8, acc := .rw, reset := 0x1, s := true, part := 32 }
  | .IRQ_CQ_TIME => { base := 0x108000, dims := [(8, 0x10000), (32, 0x8)], size := 8, lo := 32, width := 16, acc := .rw, s := true, part := 32 }
  | .RE_CFG_FETCH_MAX => { base := 0x200000, dims := [], size := 4, lo := 0, width := 4, acc := .rw, reset := 0x8, f := true, s := true }
  | .RE_VIOL_COUNT_COUNT => { base := 0x200008, dims := [], size := 4, lo := 0, width := 32, acc := .rwh, f := true, s := true }
  | .HOP_TICK_TICK => { base := 0x300000, dims := [], size := 4, lo := 0, width := 17, acc := .rw, reset := 0x3E8, f := true, s := true }
  | .HOP_TICK_TICK_REFUSED => { base := 0x300000, dims := [], size := 4, lo := 17, width := 1, acc := .w1c, f := true }
  | .HOP_USE_JOBS => { base := 0x300008, dims := [], size := 4, lo := 0, width := 15, acc := .ro, live := true }
  | .HOP_USE_TAILRACE => { base := 0x300008, dims := [], size := 4, lo := 16, width := 14, acc := .ro, live := true }
  | .PART_HOP_JOB_QUOTA => { base := 0x300100, dims := [(8, 0x10)], size := 8, lo := 0, width := 16, acc := .rw, reset := 0x800, f := true, s := true, star := true, part := 1 }
  | .PART_HOP_TR_QUOTA => { base := 0x300100, dims := [(8, 0x10)], size := 8, lo := 16, width := 14, acc := .rw, reset := 0x400, f := true, s := true, star := true, part := 1 }
  | .PART_HOP_PAWL_BASE => { base := 0x300100, dims := [(8, 0x10)], size := 8, lo := 32, width := 12, acc := .rw, step := 0x200, f := true, s := true, star := true, part := 1 }
  | .PART_HOP_PAWL_COUNT => { base := 0x300100, dims := [(8, 0x10)], size := 8, lo := 48, width := 13, acc := .rw, reset := 0x200, f := true, s := true, star := true, part := 1 }
  | .PART_HOP_STAT_HOP_REFUSED => { base := 0x300108, dims := [(8, 0x10)], size := 4, lo := 0, width := 1, acc := .w1c, f := true, part := 1 }
  | .PART_HOP_STAT_CAUSE => { base := 0x300108, dims := [(8, 0x10)], size := 4, lo := 1, width := 2, acc := .ro, f := true, part := 1 }
  | .HOP_PCTRL_ADMIT_REFUSE => { base := 0x104000, dims := [(8, 0x10000)], size := 4, lo := 0, width := 1, acc := .rw, s := true, part := 1 }
  | .HOP_PCTRL_AGE => { base := 0x104000, dims := [(8, 0x10000)], size := 4, lo := 8, width := 8, acc := .rw, s := true, part := 1 }
  | .HOP_PUSE_JOBS => { base := 0x104008, dims := [(8, 0x10000)], size := 4, lo := 0, width := 16, acc := .ro, live := true, part := 1 }
  | .HOP_PUSE_TAILRACE => { base := 0x104008, dims := [(8, 0x10000)], size := 4, lo := 16, width := 14, acc := .ro, live := true, part := 1 }
  | .HOP_READY_COUNT => { base := 0x104010, dims := [(8, 0x10000)], size := 8, lo := 0, width := 64, acc := .ro, live := true, part := 1 }
  | .HOP_WAITS_DELAYED => { base := 0x104018, dims := [(8, 0x10000)], size := 4, lo := 0, width := 16, acc := .ro, live := true, part := 1 }
  | .HOP_WAITS_PAWL_WAITERS => { base := 0x104018, dims := [(8, 0x10000)], size := 4, lo := 16, width := 16, acc := .ro, live := true, part := 1 }
  | .CTX_KILL_CTX => { base := 0x104020, dims := [(8, 0x10000)], size := 8, lo := 0, width := 64, acc := .w1s, live := true, part := 1 }
  | .CTX_FAULTED_CTX => { base := 0x104028, dims := [(8, 0x10000)], size := 8, lo := 0, width := 64, acc := .w1c, s := true, part := 1 }
  | .FLOW_QUERY_FLOW => { base := 0x104030, dims := [(8, 0x10000)], size := 4, lo := 0, width := 12, acc := .rw, s := true, part := 1 }
  | .FLOW_STATE_HELD => { base := 0x104034, dims := [(8, 0x10000)], size := 4, lo := 0, width := 14, acc := .ro, live := true, part := 1 }
  | .FLOW_STATE_HEAD_RUNNING => { base := 0x104034, dims := [(8, 0x10000)], size := 4, lo := 14, width := 1, acc := .ro, live := true, part := 1 }
  | .PAWL_QUERY_INDEX => { base := 0x104040, dims := [(8, 0x10000)], size := 4, lo := 0, width := 12, acc := .rw, s := true, part := 1 }
  | .PAWL_INFO_HELD => { base := 0x104048, dims := [(8, 0x10000)], size := 8, lo := 0, width := 1, acc := .ro, live := true, part := 1 }
  | .PAWL_INFO_BROKEN => { base := 0x104048, dims := [(8, 0x10000)], size := 8, lo := 1, width := 1, acc := .ro, live := true, part := 1 }
  | .PAWL_INFO_CTX => { base := 0x104048, dims := [(8, 0x10000)], size := 8, lo := 2, width := 6, acc := .ro, live := true, part := 1 }
  | .PAWL_INFO_WAITERS => { base := 0x104048, dims := [(8, 0x10000)], size := 8, lo := 8, width := 8, acc := .ro, live := true, part := 1 }
  | .PAWL_INFO_LEASE_LEFT => { base := 0x104048, dims := [(8, 0x10000)], size := 8, lo := 16, width := 32, acc := .ro, live := true, part := 1 }
  | .PAWL_INFO_BREAK_CAUSE => { base := 0x104048, dims := [(8, 0x10000)], size := 8, lo := 48, width := 8, acc := .ro, live := true, part := 1 }
  | .PAWL_BREAK_INDEX => { base := 0x104050, dims := [(8, 0x10000)], size := 4, lo := 0, width := 12, acc := .rw, s := true, part := 1 }
  | .PAWL_BREAK_GO => { base := 0x104050, dims := [(8, 0x10000)], size := 4, lo := 16, width := 1, acc := .sc, part := 1 }
  | .PAWL_BROKE_COUNT_COUNT => { base := 0x104058, dims := [(8, 0x10000)], size := 4, lo := 0, width := 32, acc := .rwh, s := true, part := 1 }
  | .WAIT_TIMEOUTS_COUNT => { base := 0x10405C, dims := [(8, 0x10000)], size := 4, lo := 0, width := 32, acc := .rwh, s := true, part := 1 }
  | .TF_STATUS_TRAINED => { base := 0x400000, dims := [], size := 4, lo := 0, width := 2, acc := .ro, live := true }
  | .TF_FREE_G0 => { base := 0x400008, dims := [], size := 4, lo := 0, width := 16, acc := .ro, live := true }
  | .TF_FREE_G1 => { base := 0x400008, dims := [], size := 4, lo := 16, width := 16, acc := .ro, live := true }
  | .PRELOADED_UNITS => { base := 0x400010, dims := [], size := 4, lo := 0, width := 32, acc := .ro, live := true }
  | .PRELOAD_CTRL_FREE_ALL => { base := 0x400018, dims := [], size := 4, lo := 0, width := 1, acc := .sc }
  | .WC_CTRL_WC_HOLD => { base := 0x400020, dims := [], size := 4, lo := 0, width := 16, acc := .rw, reset := 0x100, f := true, s := true }
  | .WC_RMW_COUNT => { base := 0x400030, dims := [(2, 0x4)], size := 4, lo := 0, width := 32, acc := .rwh, f := true, die := true }
  | .TC_MISS_COUNT => { base := 0x400038, dims := [(2, 0x4)], size := 4, lo := 0, width := 32, acc := .rwh, f := true, die := true }
  | .TS_CHAN_PRESENT => { base := 0x480000, dims := [(8, 0x8)], size := 4, lo := 0, width := 1, acc := .ro, live := true }
  | .TS_CHAN_IN_SERVICE => { base := 0x480000, dims := [(8, 0x8)], size := 4, lo := 1, width := 1, acc := .ro, live := true }
  | .TS_CHAN_CAP_GIB => { base := 0x480000, dims := [(8, 0x8)], size := 4, lo := 2, width := 8, acc := .ro, live := true }
  | .TS_FREE_UNITS => { base := 0x480040, dims := [], size := 4, lo := 0, width := 20, acc := .ro, live := true }
  | .PL_F_USED_UNITS => { base := 0x100100, dims := [(8, 0x10000)], size := 4, lo := 0, width := 32, acc := .ro, live := true, part := 1 }
  | .PL_S_USED_UNITS => { base := 0x100104, dims := [(8, 0x10000)], size := 4, lo := 0, width := 32, acc := .ro, live := true, part := 1 }
  | .PL_SPILLED_UNITS => { base := 0x100108, dims := [(8, 0x10000)], size := 4, lo := 0, width := 32, acc := .ro, live := true, part := 1 }
  | .PL_RUNS_COUNT => { base := 0x10010C, dims := [(8, 0x10000)], size := 4, lo := 0, width := 11, acc := .ro, live := true, part := 1 }
  | .DS_GRANT_G0 => { base := 0x100110, dims := [(8, 0x10000)], size := 4, lo := 0, width := 8, acc := .rw, f := true, s := true, star := true, part := 1 }
  | .DS_GRANT_G1 => { base := 0x100110, dims := [(8, 0x10000)], size := 4, lo := 8, width := 8, acc := .rw, f := true, s := true, star := true, part := 1 }
  | .DS_GRANT_DS_REFUSED => { base := 0x100110, dims := [(8, 0x10000)], size := 4, lo := 16, width := 1, acc := .w1c, f := true, part := 1 }
  | .DS_GRANT_CAUSE => { base := 0x100110, dims := [(8, 0x10000)], size := 4, lo := 17, width := 2, acc := .ro, f := true, part := 1 }
  | .PT_XCHG_RUN_A => { base := 0x100118, dims := [(8, 0x10000)], size := 4, lo := 0, width := 10, acc := .rw, s := true, part := 1 }
  | .PT_XCHG_RUN_B => { base := 0x100118, dims := [(8, 0x10000)], size := 4, lo := 16, width := 10, acc := .rw, s := true, part := 1 }
  | .PT_XCHG_GO => { base := 0x100118, dims := [(8, 0x10000)], size := 4, lo := 31, width := 1, acc := .sc, part := 1 }
  | .PT_XCHG_STATUS_XCHG_REFUSED => { base := 0x10011C, dims := [(8, 0x10000)], size := 4, lo := 0, width := 1, acc := .w1c, f := true, part := 1 }
  | .PT_XCHG_STATUS_CAUSE => { base := 0x10011C, dims := [(8, 0x10000)], size := 4, lo := 1, width := 2, acc := .ro, f := true, part := 1 }
  | .RUN_QUERY_RUN => { base := 0x100120, dims := [(8, 0x10000)], size := 4, lo := 0, width := 10, acc := .rw, s := true, part := 1 }
  | .RUN_INFO_A_PUNIT => { base := 0x100128, dims := [(8, 0x10000)], size := 8, lo := 0, width := 24, acc := .ro, live := true, part := 1 }
  | .RUN_INFO_A_VALID => { base := 0x100128, dims := [(8, 0x10000)], size := 8, lo := 24, width := 1, acc := .ro, live := true, part := 1 }
  | .RUN_INFO_A_PREF_F => { base := 0x100128, dims := [(8, 0x10000)], size := 8, lo := 25, width := 1, acc := .ro, live := true, part := 1 }
  | .RUN_INFO_A_COUNT => { base := 0x100128, dims := [(8, 0x10000)], size := 8, lo := 32, width := 20, acc := .ro, live := true, part := 1 }
  | .RUN_INFO_B_TIER => { base := 0x100130, dims := [(8, 0x10000)], size := 8, lo := 0, width := 1, acc := .ro, live := true, part := 1 }
  | .RUN_INFO_B_FIRST => { base := 0x100130, dims := [(8, 0x10000)], size := 8, lo := 1, width := 3, acc := .ro, live := true, part := 1 }
  | .RUN_INFO_B_WAYS_LOG2 => { base := 0x100130, dims := [(8, 0x10000)], size := 8, lo := 4, width := 2, acc := .ro, live := true, part := 1 }
  | .RUN_INFO_B_PHYS_IDX => { base := 0x100130, dims := [(8, 0x10000)], size := 8, lo := 32, width := 16, acc := .ro, live := true, part := 1 }
  | .GOV_CTRL_MODE => { base := 0x020100, dims := [], size := 4, lo := 0, width := 1, acc := .rw, f := true, s := true }
  | .GOV_CTRL_MIN_CODE => { base := 0x020100, dims := [], size := 4, lo := 8, width := 6, acc := .rw, reset := 0x10, f := true, s := true }
  | .GOV_CAP_POWER_CAP => { base := 0x020104, dims := [], size := 4, lo := 0, width := 32, acc := .rw, reset := 0x493E0, f := true, s := true }
  | .GOV_RATES_HOT_RATE => { base := 0x020110, dims := [], size := 4, lo := 0, width := 9, acc := .rw, reset := 0x80, f := true, s := true }
  | .GOV_RATES_CRIT_RATE => { base := 0x020110, dims := [], size := 4, lo := 16, width := 9, acc := .rw, reset := 0x10, f := true, s := true }
  | .GOV_STATE_STATES => { base := 0x020118, dims := [], size := 4, lo := 0, width := 12, acc := .ro, live := true }
  | .GOV_STATE_HOLD => { base := 0x020118, dims := [], size := 4, lo := 12, width := 1, acc := .ro, live := true }
  | .GOV_STATE_TRIPPED => { base := 0x020118, dims := [], size := 4, lo := 13, width := 2, acc := .ro, live := true }
  | .GOV_STATE_CAP_ACTIVE => { base := 0x020118, dims := [], size := 4, lo := 15, width := 1, acc := .ro, live := true }
  | .GOV_STATE_THROTTLE => { base := 0x020118, dims := [], size := 4, lo := 16, width := 8, acc := .ro, live := true }
  | .GOV_STATE_SENSOR_FAIL => { base := 0x020118, dims := [], size := 4, lo := 24, width := 5, acc := .ro, live := true }
  | .GOV_TEMP2_HUB => { base := 0x020128, dims := [], size := 4, lo := 0, width := 16, acc := .ro, reset := 0x8000, live := true }
  | .GOV_POWER_MW => { base := 0x020130, dims := [], size := 4, lo := 0, width := 32, acc := .ro, live := true }
  | .GOV_RISES_COUNT => { base := 0x02013C, dims := [], size := 4, lo := 0, width := 32, acc := .rwh, f := true, s := true }
  | .REMAP_STATUS_ENTRIES => { base := 0x400080, dims := [], size := 4, lo := 0, width := 17, acc := .ro, live := true }
  | .REMAP_STATUS_TABLE_FULL => { base := 0x400080, dims := [], size := 4, lo := 17, width := 1, acc := .ro, live := true }
  | .REMAP_CTRL_CH => { base := 0x400084, dims := [], size := 4, lo := 0, width := 3, acc := .rw }
  | .REMAP_CTRL_RETIRE => { base := 0x400084, dims := [], size := 4, lo := 3, width := 1, acc := .sc }
  | .TF_CE_COUNT => { base := 0x400100, dims := [(2, 0x40)], size := 4, lo := 0, width := 32, acc := .rwh, f := true, s := true }
  | .TF_UE_COUNT => { base := 0x400104, dims := [(2, 0x40)], size := 4, lo := 0, width := 32, acc := .rwh, f := true, s := true }
  | .TF_REMAP_LIVE => { base := 0x400108, dims := [(2, 0x40)], size := 4, lo := 0, width := 16, acc := .ro, f := true, s := true }
  | .TF_REMAP_SPARE_OUT => { base := 0x400108, dims := [(2, 0x40)], size := 4, lo := 16, width := 16, acc := .ro, f := true, s := true }
  | .TF_SCRUB_PERIOD_H => { base := 0x400118, dims := [(2, 0x40)], size := 4, lo := 0, width := 8, acc := .rw, reset := 0xC, f := true, s := true }
  | .TF_SCRUB_EN => { base := 0x400118, dims := [(2, 0x40)], size := 4, lo := 8, width := 1, acc := .rw, reset := 0x1, f := true, s := true }
  | .TF_SCRUB_ROW_CE_LIMIT => { base := 0x400118, dims := [(2, 0x40)], size := 4, lo := 16, width := 8, acc := .rw, reset := 0x4, f := true, s := true }
  | .TS_CE_COUNT => { base := 0x480100, dims := [(8, 0x40)], size := 4, lo := 0, width := 32, acc := .rwh, f := true, s := true }
  | .TS_UE_COUNT => { base := 0x480104, dims := [(8, 0x40)], size := 4, lo := 0, width := 32, acc := .rwh, f := true, s := true }
  | .TS_MARK_DEVICE => { base := 0x480108, dims := [(8, 0x40)], size := 4, lo := 0, width := 5, acc := .ro, reset := 0x1F, f := true, s := true }
  | .TS_MARK_OUT_REASON => { base := 0x480108, dims := [(8, 0x40)], size := 4, lo := 8, width := 3, acc := .ro, f := true, s := true }
  | .TS_CTRL_TAKE_OUT => { base := 0x48010C, dims := [(8, 0x40)], size := 4, lo := 0, width := 1, acc := .sc }
  | .TS_CTRL_DEV_CE_LIMIT => { base := 0x48010C, dims := [(8, 0x40)], size := 4, lo := 8, width := 8, acc := .rw, reset := 0x10, f := true, s := true }
  | .TS_CTRL_ROW_CE_LIMIT => { base := 0x48010C, dims := [(8, 0x40)], size := 4, lo := 16, width := 8, acc := .rw, reset := 0x4, f := true, s := true }
  | .SL_CFG_RATE => { base := 0x100200, dims := [(8, 0x10000), (10, 0x10)], size := 4, lo := 0, width := 9, acc := .rw, reset := 0x100, f := true, s := true, star := true, part := 10 }
  | .SL_CFG_EN => { base := 0x100200, dims := [(8, 0x10000), (10, 0x10)], size := 4, lo := 9, width := 1, acc := .rw, f := true, s := true, star := true, part := 10 }
  | .SL_CFG_BURST => { base := 0x100200, dims := [(8, 0x10000), (10, 0x10)], size := 4, lo := 16, width := 8, acc := .rw, reset := 0x4, f := true, s := true, star := true, part := 10 }
  | .SL_EFF_RATE => { base := 0x100204, dims := [(8, 0x10000), (10, 0x10)], size := 4, lo := 0, width := 9, acc := .ro, reset := 0x100, live := true, part := 10 }
  | .SL_EFF_NARROWED => { base := 0x100204, dims := [(8, 0x10000), (10, 0x10)], size := 4, lo := 9, width := 1, acc := .ro, live := true, part := 10 }
  | .SL_LEVEL_BYTES => { base := 0x100208, dims := [(8, 0x10000), (10, 0x10)], size := 4, lo := 0, width := 32, acc := .ro, live := true, part := 10 }
  | .SL_WAITS_COUNT => { base := 0x10020C, dims := [(8, 0x10000), (10, 0x10)], size := 4, lo := 0, width := 32, acc := .rwh, s := true, part := 10 }
  | .FAB_TOPO_PKG => { base := 0x500000, dims := [], size := 4, lo := 0, width := 10, acc := .rw, f := true, s := true }
  | .FAB_EPOCH_EPOCH => { base := 0x500008, dims := [], size := 8, lo := 0, width := 44, acc := .ro, live := true }
  | .FAB_CTRL_REQ_TIMEOUT => { base := 0x500010, dims := [], size := 8, lo := 0, width := 16, acc := .rw, reset := 0x2710, f := true, s := true }
  | .FAB_CTRL_FENCE_LIMIT => { base := 0x500010, dims := [], size := 8, lo := 16, width := 4, acc := .rw, reset := 0x4, f := true, s := true }
  | .FAB_CTRL_PROB_EPOCHS => { base := 0x500010, dims := [], size := 8, lo := 20, width := 8, acc := .rw, reset := 0x40, f := true, s := true }
  | .FAB_CTRL_COLL_TIMEOUT => { base := 0x500010, dims := [], size := 8, lo := 32, width := 16, acc := .rw, reset := 0x2710, f := true, s := true }
  | .FAB_CFG_STATUS_TOPO_REFUSED => { base := 0x500018, dims := [], size := 4, lo := 0, width := 1, acc := .w1c, f := true }
  | .FAB_HOLD_HOLD => { base := 0x500020, dims := [], size := 4, lo := 0, width := 1, acc := .ro, live := true }
  | .FAB_HOLD_ORIGINS => { base := 0x500020, dims := [], size := 4, lo := 1, width := 10, acc := .ro, live := true }
  | .FAB_HOLD_AT_COUNT => { base := 0x500028, dims := [], size := 8, lo := 0, width := 64, acc := .ro, live := true }
  | .NOTICE_LAST_ORIGIN => { base := 0x500030, dims := [], size := 8, lo := 0, width := 10, acc := .ro, s := true }
  | .NOTICE_LAST_CAUSE => { base := 0x500030, dims := [], size := 8, lo := 16, width := 8, acc := .ro, s := true }
  | .NOTICE_LAST_COUNT => { base := 0x500030, dims := [], size := 8, lo := 32, width := 32, acc := .ro, s := true }
  | .LATE_RSP_COUNT => { base := 0x500038, dims := [], size := 4, lo := 0, width := 32, acc := .rwh, f := true, s := true }
  | .PORT_CFG_MODE => { base := 0x500100, dims := [(8, 0x40)], size := 4, lo := 0, width := 2, acc := .rw, f := true, s := true }
  | .PORT_CFG_ENABLE => { base := 0x500100, dims := [(8, 0x40)], size := 4, lo := 2, width := 1, acc := .rw, f := true, s := true }
  | .PORT_CFG_FENCE_CLEAR => { base := 0x500100, dims := [(8, 0x40)], size := 4, lo := 3, width := 1, acc := .sc }
  | .PORT_STATUS_STATE => { base := 0x500108, dims := [(8, 0x40)], size := 8, lo := 0, width := 4, acc := .ro, live := true }
  | .PORT_STATUS_PROBATION => { base := 0x500108, dims := [(8, 0x40)], size := 8, lo := 4, width := 1, acc := .ro, live := true }
  | .PORT_STATUS_FENCE_PENDING => { base := 0x500108, dims := [(8, 0x40)], size := 8, lo := 5, width := 1, acc := .ro, live := true }
  | .PORT_STATUS_WIRING_BAD => { base := 0x500108, dims := [(8, 0x40)], size := 8, lo := 6, width := 1, acc := .ro, live := true }
  | .PORT_STATUS_PARTNER_PKG => { base := 0x500108, dims := [(8, 0x40)], size := 8, lo := 16, width := 10, acc := .ro, live := true }
  | .PORT_STATUS_PARTNER_PORT => { base := 0x500108, dims := [(8, 0x40)], size := 8, lo := 26, width := 3, acc := .ro, live := true }
  | .PORT_STATUS_JOIN_EPOCH => { base := 0x500108, dims := [(8, 0x40)], size := 8, lo := 32, width := 32, acc := .ro, live := true }
  | .PORT_CORR_COUNT => { base := 0x500110, dims := [(8, 0x40)], size := 4, lo := 0, width := 32, acc := .rwh, f := true, s := true }
  | .PORT_NAKS_COUNT => { base := 0x500114, dims := [(8, 0x40)], size := 4, lo := 0, width := 32, acc := .rwh, f := true, s := true }
  | .PORT_REPLAYS_COUNT => { base := 0x500118, dims := [(8, 0x40)], size := 4, lo := 0, width := 32, acc := .rwh, f := true, s := true }
  | .PORT_RETRAINS_COUNT => { base := 0x50011C, dims := [(8, 0x40)], size := 4, lo := 0, width := 32, acc := .rwh, f := true, s := true }
  | .PORT_OFFENCES_COUNT => { base := 0x500120, dims := [(8, 0x40)], size := 4, lo := 0, width := 32, acc := .rwh, f := true, s := true }
  | .GRP_CFG_PART => { base := 0x502000, dims := [(64, 0x100)], size := 8, lo := 0, width := 3, acc := .rw, f := true, s := true }
  | .GRP_CFG_FANOUT => { base := 0x502000, dims := [(64, 0x100)], size := 8, lo := 4, width := 4, acc := .rw, reset := 0x4, f := true, s := true }
  | .GRP_CFG_EN => { base := 0x502000, dims := [(64, 0x100)], size := 8, lo := 8, width := 1, acc := .rw, f := true, s := true }
  | .GRP_CFG_RANK => { base := 0x502000, dims := [(64, 0x100)], size := 8, lo := 16, width := 10, acc := .ro, live := true }
  | .GRP_CFG_MEMBERS => { base := 0x502000, dims := [(64, 0x100)], size := 8, lo := 32, width := 11, acc := .ro, live := true }
  | .GRP_CFG_NEXT_SEQ_LO => { base := 0x502000, dims := [(64, 0x100)], size := 8, lo := 48, width := 16, acc := .ro, live := true }
  | .GRP_DIGEST_CRC => { base := 0x502008, dims := [(64, 0x100)], size := 4, lo := 0, width := 32, acc := .ro, live := true }
  | .GRP_STATUS_GRP_REFUSED => { base := 0x50200C, dims := [(64, 0x100)], size := 4, lo := 0, width := 1, acc := .w1c, f := true }
  | .GRP_STATUS_CAUSE => { base := 0x50200C, dims := [(64, 0x100)], size := 4, lo := 1, width := 3, acc := .ro, f := true }
  | .GRP_NEXT_SEQ_SEQ => { base := 0x502010, dims := [(64, 0x100)], size := 4, lo := 0, width := 32, acc := .ro, live := true }
  | .GMC_COUNT_COUNT => { base := 0x600000, dims := [], size := 8, lo := 0, width := 64, acc := .ro, live := true }
  | .GMC_SNAP_COUNT => { base := 0x600008, dims := [], size := 8, lo := 0, width := 64, acc := .ro, live := true }
  | .GMC_STATUS_STATE => { base := 0x600010, dims := [], size := 4, lo := 0, width := 2, acc := .ro, live := true }
  | .GMC_STATUS_ROOT => { base := 0x600010, dims := [], size := 4, lo := 2, width := 1, acc := .ro, live := true }
  | .GMC_STATUS_PARENT => { base := 0x600010, dims := [], size := 4, lo := 3, width := 3, acc := .ro, live := true }
  | .GMC_STATUS_DEPTH => { base := 0x600010, dims := [], size := 4, lo := 6, width := 6, acc := .ro, live := true }
  | .GMC_CFG_REF_PKG => { base := 0x600018, dims := [], size := 4, lo := 0, width := 10, acc := .rw, f := true, s := true }
  | .GMC_CFG_REF_REFUSED => { base := 0x600018, dims := [], size := 4, lo := 16, width := 1, acc := .w1c, f := true }
  | .GMC_THETA_THETA => { base := 0x600020, dims := [], size := 4, lo := 0, width := 32, acc := .ro, live := true }
  | .GMC_DELAY_DELAY => { base := 0x600024, dims := [], size := 4, lo := 0, width := 32, acc := .ro, live := true }
  | .COG_CTRL_GO => { base := 0x600120, dims := [], size := 4, lo := 0, width := 1, acc := .sc }
  | .COG_CTRL_BUSY => { base := 0x600120, dims := [], size := 4, lo := 1, width := 1, acc := .ro, live := true }
  | .COG_OUT_W => { base := 0x600128, dims := [], size := 16, lo := 0, width := 128, acc := .ro, live := true }
  | .MS_CTRL_PIN => { base := 0x600200, dims := [], size := 4, lo := 0, width := 1, acc := .sc }
  | .MS_CTRL_ERASE => { base := 0x600200, dims := [], size := 4, lo := 1, width := 1, acc := .sc }
  | .MS_CTRL_SRC => { base := 0x600200, dims := [], size := 4, lo := 2, width := 1, acc := .rw, f := true, s := true }
  | .MS_CTRL_PART => { base := 0x600200, dims := [], size := 4, lo := 3, width := 3, acc := .rw, f := true, s := true }
  | .MS_CTRL_KIND => { base := 0x600200, dims := [], size := 4, lo := 6, width := 2, acc := .rw, f := true, s := true }
  | .MS_CTRL_BUSY => { base := 0x600200, dims := [], size := 4, lo := 8, width := 1, acc := .ro, live := true }
  | .MS_CTRL_MS_REFUSED => { base := 0x600200, dims := [], size := 4, lo := 9, width := 1, acc := .w1c, f := true }
  | .MS_CTRL_CAUSE => { base := 0x600200, dims := [], size := 4, lo := 10, width := 2, acc := .ro, f := true }
  | .MS_CTRL_KEY => { base := 0x600200, dims := [], size := 4, lo := 16, width := 16, acc := .wo }
  | .MS_NAME_NAME => { base := 0x600208, dims := [], size := 8, lo := 0, width := 64, acc := .rw, f := true, s := true }
  | .MS_VALUE_MARK => { base := 0x600220, dims := [], size := 32, lo := 0, width := 256, acc := .rw, f := true, s := true }
  | .MS_QUERY_INDEX => { base := 0x600240, dims := [], size := 4, lo := 0, width := 16, acc := .rw, f := true, s := true }
  | .MS_USED_COUNT => { base := 0x600290, dims := [], size := 4, lo := 0, width := 17, acc := .ro, live := true }
  | .WEIGHTS_MARK_MARK => { base := 0x601000, dims := [(8, 0x100)], size := 32, lo := 0, width := 256, acc := .ro, f := true, s := true, star := true, part := 1 }
  | .MK_ADDR_ADDR => { base := 0x601020, dims := [(8, 0x100)], size := 8, lo := 0, width := 64, acc := .rw, f := true, s := true, star := true, part := 1 }
  | .MK_LEN_LEN => { base := 0x601028, dims := [(8, 0x100)], size := 8, lo := 0, width := 36, acc := .rw, f := true, s := true, star := true, part := 1 }
  | .MK_CTRL_OP => { base := 0x601030, dims := [(8, 0x100)], size := 4, lo := 0, width := 2, acc := .rw, f := true, s := true, star := true, part := 1 }
  | .MK_CTRL_GO => { base := 0x601030, dims := [(8, 0x100)], size := 4, lo := 2, width := 1, acc := .sc, part := 1 }
  | .MK_CTRL_BUSY => { base := 0x601030, dims := [(8, 0x100)], size := 4, lo := 3, width := 1, acc := .ro, live := true, part := 1 }
  | .MK_CTRL_MK_FAILED => { base := 0x601030, dims := [(8, 0x100)], size := 4, lo := 4, width := 1, acc := .w1c, f := true, part := 1 }
  | .MK_CTRL_STATUS => { base := 0x601030, dims := [(8, 0x100)], size := 4, lo := 8, width := 8, acc := .ro, f := true, part := 1 }
  | .TALLY_BASE_ADDR => { base := 0x601038, dims := [(8, 0x100)], size := 8, lo := 6, width := 58, acc := .rw, f := true, s := true, star := true, part := 1 }
  | .TALLY_SIZE_SIZE => { base := 0x601040, dims := [(8, 0x100)], size := 8, lo := 6, width := 30, acc := .rw, f := true, s := true, star := true, part := 1 }
  | .TALLY_CTRL_MODE => { base := 0x601048, dims := [(8, 0x100)], size := 4, lo := 0, width := 2, acc := .rw, f := true, s := true, star := true, part := 1 }
  | .TALLY_CTRL_STOP => { base := 0x601048, dims := [(8, 0x100)], size := 4, lo := 2, width := 1, acc := .rw, f := true, s := true, star := true, part := 1 }
  | .TALLY_CTRL_TALLY_REFUSED => { base := 0x601048, dims := [(8, 0x100)], size := 4, lo := 5, width := 1, acc := .w1c, f := true, part := 1 }
  | .TALLY_HEAD_OFFSET => { base := 0x601050, dims := [(8, 0x100)], size := 8, lo := 0, width := 36, acc := .ro, f := true, s := true, star := true, part := 1 }
  | .TALLY_SEQ_SEQ => { base := 0x601058, dims := [(8, 0x100)], size := 4, lo := 0, width := 32, acc := .ro, f := true, s := true, star := true, part := 1 }
  | .REPLAY_BASE_ADDR => { base := 0x601060, dims := [(8, 0x100)], size := 8, lo := 6, width := 58, acc := .rw, f := true, s := true, star := true, part := 1 }
  | .REPLAY_SIZE_SIZE => { base := 0x601068, dims := [(8, 0x100)], size := 8, lo := 6, width := 30, acc := .rw, f := true, s := true, star := true, part := 1 }
  | .REPLAY_OFFSET_COUNTS => { base := 0x601070, dims := [(8, 0x100)], size := 8, lo := 0, width := 64, acc := .rw, f := true, s := true, star := true, part := 1 }
  | .REPLAY_POS_OFFSET => { base := 0x601078, dims := [(8, 0x100)], size := 8, lo := 0, width := 36, acc := .ro, f := true, s := true, star := true, part := 1 }
  | .REPLAY_DROPPED_COUNT => { base := 0x601080, dims := [(8, 0x100)], size := 4, lo := 0, width := 32, acc := .rwh, f := true, s := true, star := true, part := 1 }
  | .TILE_STATE_STATE => { base := 0x700000, dims := [(32, 0x8000)], size := 4, lo := 0, width := 3, acc := .ro, live := true, die := true }
  | .TILE_STATE_GRANTED => { base := 0x700000, dims := [(32, 0x8000)], size := 4, lo := 3, width := 1, acc := .ro, live := true, die := true }
  | .TILE_STATE_PART => { base := 0x700000, dims := [(32, 0x8000)], size := 4, lo := 4, width := 3, acc := .ro, live := true, die := true }
  | .TILE_CTRL_TAKE_OUT => { base := 0x700008, dims := [(32, 0x8000)], size := 4, lo := 0, width := 1, acc := .sc, die := true }
  | .TILE_CTRL_RETURN => { base := 0x700008, dims := [(32, 0x8000)], size := 4, lo := 1, width := 1, acc := .sc, die := true }
  | .TILE_CTRL_AUTO_TEST => { base := 0x700008, dims := [(32, 0x8000)], size := 4, lo := 2, width := 1, acc := .rw, reset := 0x1, f := true, s := true, die := true }
  | .TILE_CTRL_TILE_BADREQ => { base := 0x700008, dims := [(32, 0x8000)], size := 4, lo := 3, width := 1, acc := .w1c, f := true, die := true }
  | .TILE_TEST_LAST => { base := 0x700010, dims := [(32, 0x8000)], size := 4, lo := 0, width := 2, acc := .ro, live := true, die := true }
  | .TILE_TEST_FAILS => { base := 0x700010, dims := [(32, 0x8000)], size := 4, lo := 8, width := 8, acc := .ro, live := true, die := true }
  | .TILE_TEST_DURATION => { base := 0x700010, dims := [(32, 0x8000)], size := 4, lo := 16, width := 16, acc := .ro, live := true, die := true }
  | .TILE_MEM_CE_COUNT => { base := 0x700018, dims := [(32, 0x8000)], size := 4, lo := 0, width := 32, acc := .rwh, f := true, die := true }
  | .TILE_MEM_UE_COUNT => { base := 0x70001C, dims := [(32, 0x8000)], size := 4, lo := 0, width := 32, acc := .rwh, f := true, die := true }
  | .TILE_LAST_ERR_WORD => { base := 0x700020, dims := [(32, 0x8000)], size := 4, lo := 0, width := 18, acc := .ro, f := true, die := true }
  | .TILE_LAST_ERR_UE => { base := 0x700020, dims := [(32, 0x8000)], size := 4, lo := 18, width := 1, acc := .ro, f := true, die := true }
  | .TILE_LAST_ERR_KIND => { base := 0x700020, dims := [(32, 0x8000)], size := 4, lo := 19, width := 3, acc := .ro, f := true, die := true }
  | .PERF_SEL_EVENT => { base := 0x700040, dims := [(32, 0x8000), (4, 0x8)], size := 4, lo := 0, width := 8, acc := .rw, f := true, die := true }
  | .PERF_CNT_COUNT => { base := 0x700060, dims := [(32, 0x8000), (4, 0x8)], size := 8, lo := 0, width := 48, acc := .rwh, f := true, die := true }
  | .BOLT_CTRL_STAT_EN => { base := 0x700100, dims := [(32, 0x8000)], size := 4, lo := 0, width := 1, acc := .rw, f := true, die := true }
  | .BOLT_KEYS_COUNT => { base := 0x700108, dims := [(32, 0x8000)], size := 8, lo := 0, width := 48, acc := .rwh, f := true, die := true }
  | .BOLT_NAN_COUNT => { base := 0x700110, dims := [(32, 0x8000)], size := 4, lo := 0, width := 32, acc := .rwh, f := true, die := true }
  | .BOLT_ROWS_COUNT => { base := 0x700114, dims := [(32, 0x8000)], size := 4, lo := 0, width := 32, acc := .rwh, f := true, die := true }
  | .BOLT_PASSES_COUNT => { base := 0x700118, dims := [(32, 0x8000)], size := 4, lo := 0, width := 32, acc := .rwh, f := true, die := true }
  | .QN_STATUS_BUSY => { base := 0x900000, dims := [(2, 0x100)], size := 4, lo := 0, width := 1, acc := .ro, live := true, die := true }
  | .QN_STATUS_PART => { base := 0x900000, dims := [(2, 0x100)], size := 4, lo := 1, width := 3, acc := .ro, live := true, die := true }
  | .QN_STATUS_METHOD => { base := 0x900000, dims := [(2, 0x100)], size := 4, lo := 4, width := 3, acc := .ro, live := true, die := true }
  | .QN_STATUS_COLS => { base := 0x900000, dims := [(2, 0x100)], size := 4, lo := 8, width := 24, acc := .ro, live := true, die := true }
  | .QN_CTRL_STAT_EN => { base := 0x900008, dims := [(2, 0x100)], size := 4, lo := 0, width := 1, acc := .rw, f := true, die := true }
  | .QN_SOLVES_COUNT => { base := 0x900010, dims := [(2, 0x100)], size := 4, lo := 0, width := 32, acc := .rwh, f := true, die := true }
  | .QN_REG_PIVOTS_COUNT => { base := 0x900014, dims := [(2, 0x100)], size := 4, lo := 0, width := 32, acc := .rwh, f := true, die := true }
  | .QN_DEADLINES_COUNT => { base := 0x900018, dims := [(2, 0x100)], size := 4, lo := 0, width := 32, acc := .rwh, f := true, die := true }
  | .QN_BUSY_COUNT => { base := 0x900020, dims := [(2, 0x100)], size := 8, lo := 0, width := 48, acc := .rwh, f := true, die := true }
  | .WORLD_CUR_HEADER => { base := 0x800000, dims := [(8, 0x200), (8, 0x40)], size := 8, lo := 0, width := 64, acc := .ro, f := true, s := true, star := true, part := 8 }
  | .WORLD_EPOCH_EPOCH => { base := 0x800008, dims := [(8, 0x200), (8, 0x40)], size := 4, lo := 0, width := 32, acc := .ro, f := true, s := true, star := true, part := 8 }
  | .WORLD_USERS_CURRENT => { base := 0x800010, dims := [(8, 0x200), (8, 0x40)], size := 4, lo := 0, width := 16, acc := .ro, live := true, part := 8 }
  | .WORLD_USERS_OLDER => { base := 0x800010, dims := [(8, 0x200), (8, 0x40)], size := 4, lo := 16, width := 16, acc := .ro, live := true, part := 8 }
  | .WORLD_SWAPS_COUNT => { base := 0x800018, dims := [(8, 0x200), (8, 0x40)], size := 4, lo := 0, width := 32, acc := .rwh, f := true, s := true, star := true, part := 8 }
  | .NC_CTRL_STAT_EN => { base := 0x801000, dims := [(2, 0x40)], size := 4, lo := 0, width := 1, acc := .rw, f := true, die := true }
  | .NC_HIT_COUNT => { base := 0x801008, dims := [(2, 0x40)], size := 8, lo := 0, width := 48, acc := .rwh, f := true, die := true }
  | .NC_MISS_COUNT => { base := 0x801010, dims := [(2, 0x40)], size := 8, lo := 0, width := 48, acc := .rwh, f := true, die := true }
  | .CK_CANDS_COUNT => { base := 0x801018, dims := [(2, 0x40)], size := 4, lo := 0, width := 32, acc := .rwh, f := true, die := true }
  | .CK_CONTACTS_COUNT => { base := 0x80101C, dims := [(2, 0x40)], size := 4, lo := 0, width := 32, acc := .rwh, f := true, die := true }
  | .CK_SAMPLES_COUNT => { base := 0x801020, dims := [(2, 0x40)], size := 8, lo := 0, width := 48, acc := .rwh, f := true, die := true }
  | .CK_BOX_COUNT => { base := 0x801028, dims := [(2, 0x40)], size := 8, lo := 0, width := 48, acc := .rwh, f := true, die := true }
  | .CK_REPAIRED_COUNT => { base := 0x801030, dims := [(2, 0x40)], size := 4, lo := 0, width := 32, acc := .rwh, f := true, die := true }
  | .CK_PLANS_COUNT => { base := 0x801034, dims := [(2, 0x40)], size := 4, lo := 0, width := 32, acc := .rwh, f := true, die := true }
  | .SVC_CTRL_SVC_LOCK => { base := 0xA00000, dims := [], size := 4, lo := 0, width := 1, acc := .rw, f := true, s := true }
  | .SVC_CTRL_ETH_MODE => { base := 0xA00000, dims := [], size := 4, lo := 1, width := 1, acc := .rw, f := true, s := true }
  | .SVC_CTRL_MODE_REFUSED => { base := 0xA00000, dims := [], size := 4, lo := 8, width := 1, acc := .w1c, f := true }
  | .SVC_UDP_PORT => { base := 0xA00004, dims := [], size := 4, lo := 0, width := 16, acc := .rw, reset := 0xB96E, f := true, s := true }
  | .SVC_PART_RESET_PART => { base := 0xA00008, dims := [], size := 4, lo := 0, width := 8, acc := .w1s }
  | .SVC_MB_RING_TARGET => { base := 0xA00010, dims := [], size := 4, lo := 0, width := 4, acc := .wo }
  | .M2H_VECTOR_VECTOR => { base := 0xA00018, dims := [], size := 4, lo := 0, width := 11, acc := .rw, f := true, s := true }
  | .M_STATUS_RUNNING => { base := 0xA01000, dims := [(4, 0x100)], size := 4, lo := 0, width := 1, acc := .ro, live := true }
  | .M_STATUS_WD_FIRED => { base := 0xA01000, dims := [(4, 0x100)], size := 4, lo := 1, width := 1, acc := .w1c, f := true, s := true }
  | .M_PART_PART => { base := 0xA01004, dims := [(4, 0x100)], size := 4, lo := 0, width := 3, acc := .rw, f := true, s := true }
  | .M_IRQ_PEND_LINES => { base := 0xA01008, dims := [(4, 0x100)], size := 4, lo := 0, width := 32, acc := .w1c, f := true, s := true }
  | .M_IRQ_EN_LINES => { base := 0xA0100C, dims := [(4, 0x100)], size := 4, lo := 0, width := 32, acc := .rw, f := true, s := true }
  | .M_TIMECMP_COUNT => { base := 0xA01010, dims := [(4, 0x100)], size := 8, lo := 0, width := 64, acc := .rw, reset := 0xFFFFFFFFFFFFFFFF, f := true, s := true }
  | .M_MB_CORE_SRC => { base := 0xA01018, dims := [(4, 0x100)], size := 4, lo := 0, width := 4, acc := .w1c, f := true, s := true }
  | .M_WD_LIMIT => { base := 0xA0101C, dims := [(4, 0x100)], size := 4, lo := 0, width := 32, acc := .rw, f := true, s := true }
  | .M_WD_KICK_KICK => { base := 0xA01020, dims := [(4, 0x100)], size := 4, lo := 0, width := 1, acc := .wo }
  | .M_ERR_ADDR_ADDR => { base := 0xA01030, dims := [(4, 0x100)], size := 8, lo := 0, width := 64, acc := .ro, f := true, s := true }
  | .H2M_RING_CORE => { base := 0xA01840, dims := [], size := 4, lo := 0, width := 4, acc := .wo }
  | .M2H_RING_RING => { base := 0xA018C0, dims := [], size := 4, lo := 0, width := 1, acc := .wo }
  | .M2H_PEND_CORE => { base := 0xA018C4, dims := [], size := 4, lo := 0, width := 4, acc := .w1c, f := true, s := true }
  | .MAC_ADDR => { base := 0xA02008, dims := [(4, 0x100)], size := 8, lo := 0, width := 48, acc := .rw, f := true, s := true }
  | .PHC_ADJ_ADJ => { base := 0xA03000, dims := [], size := 4, lo := 0, width := 32, acc := .rw, f := true, s := true }
  | .PHC_STEP_NS => { base := 0xA03008, dims := [], size := 8, lo := 0, width := 64, acc := .wo }
  | .PHC_SNAP_GO => { base := 0xA03010, dims := [], size := 4, lo := 0, width := 1, acc := .sc }
  | .TX_TS_POP_POP => { base := 0xA03040, dims := [], size := 4, lo := 0, width := 1, acc := .wo }
  | .TENT_CTRL_USER_RESET => { base := 0xA04004, dims := [], size := 4, lo := 0, width := 1, acc := .sc }
  | .TENT_TIMEOUTS_COUNT => { base := 0xA04008, dims := [], size := 4, lo := 0, width := 32, acc := .rwh, f := true, s := true }
  | .EVT_HEAD_COUNT => { base := 0xF00000, dims := [], size := 4, lo := 0, width := 32, acc := .ro, f := true, s := true }
  | .EVT_ACK_COUNT => { base := 0xF00004, dims := [], size := 4, lo := 0, width := 32, acc := .rw, f := true, s := true }
  | .EVT_CFG_VECTOR => { base := 0xF00008, dims := [], size := 4, lo := 0, width := 11, acc := .rw, f := true, s := true }
  | .EVT_CFG_IRQ_FAULT => { base := 0xF00008, dims := [], size := 4, lo := 11, width := 1, acc := .rw, f := true, s := true }
  | .EVT_CFG_IRQ_ANY => { base := 0xF00008, dims := [], size := 4, lo := 12, width := 1, acc := .rw, f := true, s := true }
  | .EVT_LOST_COUNT => { base := 0xF0000C, dims := [], size := 4, lo := 0, width := 32, acc := .rwh, f := true, s := true }
  | .EVT_DROPPED_COUNT => { base := 0xF00010, dims := [], size := 4, lo := 0, width := 32, acc := .rwh, f := true, s := true }
  | .RAIL_MV0_CORE_G0 => { base := 0x030180, dims := [], size := 4, lo := 0, width := 16, acc := .ro, live := true }
  | .RAIL_MV0_CORE_G1 => { base := 0x030180, dims := [], size := 4, lo := 16, width := 16, acc := .ro, live := true }
  | .RAIL_MV1_HUB => { base := 0x030184, dims := [], size := 4, lo := 0, width := 16, acc := .ro, live := true }
  | .RAIL_MV1_VDDQ_S => { base := 0x030184, dims := [], size := 4, lo := 16, width := 16, acc := .ro, live := true }
  | .RAIL_MV2_VBAT => { base := 0x030188, dims := [], size := 4, lo := 0, width := 16, acc := .ro, live := true }
  | .RAIL_MV2_CORE_MAX_G0 => { base := 0x030188, dims := [], size := 4, lo := 16, width := 6, acc := .ro, live := true }
  | .RAIL_MV2_CORE_MAX_G1 => { base := 0x030188, dims := [], size := 4, lo := 24, width := 6, acc := .ro, live := true }
  | .AON_LAST_EVENT_RECORD => { base := 0x030140, dims := [], size := 32, lo := 0, width := 256, acc := .ro, f := true, p := true, s := true, b := true }
  | .GOV_STACK_T_WARM => { base := 0x020108, dims := [], size := 4, lo := 0, width := 8, acc := .rw, reset := 0x4B, f := true, s := true }
  | .GOV_STACK_T_HOT => { base := 0x020108, dims := [], size := 4, lo := 8, width := 8, acc := .rw, reset := 0x55, f := true, s := true }
  | .GOV_STACK_T_CRIT => { base := 0x020108, dims := [], size := 4, lo := 16, width := 8, acc := .rw, reset := 0x5F, f := true, s := true }
  | .GOV_STACK_T_RESUME => { base := 0x020108, dims := [], size := 4, lo := 24, width := 8, acc := .rw, reset := 0x5A, f := true, s := true }
  | .GOV_DIE_T_WARM => { base := 0x02010C, dims := [], size := 4, lo := 0, width := 8, acc := .rw, reset := 0x55, f := true, s := true }
  | .GOV_DIE_T_HOT => { base := 0x02010C, dims := [], size := 4, lo := 8, width := 8, acc := .rw, reset := 0x5F, f := true, s := true }
  | .GOV_DIE_T_CRIT => { base := 0x02010C, dims := [], size := 4, lo := 16, width := 8, acc := .rw, reset := 0x64, f := true, s := true }
  | .GOV_DIE_T_RESUME => { base := 0x02010C, dims := [], size := 4, lo := 24, width := 8, acc := .rw, reset := 0x5F, f := true, s := true }
  | .GOV_TEMP0_STACK0 => { base := 0x020120, dims := [], size := 4, lo := 0, width := 16, acc := .ro, reset := 0x8000, live := true }
  | .GOV_TEMP0_STACK1 => { base := 0x020120, dims := [], size := 4, lo := 16, width := 16, acc := .ro, reset := 0x8000, live := true }
  | .GOV_TEMP1_G0 => { base := 0x020124, dims := [], size := 4, lo := 0, width := 16, acc := .ro, reset := 0x8000, live := true }
  | .GOV_TEMP1_G1 => { base := 0x020124, dims := [], size := 4, lo := 16, width := 16, acc := .ro, reset := 0x8000, live := true }
  | .GOV_SEEN_HOT => { base := 0x020138, dims := [], size := 4, lo := 0, width := 1, acc := .w1c, f := true }
  | .GOV_SEEN_CRIT => { base := 0x020138, dims := [], size := 4, lo := 1, width := 1, acc := .w1c, f := true }
  | .GOV_SEEN_TRIP => { base := 0x020138, dims := [], size := 4, lo := 2, width := 1, acc := .w1c, f := true }
  | .GOV_SEEN_SENSOR => { base := 0x020138, dims := [], size := 4, lo := 3, width := 1, acc := .w1c, f := true }
  | .TF_LAST_PCH => { base := 0x400110, dims := [(2, 0x40)], size := 8, lo := 0, width := 5, acc := .ro, f := true, s := true }
  | .TF_LAST_BANK => { base := 0x400110, dims := [(2, 0x40)], size := 8, lo := 5, width := 6, acc := .ro, f := true, s := true }
  | .TF_LAST_UE => { base := 0x400110, dims := [(2, 0x40)], size := 8, lo := 11, width := 1, acc := .ro, f := true, s := true }
  | .TF_LAST_ROW => { base := 0x400110, dims := [(2, 0x40)], size := 8, lo := 32, width := 32, acc := .ro, f := true, s := true }
  | .TS_LAST_RANK => { base := 0x480110, dims := [(8, 0x40)], size := 8, lo := 0, width := 1, acc := .ro, f := true, s := true }
  | .TS_LAST_BANK => { base := 0x480110, dims := [(8, 0x40)], size := 8, lo := 1, width := 5, acc := .ro, f := true, s := true }
  | .TS_LAST_UE => { base := 0x480110, dims := [(8, 0x40)], size := 8, lo := 6, width := 1, acc := .ro, f := true, s := true }
  | .TS_LAST_DEVICE => { base := 0x480110, dims := [(8, 0x40)], size := 8, lo := 7, width := 5, acc := .ro, f := true, s := true }
  | .TS_LAST_ROW => { base := 0x480110, dims := [(8, 0x40)], size := 8, lo := 32, width := 32, acc := .ro, f := true, s := true }
  | .TS_SCRUB_PERIOD_H => { base := 0x480118, dims := [(8, 0x40)], size := 4, lo := 0, width := 8, acc := .rw, reset := 0x18, f := true, s := true }
  | .TS_SCRUB_EN => { base := 0x480118, dims := [(8, 0x40)], size := 4, lo := 8, width := 1, acc := .rw, reset := 0x1, f := true, s := true }
  | .FAB_TOPO_DX => { base := 0x500000, dims := [], size := 4, lo := 16, width := 4, acc := .rw, f := true, s := true }
  | .FAB_TOPO_DY => { base := 0x500000, dims := [], size := 4, lo := 20, width := 4, acc := .rw, f := true, s := true }
  | .FAB_TOPO_DZ => { base := 0x500000, dims := [], size := 4, lo := 24, width := 4, acc := .rw, f := true, s := true }
  | .LINK_DOWN_ACTIVE_BITMAP => { base := 0x500800, dims := [], size := 384, lo := 0, width := 3072, acc := .ro, live := true }
  | .LINK_DOWN_SHADOW_BITMAP => { base := 0x500C00, dims := [], size := 384, lo := 0, width := 3072, acc := .rwh, f := true, s := true }
  | .EXPRESS_ACTIVE_DEST => { base := 0x501000, dims := [(64, 0x4)], size := 4, lo := 0, width := 10, acc := .ro, live := true }
  | .EXPRESS_ACTIVE_PORT => { base := 0x501000, dims := [(64, 0x4)], size := 4, lo := 10, width := 1, acc := .ro, live := true }
  | .EXPRESS_ACTIVE_VALID => { base := 0x501000, dims := [(64, 0x4)], size := 4, lo := 15, width := 1, acc := .ro, live := true }
  | .EXPRESS_SHADOW_DEST => { base := 0x501100, dims := [(64, 0x4)], size := 4, lo := 0, width := 10, acc := .rw, f := true, s := true }
  | .EXPRESS_SHADOW_PORT => { base := 0x501100, dims := [(64, 0x4)], size := 4, lo := 10, width := 1, acc := .rw, f := true, s := true }
  | .EXPRESS_SHADOW_VALID => { base := 0x501100, dims := [(64, 0x4)], size := 4, lo := 15, width := 1, acc := .rw, f := true, s := true }
  | .GRP_MEMBERS_BITMAP => { base := 0x502040, dims := [(64, 0x100)], size := 128, lo := 0, width := 1024, acc := .rw, f := true, s := true }
  | .GMC_SEEN_UNSYNC => { base := 0x600028, dims := [], size := 4, lo := 0, width := 1, acc := .w1c, f := true }
  | .GMC_SEEN_HOLDOVER => { base := 0x600028, dims := [], size := 4, lo := 1, width := 1, acc := .w1c, f := true }
  | .GMC_SEEN_STEP => { base := 0x600028, dims := [], size := 4, lo := 2, width := 1, acc := .w1c, f := true }
  | .GMC_SEEN_PARENT_CHANGE => { base := 0x600028, dims := [], size := 4, lo := 3, width := 1, acc := .w1c, f := true }
  | .COG_KEY_VALUE => { base := 0x600100, dims := [], size := 8, lo := 0, width := 64, acc := .rw, f := true, s := true }
  | .COG_JOB_VALUE => { base := 0x600108, dims := [], size := 8, lo := 0, width := 64, acc := .rw, f := true, s := true }
  | .COG_STREAM_VALUE => { base := 0x600110, dims := [], size := 8, lo := 0, width := 64, acc := .rw, f := true, s := true }
  | .COG_INDEX_VALUE => { base := 0x600118, dims := [], size := 8, lo := 0, width := 64, acc := .rw, f := true, s := true }
  | .MS_ENTRY_ENTRY => { base := 0x600248, dims := [], size := 64, lo := 0, width := 512, acc := .ro, live := true }
  | .TALLY_CTRL_GAP => { base := 0x601048, dims := [(8, 0x100)], size := 4, lo := 3, width := 1, acc := .w1c, f := true, part := 1 }
  | .TALLY_CTRL_WRAPPED => { base := 0x601048, dims := [(8, 0x100)], size := 4, lo := 4, width := 1, acc := .w1c, f := true, part := 1 }
  | .M_ERR_STATUS => { base := 0xA01028, dims := [(4, 0x100)], size := 4, lo := 0, width := 8, acc := .ro, f := true, s := true }
  | .M_ERR_CAUSE => { base := 0xA01028, dims := [(4, 0x100)], size := 4, lo := 8, width := 8, acc := .ro, f := true, s := true }
  | .POST_BASE_ADDR => { base := 0xA01040, dims := [(4, 0x100), (4, 0x20)], size := 4, lo := 12, width := 20, acc := .rw, f := true, s := true }
  | .POST_CFG_LOG2_SIZE => { base := 0xA01044, dims := [(4, 0x100), (4, 0x20)], size := 4, lo := 0, width := 5, acc := .rw, f := true, s := true }
  | .POST_CFG_PART => { base := 0xA01044, dims := [(4, 0x100), (4, 0x20)], size := 4, lo := 8, width := 3, acc := .rw, f := true, s := true }
  | .POST_CFG_TALLY_BYTES => { base := 0xA01044, dims := [(4, 0x100), (4, 0x20)], size := 4, lo := 16, width := 1, acc := .rw, f := true, s := true }
  | .POST_CFG_ENABLE => { base := 0xA01044, dims := [(4, 0x100), (4, 0x20)], size := 4, lo := 24, width := 1, acc := .rw, f := true, s := true }
  | .POST_TAIL_WORD => { base := 0xA01048, dims := [(4, 0x100), (4, 0x20)], size := 8, lo := 0, width := 48, acc := .rw, f := true, s := true }
  | .POST_STATUS_STATE => { base := 0xA01050, dims := [(4, 0x100), (4, 0x20)], size := 4, lo := 0, width := 2, acc := .ro, f := true, s := true }
  | .POST_STATUS_CFG_REFUSED => { base := 0xA01050, dims := [(4, 0x100), (4, 0x20)], size := 4, lo := 2, width := 1, acc := .w1c, f := true, s := true }
  | .POST_STATUS_REFUSE_CAUSE => { base := 0xA01050, dims := [(4, 0x100), (4, 0x20)], size := 4, lo := 3, width := 3, acc := .ro, f := true, s := true }
  | .POST_STATUS_HALT_CAUSE => { base := 0xA01050, dims := [(4, 0x100), (4, 0x20)], size := 4, lo := 8, width := 8, acc := .ro, f := true, s := true }
  | .POST_HEAD_WORD => { base := 0xA01058, dims := [(4, 0x100), (4, 0x20)], size := 8, lo := 0, width := 48, acc := .ro, f := true, s := true }
  | .CORE_CQ_BASE_ADDR => { base := 0xA010C0, dims := [(4, 0x100)], size := 4, lo := 12, width := 20, acc := .rw, f := true, s := true }
  | .CORE_CQ_CFG_LOG2_SIZE => { base := 0xA010C4, dims := [(4, 0x100)], size := 4, lo := 0, width := 5, acc := .rw, f := true, s := true }
  | .CORE_CQ_CFG_ENTRY => { base := 0xA010C4, dims := [(4, 0x100)], size := 4, lo := 8, width := 1, acc := .rw, f := true, s := true }
  | .CORE_CQ_CFG_ENABLE => { base := 0xA010C4, dims := [(4, 0x100)], size := 4, lo := 24, width := 1, acc := .rw, f := true, s := true }
  | .CORE_CQ_HEADW_WORD => { base := 0xA010C8, dims := [(4, 0x100)], size := 8, lo := 0, width := 48, acc := .rw, f := true, s := true }
  | .CORE_CQ_STATUS_STATE => { base := 0xA010D0, dims := [(4, 0x100)], size := 4, lo := 0, width := 2, acc := .ro, f := true, s := true }
  | .CORE_CQ_STATUS_CFG_REFUSED => { base := 0xA010D0, dims := [(4, 0x100)], size := 4, lo := 2, width := 1, acc := .w1c, f := true, s := true }
  | .CORE_CQ_STATUS_REFUSE_CAUSE => { base := 0xA010D0, dims := [(4, 0x100)], size := 4, lo := 3, width := 3, acc := .ro, f := true, s := true }
  | .CORE_CQ_STATUS_HALT_CAUSE => { base := 0xA010D0, dims := [(4, 0x100)], size := 4, lo := 8, width := 8, acc := .ro, f := true, s := true }
  | .CORE_CQ_TAIL_WORD => { base := 0xA010D8, dims := [(4, 0x100)], size := 8, lo := 0, width := 48, acc := .ro, f := true, s := true }
  | .H2M_DATA_DATA => { base := 0xA01800, dims := [(16, 0x4)], size := 4, lo := 0, width := 32, acc := .rw, f := true, s := true }
  | .M2H_DATA_DATA => { base := 0xA01880, dims := [(16, 0x4)], size := 4, lo := 0, width := 32, acc := .rw, f := true, s := true }
  | .ETH_CFG_ENABLE => { base := 0xA02000, dims := [(4, 0x100)], size := 4, lo := 0, width := 1, acc := .rw, f := true, s := true }
  | .ETH_CFG_REJECT_EN => { base := 0xA02000, dims := [(4, 0x100)], size := 4, lo := 1, width := 1, acc := .rw, f := true, s := true }
  | .ETH_CFG_REJ_PER_MS => { base := 0xA02000, dims := [(4, 0x100)], size := 4, lo := 8, width := 8, acc := .rw, reset := 0x10, f := true, s := true }
  | .ETH_STATUS_LINK => { base := 0xA02004, dims := [(4, 0x100)], size := 4, lo := 0, width := 1, acc := .ro, live := true }
  | .ETH_STATUS_FEC_LOCK => { base := 0xA02004, dims := [(4, 0x100)], size := 4, lo := 1, width := 1, acc := .ro, live := true }
  | .MCAST_ADDR => { base := 0xA02010, dims := [(4, 0x100), (8, 0x8)], size := 8, lo := 0, width := 48, acc := .rw, f := true, s := true }
  | .MCAST_VALID => { base := 0xA02010, dims := [(4, 0x100), (8, 0x8)], size := 8, lo := 63, width := 1, acc := .rw, f := true, s := true }
  | .GENQ_BASE_ADDR => { base := 0xA02060, dims := [(4, 0x100)], size := 4, lo := 6, width := 26, acc := .rw, f := true, s := true }
  | .GENQ_BUF_ADDR => { base := 0xA02064, dims := [(4, 0x100)], size := 4, lo := 6, width := 26, acc := .rw, f := true, s := true }
  | .GENQ_CFG_LOG2_ENTRIES => { base := 0xA02068, dims := [(4, 0x100)], size := 4, lo := 0, width := 4, acc := .rw, f := true, s := true }
  | .GENQ_CFG_SLOT => { base := 0xA02068, dims := [(4, 0x100)], size := 4, lo := 4, width := 1, acc := .rw, f := true, s := true }
  | .GENQ_CFG_CORE => { base := 0xA02068, dims := [(4, 0x100)], size := 4, lo := 8, width := 2, acc := .rw, f := true, s := true }
  | .GENQ_CFG_ENABLE => { base := 0xA02068, dims := [(4, 0x100)], size := 4, lo := 16, width := 1, acc := .rw, f := true, s := true }
  | .GENQ_HEAD_INDEX => { base := 0xA0206C, dims := [(4, 0x100)], size := 4, lo := 0, width := 16, acc := .rw, f := true, s := true }
  | .GENQ_TAIL_INDEX => { base := 0xA02070, dims := [(4, 0x100)], size := 4, lo := 0, width := 16, acc := .ro, live := true }
  | .TXQ_BASE_ADDR => { base := 0xA02080, dims := [(4, 0x100)], size := 4, lo := 6, width := 26, acc := .rw, f := true, s := true }
  | .TXQ_BUF_ADDR => { base := 0xA02084, dims := [(4, 0x100)], size := 4, lo := 6, width := 26, acc := .rw, f := true, s := true }
  | .TXQ_CFG_LOG2_ENTRIES => { base := 0xA02088, dims := [(4, 0x100)], size := 4, lo := 0, width := 4, acc := .rw, f := true, s := true }
  | .TXQ_CFG_SLOT => { base := 0xA02088, dims := [(4, 0x100)], size := 4, lo := 4, width := 1, acc := .rw, f := true, s := true }
  | .TXQ_CFG_CORE => { base := 0xA02088, dims := [(4, 0x100)], size := 4, lo := 8, width := 2, acc := .rw, f := true, s := true }
  | .TXQ_CFG_ENABLE => { base := 0xA02088, dims := [(4, 0x100)], size := 4, lo := 16, width := 1, acc := .rw, f := true, s := true }
  | .TXQ_HEAD_INDEX => { base := 0xA0208C, dims := [(4, 0x100)], size := 4, lo := 0, width := 16, acc := .ro, live := true }
  | .TXQ_TAIL_INDEX => { base := 0xA02090, dims := [(4, 0x100)], size := 4, lo := 0, width := 16, acc := .rw, f := true, s := true }
  | .SVCQ_BASE_ADDR => { base := 0xA02800, dims := [(8, 0x40)], size := 4, lo := 6, width := 26, acc := .rw, f := true, s := true }
  | .SVCQ_BUF_ADDR => { base := 0xA02804, dims := [(8, 0x40)], size := 4, lo := 6, width := 26, acc := .rw, f := true, s := true }
  | .SVCQ_CFG_LOG2_ENTRIES => { base := 0xA02808, dims := [(8, 0x40)], size := 4, lo := 0, width := 4, acc := .rw, f := true, s := true }
  | .SVCQ_CFG_SLOT => { base := 0xA02808, dims := [(8, 0x40)], size := 4, lo := 4, width := 1, acc := .rw, f := true, s := true }
  | .SVCQ_CFG_CORE => { base := 0xA02808, dims := [(8, 0x40)], size := 4, lo := 8, width := 2, acc := .rw, f := true, s := true }
  | .SVCQ_CFG_ENABLE => { base := 0xA02808, dims := [(8, 0x40)], size := 4, lo := 16, width := 1, acc := .rw, f := true, s := true }
  | .SVCQ_HEAD_INDEX => { base := 0xA0280C, dims := [(8, 0x40)], size := 4, lo := 0, width := 16, acc := .rw, f := true, s := true }
  | .SVCQ_TAIL_INDEX => { base := 0xA02810, dims := [(8, 0x40)], size := 4, lo := 0, width := 16, acc := .ro, live := true }
  | .ETH_COUNT_COUNT => { base := 0xA020A0, dims := [(4, 0x100), (9, 0x4)], size := 4, lo := 0, width := 32, acc := .rwh, f := true, s := true }
  | .LAST_DROP_REASON => { base := 0xA020C8, dims := [(4, 0x100)], size := 8, lo := 0, width := 8, acc := .ro, f := true, s := true }
  | .LAST_DROP_TYPE => { base := 0xA020C8, dims := [(4, 0x100)], size := 8, lo := 8, width := 8, acc := .ro, f := true, s := true }
  | .LAST_DROP_SEQ => { base := 0xA020C8, dims := [(4, 0x100)], size := 8, lo := 32, width := 32, acc := .ro, f := true, s := true }
  | .PHC_SNAP_GMC_COUNT => { base := 0xA03018, dims := [], size := 8, lo := 0, width := 64, acc := .ro, live := true }
  | .PHC_SNAP_PTP_COUNT => { base := 0xA03020, dims := [], size := 8, lo := 0, width := 64, acc := .ro, live := true }
  | .TX_TS_TAG_TAG => { base := 0xA03028, dims := [], size := 8, lo := 0, width := 32, acc := .ro, live := true }
  | .TX_TS_TAG_VALID => { base := 0xA03028, dims := [], size := 8, lo := 32, width := 1, acc := .ro, live := true }
  | .TX_TS_PTP_STAMP => { base := 0xA03030, dims := [], size := 8, lo := 0, width := 64, acc := .ro, live := true }
  | .TX_TS_GMC_STAMP => { base := 0xA03038, dims := [], size := 8, lo := 0, width := 64, acc := .ro, live := true }
  | .TENT_STATUS_LOADED => { base := 0xA04000, dims := [], size := 4, lo := 0, width := 1, acc := .ro, live := true }
  | .TENT_STATUS_ISOLATED => { base := 0xA04000, dims := [], size := 4, lo := 1, width := 1, acc := .ro, live := true }
  | .EVT_CLASSES_FAULTS => { base := 0xF00014, dims := [], size := 4, lo := 0, width := 16, acc := .ro, f := true, s := true }
  | .EVT_CLASSES_WARNS => { base := 0xF00014, dims := [], size := 4, lo := 16, width := 16, acc := .ro, f := true, s := true }
  | .VIO_HEAD_COUNT => { base := 0xF00040, dims := [], size := 4, lo := 0, width := 32, acc := .ro, f := true, s := true }
  | .VIO_ACK_COUNT => { base := 0xF00044, dims := [], size := 4, lo := 0, width := 32, acc := .rw, f := true, s := true }
  | .VIO_CFG_VECTOR => { base := 0xF00048, dims := [], size := 4, lo := 0, width := 11, acc := .rw, f := true, s := true }
  | .VIO_CFG_IRQ_FAULT => { base := 0xF00048, dims := [], size := 4, lo := 11, width := 1, acc := .rw, f := true, s := true }
  | .VIO_CFG_IRQ_ANY => { base := 0xF00048, dims := [], size := 4, lo := 12, width := 1, acc := .rw, f := true, s := true }
  | .VIO_LOST_COUNT => { base := 0xF0004C, dims := [], size := 4, lo := 0, width := 32, acc := .rwh, f := true, s := true }
  | .VIO_DROPPED_COUNT => { base := 0xF00050, dims := [], size := 4, lo := 0, width := 32, acc := .rwh, f := true, s := true }
  | .VIO_CLASSES_FAULTS => { base := 0xF00054, dims := [], size := 4, lo := 0, width := 16, acc := .ro, f := true, s := true }
  | .VIO_CLASSES_WARNS => { base := 0xF00054, dims := [], size := 4, lo := 16, width := 16, acc := .ro, f := true, s := true }

/-- Fields 0 to 39 in table order. -/
def Fld.part0 : List Fld :=
  [.CLK_LOCK_CORE_G0, .CLK_LOCK_CORE_G1, .CLK_LOCK_HUB, .CLK_LOCK_GMC, .CLK_LOCK_PCIE, .CLK_LOCK_MF, .CLK_LOCK_CFG,
    .CLK_LOCK_MS, .CLK_LOCK_FAB, .CLK_LOCK_ETH, .CLK_LOCK_TENT, .CLK_LOCK_AON, .CLK_LOSS_LOSS, .CORE_CLK_TARGET,
    .CORE_CLK_GO, .CORE_CLK_BUSY, .CORE_CLK_PENDING, .CORE_CLK_BADVAL, .CORE_CLK_ACTUAL, .MS_RATE_PAIR,
    .RST_CTRL_PKG_RESET, .RST_CTRL_KEEP_MEM, .RST_CTRL_BADKEY, .RST_CTRL_KEY, .PART_RESET_PART, .DIE_RESET_G0,
    .DIE_RESET_G1, .DIE_RESET_BUSY, .DIE_RESET_DIE_BADREQ, .PORT_RESET_MBARY, .PORT_RESET_ETH, .RAIL_STATUS_GOOD,
    .RAIL_STATUS_VBAT_LOW, .PWR_CTRL_FURL, .PWR_CTRL_WAKE, .PWR_CTRL_FORCE, .PWR_CTRL_A1_EN, .PWR_CTRL_A1_IDLE,
    .PWR_CTRL_FURL_WAIT, .PWR_STATUS_STATE]

/-- Fields 40 to 79 in table order. -/
def Fld.part1 : List Fld :=
  [.PWR_STATUS_DIE_A1, .PWR_STATUS_FURL_REFUSED, .PWR_STATUS_REFUSE_CAUSE, .AON_STATUS_AON_PEND,
    .AON_STATUS_AON_DROP, .AON_STATUS_ZEROED, .AON_STATUS_VBAT_LOST, .RESET_CAUSE_CAUSE, .AON_COUNT_LO_COUNT,
    .AON_COUNT_HI_COUNT, .AON_SCRATCH_DATA, .CFG_STATUS_DONE, .CFG_STATUS_SOURCE, .CFG_STATUS_KEY_SRC,
    .CFG_STATUS_STRAP_BAD, .CFG_STATUS_CFG_SRC, .CFG_STATUS_FAIL_MODE, .CFG_STATUS_CHAIN_FIRST,
    .CFG_STATUS_LAST_CAUSE, .CFG_STATUS_ATTEMPTS, .LOADED_VERSION_VERSION, .LOADED_BUILD_BUILD, .LOADED_GEN_GEN,
    .IMAGE_MARK_MARK, .ARB_VALUE_VALUE, .ARB_SET_VALUE, .ARB_CTRL_GO, .ARB_CTRL_BUSY, .ARB_CTRL_ARB_REFUSED,
    .SLOT_CTRL_SLOT, .SLOT_CTRL_OP, .SLOT_CTRL_GO, .SLOT_CTRL_BUSY, .SLOT_CTRL_SLOT_BADREQ, .SLOT_CTRL_RESULT,
    .SLOT_SRC_ADDR, .SLOT_LEN_LEN, .SLOT_STATE_A, .SLOT_STATE_B, .SLOT_STATE_RELOAD_OK]

/-- Fields 80 to 119 in table order. -/
def Fld.part2 : List Fld :=
  [.GEN_A_GEN, .GEN_B_GEN, .KR_DATA_DATA, .KR_CTRL_LOAD, .KR_CTRL_CLEAR, .KR_CTRL_LOCK, .KR_CTRL_VALID,
    .KR_CTRL_KR_REFUSED, .SCRUB_CTRL_EN, .SCRUB_CTRL_RELOAD_EN, .SCRUB_CYCLES_COUNT, .SCRUB_CORR_COUNT,
    .SCRUB_ESS_COUNT, .SCRUB_UNREC_COUNT, .SCRUB_LAST_FRAME, .SCRUB_LAST_UNREC, .IDENT_PART, .IDENT_STEPPING,
    .IDENT_GRADE, .TILE_PRESENT_MASK, .SERIAL_SERIAL, .HOST_LINK_RATE, .HOST_LINK_WIDTH, .HOST_LINK_FLIT,
    .HOST_LINK_CXL_CACHE, .HOST_LINK_ATS_EN, .GLOBAL_CTRL_MCTP_WR_EN, .GLOBAL_CTRL_VDM_EN, .GLOBAL_CTRL_SMBUS_EN,
    .GLOBAL_CTRL_I2C_ADDR, .MCTP_EID_EID, .GLOBAL_ERR_MMIO_SIZE, .GLOBAL_ERR_UNMAPPED_WR, .GLOBAL_ERR_SPLIT_GMC,
    .GLOBAL_ERR_COLLIDE_ANY, .COLLIDE_FIRST_OFFSET, .COLLIDE_COUNT_COUNT, .COLLIDE_QUERY_OFFSET,
    .COLLIDE_BIT_COLLIDE, .SCRATCH_DATA]

/-- Fields 120 to 159 in table order. -/
def Fld.part3 : List Fld :=
  [.PART_STATUS_PART, .PART_STATUS_OWNER, .PART_STATUS_ACTIVE, .PART_STATUS_RESETTING, .PART_STATUS_VF_ENABLED,
    .PART_GRANT_GROUPS, .PART_GRANT_OWNER, .F_QUOTA_UNITS, .S_QUOTA_UNITS, .GRANT_STATUS_GRANT_REFUSED,
    .GRANT_STATUS_CAUSE, .PART_COLLIDE_QUERY_OFFSET, .PART_COLLIDE_BIT_COLLIDE, .SQ_BASE_ADDR, .SQ_CFG_LOG2_SIZE,
    .SQ_CFG_CQ_ID, .SQ_CFG_TALLY_BYTES, .SQ_CTRL_ENABLE, .SQ_CTRL_GEN_INIT, .SQ_STATUS_STATE,
    .SQ_STATUS_CFG_REFUSED, .SQ_STATUS_REFUSE_CAUSE, .SQ_STATUS_HALT_CAUSE, .SQ_HEAD_INDEX, .SQ_HEAD_GEN,
    .SQ_TAIL_WORD, .SQ_INFLIGHT_COUNT, .SQ_COMPLETED_COUNT, .CQ_BASE_ADDR, .CQ_CFG_LOG2_SIZE, .CQ_CFG_ENTRY,
    .CQ_CTRL_ENABLE, .CQ_CTRL_GEN_INIT, .CQ_STATUS_STATE, .CQ_STATUS_CFG_REFUSED, .CQ_STATUS_REFUSE_CAUSE,
    .CQ_STATUS_VECTOR_BAD, .CQ_STATUS_HALT_CAUSE, .CQ_TAIL_INDEX, .CQ_TAIL_GEN]

/-- Fields 160 to 199 in table order. -/
def Fld.part4 : List Fld :=
  [.CQ_HEAD_WORD, .CQ_RESERVED_COUNT, .CQ_LOST_COUNT, .DB_BASE_ADDR, .DB_CTRL_EN, .DB_CTRL_FORCE_POLL,
    .DB_CTRL_SNOOPING, .DB_CTRL_DB_REFUSED, .DB_CTRL_POLL_NS, .DB_READ_FAIL_COUNT, .IRQ_CQ_VECTOR, .IRQ_CQ_IRQ_EN,
    .IRQ_CQ_ERR_NOW, .IRQ_CQ_COUNT, .IRQ_CQ_TIME, .RE_CFG_FETCH_MAX, .RE_VIOL_COUNT_COUNT, .HOP_TICK_TICK,
    .HOP_TICK_TICK_REFUSED, .HOP_USE_JOBS, .HOP_USE_TAILRACE, .PART_HOP_JOB_QUOTA, .PART_HOP_TR_QUOTA,
    .PART_HOP_PAWL_BASE, .PART_HOP_PAWL_COUNT, .PART_HOP_STAT_HOP_REFUSED, .PART_HOP_STAT_CAUSE,
    .HOP_PCTRL_ADMIT_REFUSE, .HOP_PCTRL_AGE, .HOP_PUSE_JOBS, .HOP_PUSE_TAILRACE, .HOP_READY_COUNT,
    .HOP_WAITS_DELAYED, .HOP_WAITS_PAWL_WAITERS, .CTX_KILL_CTX, .CTX_FAULTED_CTX, .FLOW_QUERY_FLOW,
    .FLOW_STATE_HELD, .FLOW_STATE_HEAD_RUNNING, .PAWL_QUERY_INDEX]

/-- Fields 200 to 239 in table order. -/
def Fld.part5 : List Fld :=
  [.PAWL_INFO_HELD, .PAWL_INFO_BROKEN, .PAWL_INFO_CTX, .PAWL_INFO_WAITERS, .PAWL_INFO_LEASE_LEFT,
    .PAWL_INFO_BREAK_CAUSE, .PAWL_BREAK_INDEX, .PAWL_BREAK_GO, .PAWL_BROKE_COUNT_COUNT, .WAIT_TIMEOUTS_COUNT,
    .TF_STATUS_TRAINED, .TF_FREE_G0, .TF_FREE_G1, .PRELOADED_UNITS, .PRELOAD_CTRL_FREE_ALL, .WC_CTRL_WC_HOLD,
    .WC_RMW_COUNT, .TC_MISS_COUNT, .TS_CHAN_PRESENT, .TS_CHAN_IN_SERVICE, .TS_CHAN_CAP_GIB, .TS_FREE_UNITS,
    .PL_F_USED_UNITS, .PL_S_USED_UNITS, .PL_SPILLED_UNITS, .PL_RUNS_COUNT, .DS_GRANT_G0, .DS_GRANT_G1,
    .DS_GRANT_DS_REFUSED, .DS_GRANT_CAUSE, .PT_XCHG_RUN_A, .PT_XCHG_RUN_B, .PT_XCHG_GO,
    .PT_XCHG_STATUS_XCHG_REFUSED, .PT_XCHG_STATUS_CAUSE, .RUN_QUERY_RUN, .RUN_INFO_A_PUNIT, .RUN_INFO_A_VALID,
    .RUN_INFO_A_PREF_F, .RUN_INFO_A_COUNT]

/-- Fields 240 to 279 in table order. -/
def Fld.part6 : List Fld :=
  [.RUN_INFO_B_TIER, .RUN_INFO_B_FIRST, .RUN_INFO_B_WAYS_LOG2, .RUN_INFO_B_PHYS_IDX, .GOV_CTRL_MODE,
    .GOV_CTRL_MIN_CODE, .GOV_CAP_POWER_CAP, .GOV_RATES_HOT_RATE, .GOV_RATES_CRIT_RATE, .GOV_STATE_STATES,
    .GOV_STATE_HOLD, .GOV_STATE_TRIPPED, .GOV_STATE_CAP_ACTIVE, .GOV_STATE_THROTTLE, .GOV_STATE_SENSOR_FAIL,
    .GOV_TEMP2_HUB, .GOV_POWER_MW, .GOV_RISES_COUNT, .REMAP_STATUS_ENTRIES, .REMAP_STATUS_TABLE_FULL,
    .REMAP_CTRL_CH, .REMAP_CTRL_RETIRE, .TF_CE_COUNT, .TF_UE_COUNT, .TF_REMAP_LIVE, .TF_REMAP_SPARE_OUT,
    .TF_SCRUB_PERIOD_H, .TF_SCRUB_EN, .TF_SCRUB_ROW_CE_LIMIT, .TS_CE_COUNT, .TS_UE_COUNT, .TS_MARK_DEVICE,
    .TS_MARK_OUT_REASON, .TS_CTRL_TAKE_OUT, .TS_CTRL_DEV_CE_LIMIT, .TS_CTRL_ROW_CE_LIMIT, .SL_CFG_RATE, .SL_CFG_EN,
    .SL_CFG_BURST, .SL_EFF_RATE]

/-- Fields 280 to 319 in table order. -/
def Fld.part7 : List Fld :=
  [.SL_EFF_NARROWED, .SL_LEVEL_BYTES, .SL_WAITS_COUNT, .FAB_TOPO_PKG, .FAB_EPOCH_EPOCH, .FAB_CTRL_REQ_TIMEOUT,
    .FAB_CTRL_FENCE_LIMIT, .FAB_CTRL_PROB_EPOCHS, .FAB_CTRL_COLL_TIMEOUT, .FAB_CFG_STATUS_TOPO_REFUSED,
    .FAB_HOLD_HOLD, .FAB_HOLD_ORIGINS, .FAB_HOLD_AT_COUNT, .NOTICE_LAST_ORIGIN, .NOTICE_LAST_CAUSE,
    .NOTICE_LAST_COUNT, .LATE_RSP_COUNT, .PORT_CFG_MODE, .PORT_CFG_ENABLE, .PORT_CFG_FENCE_CLEAR,
    .PORT_STATUS_STATE, .PORT_STATUS_PROBATION, .PORT_STATUS_FENCE_PENDING, .PORT_STATUS_WIRING_BAD,
    .PORT_STATUS_PARTNER_PKG, .PORT_STATUS_PARTNER_PORT, .PORT_STATUS_JOIN_EPOCH, .PORT_CORR_COUNT,
    .PORT_NAKS_COUNT, .PORT_REPLAYS_COUNT, .PORT_RETRAINS_COUNT, .PORT_OFFENCES_COUNT, .GRP_CFG_PART,
    .GRP_CFG_FANOUT, .GRP_CFG_EN, .GRP_CFG_RANK, .GRP_CFG_MEMBERS, .GRP_CFG_NEXT_SEQ_LO, .GRP_DIGEST_CRC,
    .GRP_STATUS_GRP_REFUSED]

/-- Fields 320 to 359 in table order. -/
def Fld.part8 : List Fld :=
  [.GRP_STATUS_CAUSE, .GRP_NEXT_SEQ_SEQ, .GMC_COUNT_COUNT, .GMC_SNAP_COUNT, .GMC_STATUS_STATE, .GMC_STATUS_ROOT,
    .GMC_STATUS_PARENT, .GMC_STATUS_DEPTH, .GMC_CFG_REF_PKG, .GMC_CFG_REF_REFUSED, .GMC_THETA_THETA,
    .GMC_DELAY_DELAY, .COG_CTRL_GO, .COG_CTRL_BUSY, .COG_OUT_W, .MS_CTRL_PIN, .MS_CTRL_ERASE, .MS_CTRL_SRC,
    .MS_CTRL_PART, .MS_CTRL_KIND, .MS_CTRL_BUSY, .MS_CTRL_MS_REFUSED, .MS_CTRL_CAUSE, .MS_CTRL_KEY, .MS_NAME_NAME,
    .MS_VALUE_MARK, .MS_QUERY_INDEX, .MS_USED_COUNT, .WEIGHTS_MARK_MARK, .MK_ADDR_ADDR, .MK_LEN_LEN, .MK_CTRL_OP,
    .MK_CTRL_GO, .MK_CTRL_BUSY, .MK_CTRL_MK_FAILED, .MK_CTRL_STATUS, .TALLY_BASE_ADDR, .TALLY_SIZE_SIZE,
    .TALLY_CTRL_MODE, .TALLY_CTRL_STOP]

/-- Fields 360 to 399 in table order. -/
def Fld.part9 : List Fld :=
  [.TALLY_CTRL_TALLY_REFUSED, .TALLY_HEAD_OFFSET, .TALLY_SEQ_SEQ, .REPLAY_BASE_ADDR, .REPLAY_SIZE_SIZE,
    .REPLAY_OFFSET_COUNTS, .REPLAY_POS_OFFSET, .REPLAY_DROPPED_COUNT, .TILE_STATE_STATE, .TILE_STATE_GRANTED,
    .TILE_STATE_PART, .TILE_CTRL_TAKE_OUT, .TILE_CTRL_RETURN, .TILE_CTRL_AUTO_TEST, .TILE_CTRL_TILE_BADREQ,
    .TILE_TEST_LAST, .TILE_TEST_FAILS, .TILE_TEST_DURATION, .TILE_MEM_CE_COUNT, .TILE_MEM_UE_COUNT,
    .TILE_LAST_ERR_WORD, .TILE_LAST_ERR_UE, .TILE_LAST_ERR_KIND, .PERF_SEL_EVENT, .PERF_CNT_COUNT,
    .BOLT_CTRL_STAT_EN, .BOLT_KEYS_COUNT, .BOLT_NAN_COUNT, .BOLT_ROWS_COUNT, .BOLT_PASSES_COUNT, .QN_STATUS_BUSY,
    .QN_STATUS_PART, .QN_STATUS_METHOD, .QN_STATUS_COLS, .QN_CTRL_STAT_EN, .QN_SOLVES_COUNT, .QN_REG_PIVOTS_COUNT,
    .QN_DEADLINES_COUNT, .QN_BUSY_COUNT, .WORLD_CUR_HEADER]

/-- Fields 400 to 439 in table order. -/
def Fld.part10 : List Fld :=
  [.WORLD_EPOCH_EPOCH, .WORLD_USERS_CURRENT, .WORLD_USERS_OLDER, .WORLD_SWAPS_COUNT, .NC_CTRL_STAT_EN,
    .NC_HIT_COUNT, .NC_MISS_COUNT, .CK_CANDS_COUNT, .CK_CONTACTS_COUNT, .CK_SAMPLES_COUNT, .CK_BOX_COUNT,
    .CK_REPAIRED_COUNT, .CK_PLANS_COUNT, .SVC_CTRL_SVC_LOCK, .SVC_CTRL_ETH_MODE, .SVC_CTRL_MODE_REFUSED,
    .SVC_UDP_PORT, .SVC_PART_RESET_PART, .SVC_MB_RING_TARGET, .M2H_VECTOR_VECTOR, .M_STATUS_RUNNING,
    .M_STATUS_WD_FIRED, .M_PART_PART, .M_IRQ_PEND_LINES, .M_IRQ_EN_LINES, .M_TIMECMP_COUNT, .M_MB_CORE_SRC,
    .M_WD_LIMIT, .M_WD_KICK_KICK, .M_ERR_ADDR_ADDR, .H2M_RING_CORE, .M2H_RING_RING, .M2H_PEND_CORE, .MAC_ADDR,
    .PHC_ADJ_ADJ, .PHC_STEP_NS, .PHC_SNAP_GO, .TX_TS_POP_POP, .TENT_CTRL_USER_RESET, .TENT_TIMEOUTS_COUNT]

/-- Fields 440 to 479 in table order. -/
def Fld.part11 : List Fld :=
  [.EVT_HEAD_COUNT, .EVT_ACK_COUNT, .EVT_CFG_VECTOR, .EVT_CFG_IRQ_FAULT, .EVT_CFG_IRQ_ANY, .EVT_LOST_COUNT,
    .EVT_DROPPED_COUNT, .RAIL_MV0_CORE_G0, .RAIL_MV0_CORE_G1, .RAIL_MV1_HUB, .RAIL_MV1_VDDQ_S, .RAIL_MV2_VBAT,
    .RAIL_MV2_CORE_MAX_G0, .RAIL_MV2_CORE_MAX_G1, .AON_LAST_EVENT_RECORD, .GOV_STACK_T_WARM, .GOV_STACK_T_HOT,
    .GOV_STACK_T_CRIT, .GOV_STACK_T_RESUME, .GOV_DIE_T_WARM, .GOV_DIE_T_HOT, .GOV_DIE_T_CRIT, .GOV_DIE_T_RESUME,
    .GOV_TEMP0_STACK0, .GOV_TEMP0_STACK1, .GOV_TEMP1_G0, .GOV_TEMP1_G1, .GOV_SEEN_HOT, .GOV_SEEN_CRIT,
    .GOV_SEEN_TRIP, .GOV_SEEN_SENSOR, .TF_LAST_PCH, .TF_LAST_BANK, .TF_LAST_UE, .TF_LAST_ROW, .TS_LAST_RANK,
    .TS_LAST_BANK, .TS_LAST_UE, .TS_LAST_DEVICE, .TS_LAST_ROW]

/-- Fields 480 to 519 in table order. -/
def Fld.part12 : List Fld :=
  [.TS_SCRUB_PERIOD_H, .TS_SCRUB_EN, .FAB_TOPO_DX, .FAB_TOPO_DY, .FAB_TOPO_DZ, .LINK_DOWN_ACTIVE_BITMAP,
    .LINK_DOWN_SHADOW_BITMAP, .EXPRESS_ACTIVE_DEST, .EXPRESS_ACTIVE_PORT, .EXPRESS_ACTIVE_VALID,
    .EXPRESS_SHADOW_DEST, .EXPRESS_SHADOW_PORT, .EXPRESS_SHADOW_VALID, .GRP_MEMBERS_BITMAP, .GMC_SEEN_UNSYNC,
    .GMC_SEEN_HOLDOVER, .GMC_SEEN_STEP, .GMC_SEEN_PARENT_CHANGE, .COG_KEY_VALUE, .COG_JOB_VALUE, .COG_STREAM_VALUE,
    .COG_INDEX_VALUE, .MS_ENTRY_ENTRY, .TALLY_CTRL_GAP, .TALLY_CTRL_WRAPPED, .M_ERR_STATUS, .M_ERR_CAUSE,
    .POST_BASE_ADDR, .POST_CFG_LOG2_SIZE, .POST_CFG_PART, .POST_CFG_TALLY_BYTES, .POST_CFG_ENABLE, .POST_TAIL_WORD,
    .POST_STATUS_STATE, .POST_STATUS_CFG_REFUSED, .POST_STATUS_REFUSE_CAUSE, .POST_STATUS_HALT_CAUSE,
    .POST_HEAD_WORD, .CORE_CQ_BASE_ADDR, .CORE_CQ_CFG_LOG2_SIZE]

/-- Fields 520 to 559 in table order. -/
def Fld.part13 : List Fld :=
  [.CORE_CQ_CFG_ENTRY, .CORE_CQ_CFG_ENABLE, .CORE_CQ_HEADW_WORD, .CORE_CQ_STATUS_STATE,
    .CORE_CQ_STATUS_CFG_REFUSED, .CORE_CQ_STATUS_REFUSE_CAUSE, .CORE_CQ_STATUS_HALT_CAUSE, .CORE_CQ_TAIL_WORD,
    .H2M_DATA_DATA, .M2H_DATA_DATA, .ETH_CFG_ENABLE, .ETH_CFG_REJECT_EN, .ETH_CFG_REJ_PER_MS, .ETH_STATUS_LINK,
    .ETH_STATUS_FEC_LOCK, .MCAST_ADDR, .MCAST_VALID, .GENQ_BASE_ADDR, .GENQ_BUF_ADDR, .GENQ_CFG_LOG2_ENTRIES,
    .GENQ_CFG_SLOT, .GENQ_CFG_CORE, .GENQ_CFG_ENABLE, .GENQ_HEAD_INDEX, .GENQ_TAIL_INDEX, .TXQ_BASE_ADDR,
    .TXQ_BUF_ADDR, .TXQ_CFG_LOG2_ENTRIES, .TXQ_CFG_SLOT, .TXQ_CFG_CORE, .TXQ_CFG_ENABLE, .TXQ_HEAD_INDEX,
    .TXQ_TAIL_INDEX, .SVCQ_BASE_ADDR, .SVCQ_BUF_ADDR, .SVCQ_CFG_LOG2_ENTRIES, .SVCQ_CFG_SLOT, .SVCQ_CFG_CORE,
    .SVCQ_CFG_ENABLE, .SVCQ_HEAD_INDEX]

/-- Fields 560 to 583 in table order. -/
def Fld.part14 : List Fld :=
  [.SVCQ_TAIL_INDEX, .ETH_COUNT_COUNT, .LAST_DROP_REASON, .LAST_DROP_TYPE, .LAST_DROP_SEQ, .PHC_SNAP_GMC_COUNT,
    .PHC_SNAP_PTP_COUNT, .TX_TS_TAG_TAG, .TX_TS_TAG_VALID, .TX_TS_PTP_STAMP, .TX_TS_GMC_STAMP, .TENT_STATUS_LOADED,
    .TENT_STATUS_ISOLATED, .EVT_CLASSES_FAULTS, .EVT_CLASSES_WARNS, .VIO_HEAD_COUNT, .VIO_ACK_COUNT,
    .VIO_CFG_VECTOR, .VIO_CFG_IRQ_FAULT, .VIO_CFG_IRQ_ANY, .VIO_LOST_COUNT, .VIO_DROPPED_COUNT, .VIO_CLASSES_FAULTS,
    .VIO_CLASSES_WARNS]

/-- Every field, in table order. -/
def Fld.all : List Fld :=
  List.flatten [part0, part1, part2, part3, part4, part5, part6, part7, part8, part9, part10, part11, part12, part13, part14]

end Sys2Proof.Machine
end

