-- ==== Sys2Proof/Machine/State.lean ====
section
/-! DEFINITION. The state of the 4400 as plain data: the register file, the memories, one structure for each block whose
state the spec describes beyond its registers, what the package has sent, and the queue of waiting commands. `State.reset` is
the package before its first power-up sequence: every register at the reset value its table gives. -/

namespace Sys2Proof.Machine

/-- One stored register field: field, instance, value. -/
abbrev RegCell := Fld × Nat × Nat

/-- The register file: the fields that differ from their reset values, in ascending order of field and instance. A field not
listed holds its reset value. -/
abbrev RegFile := List RegCell

/-- Byte memory: address and byte, addresses strictly rising, no entry equal to what an unlisted address reads as. -/
abbrev Mem := List Host.Cell

/-- Where the package is between full power and Furled (R93 to R108). -/
inductive FurlPhase where
  /-- A0, dispatch running. -/
  | a0
  /-- A FURL was accepted and waits for a ck_core change or a die recovery to end (R96, R108). -/
  | waiting
  /-- FURL_WAIT is being counted. -/
  | entering
  /-- The grind dies are quiet: flushing and self-refresh (R97). -/
  | quiet
  /-- Furled. -/
  | furled
  /-- An exit runs (R101). -/
  | exiting
  deriving DecidableEq, Repr

/-- A write crossing into the always-on domain (R33, R114). -/
structure AonWrite where
  who : Requester
  off : Nat
  size : Nat
  val : Nat
  deriving DecidableEq, Repr

/-- Power, resets and the always-on domain (spec/03, spec/19). -/
structure Power where
  /-- Every main rail is within limits. -/
  mainUp : Bool
  /-- VBAT in millivolts. -/
  vbatMv : Nat
  /-- The always-on check pattern is intact (R110). -/
  pattern : Bool
  /-- PERST# is high. -/
  perst : Bool
  /-- The release edge has been given since the last package reset (R149). -/
  released : Bool
  /-- The reset cause the always-on domain hands to the hub at the next start (RESET_CAUSE). -/
  nextCause : Nat
  /-- The always-on write that is crossing. -/
  crossing : Option AonWrite
  /-- The eight words written to KR_DATA (held in the always-on domain until LOAD moves them). -/
  krData : List Nat
  /-- The image key in the key RAM, 32 bytes, byte 0 least significant (R141); none while empty. -/
  keyRam : Option (List Byte)
  /-- A ZERO# clear whose event 0x09 is owed at the next release edge (R904). -/
  zeroOwed : Bool
  /-- Furled sequencing. -/
  furl : FurlPhase
  /-- The GMC count at which FURL_WAIT falls due, while `entering`. -/
  furlDue : Nat
  /-- A wake source is held until the entry completes (R107). -/
  wakeHeld : Bool
  /-- Tier S channel pairs in self-refresh (R97, R100), one bit each. -/
  pairSleep : Nat
  /-- Each pair's GMC count of last access while Furled (R100). -/
  pairLast : Tab Nat
  /-- PLLs that have lost lock and not relocked, by CLK_LOCK bit. -/
  lost : Nat
  /-- Nanoseconds of time passed: the model's own field, one for each idle step (R158, R165, R231 and AON_COUNT measure time). -/
  now : Nat
  /-- Time toward the next ck_aon cycle, in parts of 10^9 per 32,768 Hz. -/
  aonPhase : Nat
  /-- The last package reset kept tier F and tier S (R69). -/
  kept : Bool
  deriving DecidableEq, Repr

/-- The Governor beyond its registers (spec/09): failed readouts in a row of each sensor (R428), a fabric hold that it requested and that
has not ended (R434), a local hold (R435). -/
structure Gov where
  fails : List Nat
  fabricHold : Bool
  localHold : Bool
  deriving DecidableEq, Repr

/-- A SWEEP message being collected (R811): its partition, source address, STREAM, SEQ and PARTS, the fragments that have come, the time
the first came, and where a reject goes: port and the first bytes of that frame. -/
structure Sweep where
  part : Nat
  src : List Byte
  stream : Nat
  seq : Nat
  parts : Nat
  got : List Nat
  since : Nat
  port : Nat
  frame : List Byte
  deriving DecidableEq, Repr

/-- A plan sent (R813, R814): its REQUEST and JOINTS, its window in PTP time, the MARK it carried, the arrival count of its request, and
the port and frame of that request. -/
structure Plan where
  part : Nat
  request : Nat
  joints : Nat
  start : Nat
  until_ : Nat
  mark : List Byte
  arrival : Nat
  port : Nat
  frame : List Byte
  deriving DecidableEq, Repr

/-- What has come of the TELEMETRY messages of a pack (R811, R816): the SEQ, PARTS and fragments of the last message, and whether a
fragment of the pack's history is missing. -/
structure Pack where
  part : Nat
  src : List Byte
  pack : Nat
  stream : Nat
  seq : Nat
  parts : Nat
  got : List Nat
  missing : Bool
  deriving DecidableEq, Repr

/-- The SEQ of the last message that the services took from a sender's STREAM. -/
structure StreamSeq where
  part : Nat
  src : List Byte
  stream : Nat
  seq : Nat
  deriving DecidableEq, Repr

/-- A frame that has passed its checks and waits for its Tally record before it is delivered (R575): partition, port, bytes, arrival count, and
whether replay gave it. -/
structure HeldFrame where
  part : Nat
  port : Nat
  bytes : List Byte
  arrival : Nat
  replayed : Bool
  deriving DecidableEq, Repr

/-- The service block beyond its registers (spec/17). -/
structure Svc where
  /-- The PHC in units of 2^-32 ns (R796). -/
  phc : Nat
  /-- The transmit stamp FIFO, oldest first: TAG, PHC and GMC stamps (R801). -/
  stamps : List (Nat × Nat × Nat)
  /-- Rejects sent by each port in the current 2^20-count interval: interval and number; and each port's reject count (R808). -/
  rejects : Tab (Nat × Nat)
  rejSeq : Tab Nat
  /-- Violation records written for each port and reason: the last interval (R807), by port × 256 + reason. -/
  seen : Tab Nat
  /-- Each core's count of its last watchdog kick (R819). -/
  kicks : Tab Nat
  /-- SWEEP messages being collected (R811), plans sent (R813), packs (R816), and the last SEQ of each sender (R811). -/
  sweeps : List Sweep
  plans : List Plan
  packs : List Pack
  seqs : List StreamSeq
  /-- What Tenter user logic drives on GPIO 0 to 47 and, above them, on the 8 differential pairs; none while every GPIO is high-impedance
  and every pair idle (R789). -/
  userPins : Option Nat
  /-- Nanoseconds for which USER_RESET still holds user logic (R793). -/
  userHold : Nat
  /-- Frames that wait for their memory, in order of arrival (R102, R575). -/
  heldFrames : List HeldFrame
  deriving DecidableEq, Repr

/-- One grind die. -/
structure Die where
  /-- In A1: ck_core gated, ck_mf running (R89). -/
  a1 : Bool
  /-- Consecutive ticks without work, and whether the running tick has seen work (R89). -/
  idleTicks : Nat
  worked : Bool
  /-- Power-gated in Furled. -/
  gated : Bool
  /-- In a die recovery reset. -/
  recovering : Bool
  /-- Tripped by the Governor (R438). -/
  tripped : Bool
  /-- The code a running ck_core change goes to (BUSY). -/
  change : Option Nat
  /-- The running change, or the one held, was started by the Governor and not by GO. -/
  byGov : Bool
  /-- The code the die last ran (R43). -/
  lastCode : Nat
  /-- TARGET as last applied by GO or by the die's return: the code the Governor raises the die toward. -/
  want : Nat
  /-- The Governor's bounds on the code (R429, R440, R902), 0x24 when it holds none: thermal, power cap, core rail. -/
  thermCode : Nat
  capCode : Nat
  railCode : Nat
  /-- The core rail has held the die below that code since it last reached it. -/
  byRail : Bool
  /-- The issue throttle in sixteenths that the thermal state and the power cap ask for (R429, R441). -/
  thermThr : Nat
  capThr : Nat
  deriving DecidableEq, Repr

/-- A descriptor the ring engine has read (R253): its place in the order of its ring, its index, its arrival count (R255)
with the conditions word then in force (R579), and its 64 bytes. -/
structure Fetched where
  seq : Nat
  index : Nat
  arrival : Nat
  cond : Nat
  bytes : List Byte
  deriving DecidableEq, Repr

/-- What the ring engine keeps for a submission ring beyond its registers. -/
structure SqAux where
  /-- Accepted positions not yet fetched past, each with the GMC count of its acceptance (R255) and the conditions word then,
  oldest first. -/
  accepts : List (Nat × Nat × Nat)
  /-- Outstanding fetch reads, oldest first: first index, and each descriptor's arrival count and conditions word. -/
  fetches : List (Nat × List (Nat × Nat))
  /-- Fetched and validated, waiting for hand-over, in ring order. -/
  queue : List Fetched
  /-- Number of descriptors fetched since enable. -/
  nextSeq : Nat
  /-- Number of descriptors handed over and accepted since enable (R581). -/
  handed : Nat
  /-- The order numbers of descriptors fetched and not completed. -/
  live : List Nat
  /-- The doorbell word last accepted (SQ_TAIL of a host ring). -/
  lastWord : Nat
  /-- The newest fetch read was refused its translation, or could not be sent, while older ones are outstanding: it fails after them. -/
  lastFailed : Bool
  deriving DecidableEq, Repr

/-- What the ring engine keeps for a completion ring beyond its registers. -/
structure CqAux where
  /-- Records written since the ring's last interrupt (P of R266). -/
  p : Nat
  /-- GMC count of the first of those records. -/
  firstAt : Nat
  /-- The head word last accepted (CQ_HEAD of a host ring). -/
  lastWord : Nat
  /-- Slots reserved and not yet written (Rsv of R256; CQ_RESERVED of a host ring). -/
  rsv : Nat
  deriving DecidableEq, Repr

/-- The contents of a completion record (R260) before it is written, with its Mark block. -/
structure Rec where
  sq : SqRef
  tag : Nat
  status : Nat
  cause : Nat
  regulated : Bool
  mark : Option (List Byte)
  outMark : Option (List Byte)
  index : Nat
  gmcDone : Nat
  waited : Nat
  result : Nat
  irq : Bool
  deriving DecidableEq, Repr

/-- Where a job stands (spec/07). -/
inductive JobPhase where
  /-- Accepted at hand-over; its own opcode's rules have not yet been applied. -/
  | admitted
  /-- In the delay list until the tick boundary at `due` (R316). -/
  | delayed (due : Nat)
  /-- A LAUNCH_AT waiting for its count (R553). -/
  | atCount (count : Nat)
  /-- In the ready list of priority `prio` since GMC count `since`. -/
  | ready (prio since : Nat)
  /-- At least one task or the engine has started. -/
  | running
  /-- An ACQUIRE waiting in a pawl's queue. -/
  | waiting
  /-- Ended; its output Mark is being formed before its record is written (R567). -/
  | marking
  deriving DecidableEq, Repr

/-- A running task: its index, its tile, and the address of its argument block (R291). -/
structure TaskRun where
  index : Nat
  tile : Nat
  arg : Nat
  /-- The task's Cog job and stream registers (R612), which its program sets. -/
  cogJob : Nat
  cogStream : Nat
  deriving DecidableEq, Repr

/-- A job of the Hopper's table. -/
structure Job where
  /-- Package-wide acceptance number. -/
  id : Nat
  part : Nat
  sq : SqRef
  seq : Nat
  index : Nat
  desc : List Byte
  /-- GMC count at which its doorbell was accepted (R255), and the conditions word then in force. -/
  arrival : Nat
  cond : Nat
  /-- GMC count at which the Hopper accepted it. -/
  accepted : Nat
  phase : JobPhase
  /-- Tasks of the job, and the next to dispatch. -/
  tasks : Nat
  next : Nat
  running : List TaskRun
  /-- Lowest-indexed task that ended with a status other than DONE: index, status, cause. -/
  worst : Option (Nat × Nat × Nat)
  /-- No further dispatch (R304, R294). -/
  stopped : Bool
  /-- CTX_KILL is ending the job (R294). -/
  killed : Bool
  /-- GMC count of the start of execution (R306). -/
  started : Option Nat
  /-- A sluice delayed its memory traffic (R425). -/
  regulated : Bool
  /-- The job started late or while the GMC was not locked: a DONE_DEGRADED cause (R553). -/
  degraded : Nat
  /-- The partition's WEIGHTS_MARK when the operation was accepted (R561). -/
  weights : Nat
  /-- Its Tally record is still owed (R575). -/
  tally : Bool
  /-- The Mark's program and input digests, once formed (R560, R566), and the output regions of a mark list (R563). -/
  progMark : List Byte
  inMark : Option (List Byte)
  outs : List (Nat × Nat)
  /-- The header address of the epoch that a CHECK or PLAN has captured (R720); 0 where its world had none. -/
  epoch : Option Nat
  /-- A result held while the output Mark is formed: status, cause, result. -/
  outcome : Option (Nat × Nat × Nat)
  deriving DecidableEq, Repr

/-- A Tailrace entry: an accepted descriptor of an ordered flow and, once it has finished, its record. -/
structure TrEntry where
  part : Nat
  flow : Nat
  job : Nat
  seq : Nat
  record : Option Rec
  deriving DecidableEq, Repr

/-- A queued ACQUIRE. -/
structure PawlWaiter where
  who : PawlAsker
  ctx : Nat
  lease : Nat
  /-- The tick boundary at which its WAIT_LIMIT falls due (R314). -/
  due : Option Nat
  deriving DecidableEq, Repr

/-- A pawl (spec/07, Pawls). -/
structure Pawl where
  /-- Owning context while held; the owning partition is the one whose range holds the pawl. -/
  owner : Option Nat
  /-- The tick boundary at which the lease falls due. -/
  leaseDue : Option Nat
  broken : Bool
  cause : Nat
  /-- Contexts that lost the pawl by a break since BROKEN was set. -/
  lost : List Nat
  waiters : List PawlWaiter
  deriving DecidableEq, Repr

/-- The Hopper. -/
structure Hopper where
  /-- The package-wide acceptance number of the next job (R296), and the job table (R287). -/
  nextId : Nat
  jobs : List Job
  /-- The Tailrace, in order of acceptance (R308). -/
  tailrace : List TrEntry
  /-- The pawls that are not free, unbroken and without waiters (R317). -/
  pawls : Tab Pawl
  /-- The partition that the Tailrace served last (R824). -/
  lastPart : Nat
  /-- The flow it released last in each partition (R312). -/
  lastFlow : Tab Nat
  /-- Several events of one ck_hub cycle are being applied: a free pawl is granted only at its rank (R325). -/
  oneCycle : Bool
  /-- The partition an engine of each kind served last (R302), by engine number. -/
  lastEngine : Tab Nat
  /-- Outcomes returned to tasks by task-side pawl requests: tile, status, cause. -/
  taskReplies : List (Nat × Nat × Nat)
  /-- Partitions whose Tally has stopped, each with the records lost so far (R578). -/
  tallyLost : Tab Nat
  /-- Partitions whose MK_ABSORB waits for its memory (R102). -/
  absorbs : List Nat
  deriving DecidableEq, Repr

/-- A completion record held until its host address is translated (R187) or the host grants posted-write credits (R823), and whether its
descriptor had become a job, whose entry it then still holds (R822). -/
structure HeldRec where
  cq : CqRef
  rec_ : Rec
  seq : Nat
  entry : Bool
  deriving DecidableEq, Repr

/-- A host access that waits for an ATS translation (R187): a read of `len` bytes or a write of `bytes`; for a COPY whose own read failed
after them, that failure. -/
structure HeldAccess where
  which : HostAccess
  fn : Nat
  addr : Nat
  len : Nat
  bytes : List Byte
  bad : Option (Nat × Nat × Nat)
  deriving DecidableEq, Repr

/-- A host read: its number, what it is for, its function, host address and length, whether it goes over CXL.cache, and whether its response
is to be sunk because its partition has been reset (R74). -/
structure SentRead where
  id : Nat
  which : HostRead
  fn : Nat
  addr : Nat
  len : Nat
  cxl : Bool
  sunk : Bool
  deriving DecidableEq, Repr

/-- Posted traffic for the host that waits for credits (R823): an interrupt message, a completion record, or a data write of a job. -/
inductive Stalled where
  | msix (fn vector : Nat)
  | record (h : HeldRec)
  | data (h : HeldAccess)
  deriving DecidableEq, Repr

/-- The host port and set-up space (spec/05). -/
structure HostLink where
  vfEnable : Bool
  numVfs : Nat
  /-- Functions (0 the PF, m a VF) in D3hot, one bit each. -/
  d3 : Nat
  /-- Functions with ATS enabled, one bit each. -/
  ats : Nat
  /-- The ATS translation cache: function and 4 KiB host page (R182). -/
  atc : List (Nat × Nat)
  /-- Functions with MSI-X enabled, one bit each; vectors whose Mask bit is 0; vectors pending in the PBA. -/
  msixOn : Nat
  unmasked : List (Nat × Nat)
  pba : List (Nat × Nat)
  /-- The message address and data of each MSI-X table entry, by function × 2,048 + vector; zero where not listed (R186). -/
  msixTab : Tab (Nat × Nat)
  /-- Base addresses of BAR0 and BAR2, by function × 2 + 0 or 1; zero where not listed (R186). -/
  bars : Tab Nat
  /-- Host reads outstanding, oldest first, the number of the next, and the reads ready to leave that wait for a tag (R182). -/
  reads : List SentRead
  nextRead : Nat
  tagless : List SentRead
  /-- ATS invalidations not yet answered: the function, and the numbers of the reads that used the invalidated translations and are still
  outstanding (R188). -/
  invs : List (Nat × List Nat)
  /-- Posted-write credits the host has granted; none while it withholds none. The traffic that waits for them, oldest first (R823). -/
  credits : Option Nat
  stalled : List Stalled
  /-- Reads and data writes waiting for a translation. -/
  waits : List HeldAccess
  /-- Completion records waiting for a translation. -/
  held : List HeldRec
  /-- Shared lines held over CXL.cache: partition and line (R191, R243). -/
  lines : List (Nat × Nat)
  /-- Lines whose last read failed and is to be repeated after POLL_NS (R280). -/
  retry : List (Nat × Nat)
  /-- Partitions whose VF has ceased to exist while one of their rings is not OFF, one bit each (R882). -/
  orphans : Nat
  /-- The count of the last poll or failed read of each doorbell-page line, by partition × 8 + line (R245, R280). -/
  lastPoll : Tab Nat
  /-- Latched high halves: requester number and register offset in one key, high half (R212). -/
  shadows : Tab Nat
  /-- Offsets of the registers whose COLLIDE bit is set (R209). -/
  collide : List Nat
  deriving DecidableEq, Repr

/-- What a tile holds beyond its registers (spec/12). -/
structure Tile where
  /-- TAKE_OUT was set while a task runs: the tile enters OUT after it (R625). -/
  leaving : Bool
  /-- An error of the tile's own ends its task: the tile then leaves the pool (R623). -/
  fault : Bool
  /-- Jobs accepted before this acceptance number get no task here (R301). -/
  since : Nat
  /-- The running task: job and task index. -/
  task : Option (Nat × Nat)
  /-- The task has finished with this status and cause and waits for its buffered bytes to be flushed (R379). -/
  ending : Option (Nat × Nat)
  /-- A pawl RELEASE of the task that waits for its buffered bytes: pawl and MENDED (R379). -/
  releasing : Option (Nat × Bool)
  deriving DecidableEq, Repr

/-- The event log or the violation log: slots written, by slot number. -/
structure Log where
  /-- The 32 bytes of each record, by slot. -/
  slots : Tab (List Byte)
  /-- Records that wait for the log, counted by detecting block (R834). -/
  waiting : Tab Nat
  deriving DecidableEq, Repr

/-- One section of a loaded image's table (R128). -/
structure Section where
  type : Nat
  ignorable : Bool
  offset : Nat
  length : Nat
  dest : Nat
  deriving DecidableEq, Repr

/-- The configuration controller's progress (spec/04). -/
inductive LoadPhase where
  /-- No sequence runs: before PERST# rises, or after release. -/
  | idle
  /-- An attempt on source number `k` of the order of R123 may start. -/
  | attempt (k : Nat)
  /-- Steps 1 to 8 passed; the body is being read. -/
  | body (k : Nat)
  /-- The tag and contents passed (steps 9, 10). -/
  | tagged (k : Nat)
  /-- Every source failed in halt mode (R157). -/
  | halted
  /-- Every source failed in retry mode; a new sequence starts 100 ms later, at this time. -/
  | backoff (due : Nat)
  deriving DecidableEq, Repr

/-- A slot operation in progress (R172, R173). -/
structure SlotOp where
  op : Nat
  slot : Nat
  result : Nat
  /-- Bytes to program, and those programmed so far; the read of the image has not ended. -/
  len : Nat
  done : Nat
  reading : Bool
  deriving DecidableEq, Repr

/-- A slot session over MCTP (R229 to R231). -/
structure SlotSession where
  slot : Nat
  length : Nat
  next : Nat
  since : Nat
  deriving DecidableEq, Repr

/-- The configuration controller, the NVM die and the scrubber (spec/04). -/
structure Loader where
  phase : LoadPhase
  /-- The straps at the pins: CFG_SRC, CFG_FAIL_MODE, CHAIN_FIRST. -/
  pinSrc : Nat
  pinFail : Nat
  pinChain : Nat
  /-- CFG_ERR# is driven low: an attempt of the running sequence has failed (R156). -/
  cfgErr : Bool
  /-- CFG_DONE is driven high: an image has been loaded (R149). -/
  cfgDone : Bool
  /-- Bytes received on the chain input that belong to the package's own segment. -/
  chainIn : List Byte
  /-- IMAGE_LEN of the chain segment once its header is known. -/
  chainLen : Option Nat
  /-- No byte is taken: step 2 failed on the chain input, so nothing is forwarded (R164). -/
  chainMute : Bool
  /-- The time from which the first chain byte is waited for: PERST#, or the start of a retry sequence. -/
  chainLast : Nat
  /-- The time of the last byte on the chain input. -/
  chainAt : Option Nat
  /-- An attempt on the chain input waits for a new stream (R165, R166). -/
  chainArmed : Bool
  /-- Chain bytes sent on CFG_OUT. -/
  chainOut : List Byte
  /-- The image of the running attempt: its bytes and its section table. -/
  image : List Byte
  sections : List Section
  /-- Decrypted body of the running attempt, held where it cannot take effect (R143). -/
  plain : List Byte
  /-- A sequence has failed in retry mode since the last reset: a later one runs or waits (R158, R233). -/
  retrying : Bool
  /-- DATA sections still to land. -/
  toLand : List Section
  /-- Which of the two dies and stacks have passed step 11: bits 0, 1 dies; 2, 3 stacks. -/
  selfTest : Nat
  /-- The tests of step 11 have ended; those that failed are repeated only in a retry sequence (R161). -/
  tested : Bool
  /-- Tier S training is done. -/
  tsTrained : Bool
  /-- The step 12 check has passed. -/
  step12 : Bool
  /-- The NVM die's bytes that differ from erased. -/
  nvm : Mem
  /-- The fuse key, 32 bytes. -/
  fuseKey : List Byte
  slotOp : Option SlotOp
  session : Option SlotSession
  /-- The Tenter bitstream's configuration frames that hold a nonzero byte, by frame. -/
  frames : Tab (List Byte)
  /-- Bits in which a 64-bit word of a frame, with its 8 check bits from 64 up, differs from what was last written with matching check
  bits, by frame × 16 + word (R177). -/
  upsets : Tab (List Nat)
  /-- The ESSENTIAL_MAP of the loaded image. -/
  emap : List Byte
  bitstream : Bool
  /-- GENERATION of the source slot when the image was loaded (R179), and where its body and bitstream lie. -/
  loadedGen : Nat
  loadedSlot : Option Nat
  loadedIv : List Byte
  loadedBody : Nat
  loadedBits : Nat
  /-- Boundary-scan instruction loaded in the TAP (R855). -/
  tap : Nat
  deriving DecidableEq, Repr

/-- Management over MCTP and SPDM (spec/05, spec/19). -/
structure Mgmt where
  /-- SPDM connection state of each binding (0 PCIe VDM, 1 SMBus/I2C, from the bus or the TAP): 0 none, 1 version, 2 capabilities, 3 algorithms. -/
  spdm : Tab Nat
  /-- The partial packet on the I2C bus, and the one from the TAP (R861, R864). -/
  i2cPart : List Byte
  tapPart : List Byte
  /-- The message being assembled from the TAP's packets; the address, endpoint and tag its requester gave. -/
  tapMsg : List Byte
  tapFrom : Nat × Nat × Nat
  /-- Response bytes waiting for Capture-DR, each with START in bit 8 and VALID in bit 9 (R862). -/
  tapOut : List Nat
  /-- The values preloaded into the boundary register. -/
  boundary : Nat
  deriving DecidableEq, Repr

/-- What the package sends. -/
inductive Out where
  /-- A posted write to host memory through a function. -/
  | hostWrite (fn addr : Nat) (bytes : List Byte)
  /-- A read of host memory. -/
  | hostRead (fn addr len : Nat)
  /-- An ATS Translation Request. -/
  | atsRequest (fn page : Nat)
  /-- An MSI-X message, with the address and data of its table entry. -/
  | msix (fn vector addr data : Nat)
  /-- A response to a set-up read. -/
  | regRead (who : Requester) (value : Nat)
  /-- An ATS Invalidation Completion. -/
  | atsDone (fn : Nat)
  /-- A response to a PCIe configuration request: retry status, or served, with the value read. -/
  | cfgRetry
  | cfgServed (value : Nat)
  /-- CXL.cache: an RdShared or CleanEvict for a line, and a snoop response that keeps or drops the line. -/
  | rdShared (part line : Nat)
  | cleanEvict (part line : Nat)
  | snoopKeep (part line : Nat)
  | snoopInv (part line : Nat)
  /-- A packet of an MCTP message (control, Oszoed or SPDM) on a binding: its number, how many there are, and its payload. -/
  | mctp (binding packet count : Nat) (bytes : List Byte)
  /-- A flit on an Mbary port: the 256 bytes of R459, and its number since ALIGN, which places it in the lanes' scrambling
  sequences (R452). -/
  | flit (port line : Nat) (bytes : List Byte)
  /-- An Ethernet frame. -/
  | frame (port : Nat) (bytes : List Byte)
  /-- Data returned to a tile register, or a status that ends the access. -/
  | tileData (tile : Nat) (bytes : List Byte)
  | tileStatus (tile status cause : Nat)
  /-- A line to a Miller core: its interrupt, timer interrupt or access fault. -/
  | coreLine (core line : Nat)
  | coreTimer (core : Nat)
  | coreFault (core : Nat)
  | coreData (core : Nat) (bytes : List Byte)
  /-- A Miller core starts at its entry address (R149). -/
  | coreStart (core entry : Nat)
  /-- Data shifted out of the TAP. -/
  | tdo (bits value : Nat)
  /-- What the boundary register drives on the pins; none when they float. -/
  | pins (value : Option Nat)
  /-- Both lines of the management I2C port released. -/
  | i2cRelease
  deriving DecidableEq, Repr

-- Memory (spec/08, spec/09) ---------------------------------------------------------------------------------------------

/-- A run of a placement table (R344): `count` partition units from `punit`, striped over `ways` stacks or channels from
`first`, at index `idx` on; `tier` 0 F, 1 S. -/
structure Run where
  punit : Nat
  count : Nat
  tier : Nat
  ways : Nat
  first : Nat
  idx : Nat
  prefF : Bool
  deriving DecidableEq, Repr

/-- A translation-cache entry (R362): `size` units from `base` of one package and partition, lying inside one run. -/
structure TcEntry where
  die : Nat
  pkg : Nat
  part : Nat
  base : Nat
  size : Nat
  run : Run
  deriving DecidableEq, Repr

/-- A translation fill under way (R363, R367): the table's answer when it was read, and whether an invalidation of its block
came after. -/
structure Fill where
  die : Nat
  pkg : Nat
  part : Nat
  unit : Nat
  found : Option Run
  stale : Bool
  deriving DecidableEq, Repr

/-- A write-combining entry (R374): a 128-byte line, the bytes its mask names by offset, the tiles whose running tasks have
bytes in it, the count of its last store, and whether it is being flushed. -/
structure WcEntry where
  die : Nat
  pkg : Nat
  part : Nat
  line : Nat
  bytes : Tab Byte
  tiles : List Nat
  since : Nat
  flushing : Bool
  /-- Its flush has been sent to the other package. -/
  sent : Bool
  /-- Its flush has waited on a sluice, and the part of its charge already taken. -/
  waited : Bool
  paid : Nat
  deriving DecidableEq, Repr

/-- Why a request of an access has not been served. -/
inductive ReqWait where
  /-- It may be tried. -/
  | go
  /-- A gather that waits for room in its die's Spout port (R385). -/
  | port
  /-- It waits for a translation fill. -/
  | fill
  /-- It has been sent to another package under a tag. -/
  | reply (tag : Nat)
  deriving DecidableEq, Repr

/-- One request of the sector path (R373, R888), or one sector of a gather (R383): `len` bytes at `addr`, which are the bytes from `off` of
the access's data; its physical local address once translated; whether it has already waited on a sluice, and the part of its charge
already taken; of a read sent to another package, the bytes the die's write-combining buffer held for it then, by offset (R376). -/
structure Req where
  addr : Nat
  len : Nat
  off : Nat
  phys : Option Nat
  wait : ReqWait
  waited : Bool
  paid : Nat
  wcSnap : Tab Byte
  deriving DecidableEq, Repr

/-- What an access does and where its data goes. -/
inductive AccKind where
  /-- A tile load into a vector register. -/
  | load (reg : Nat)
  | store
  /-- A Spout gather of elements of one size into a vector register. -/
  | gather (reg size : Nat)
  /-- The read side and the write side of a COPY. -/
  | copyIn
  | copyOut
  deriving DecidableEq, Repr

/-- Who made an access. -/
inductive AccWho where
  | tile (t : Nat)
  | job (id : Nat)
  /-- A Miller core through its memory window (R781). -/
  | core (c : Nat)
  deriving DecidableEq, Repr

/-- An access under way: its requests not yet served, its data (read so far, or to be written), and the lowest-numbered
failure: offset, status, cause. -/
structure Access where
  id : Nat
  kind : AccKind
  who : AccWho
  part : Nat
  /-- The grind die it is issued on; 2 for the hub. -/
  die : Nat
  crit : Bool
  todo : List Req
  /-- Addresses of its elements, or of its first byte. -/
  elems : List Nat
  data : List Byte
  bad : Option (Nat × Nat × Nat)
  deriving DecidableEq, Repr

/-- What a stored sector carries beyond its data (R392, R394): poison, and the error in its stored symbols as symbol number and
XOR value. -/
structure SecFault where
  poison : Bool
  err : List (Nat × Nat)
  deriving DecidableEq, Repr

/-- Correctable errors of a row in the running patrol period, and whether its remap is owed: it has reached its limit or met an
uncorrectable error (R402, R408). -/
structure RowErr where
  ce : Nat
  owed : Bool
  deriving DecidableEq, Repr

/-- A sluice as applied at its last refill (R424): enabled, rate and burst in force, level in bytes. `run` while it keeps a
level. -/
structure Sluice where
  run : Bool
  en : Bool
  rate : Nat
  burst : Nat
  level : Int
  deriving DecidableEq, Repr

/-- Bytes of an operation's memory traffic that its partition's sluices have admitted while it could not yet run as a whole, by sluice, and
where it last waited: the sluice, and the bytes it had asked of it before (R421, R422). -/
structure EngDue where
  paid : Tab Nat
  at_ : Option (Nat × Nat)
  deriving DecidableEq, Repr

/-- Why an operation cannot run now: a tier F stack that cannot be reached, an earlier access to one of its sectors or lines, no place in
a die's write-combining buffer, or a sluice, with the bytes asked of it before. -/
inductive EngStall where
  | unreachable (memory : Nat)
  | busy
  | full (die : Nat)
  | sluice (ix at_ : Nat)
  deriving DecidableEq, Repr

/-- The operation that runs within the step: what its sluices have admitted, the bytes it has asked of each, what stops it, and whether it
only looks, which charges nothing. Empty between steps. -/
structure EngRun where
  due : EngDue
  used : Tab Nat
  stall : Option EngStall
  peek : Bool
  deriving DecidableEq, Repr

/-- A line of a world-node cache (R725): die, partition, physical address and its 64 bytes. -/
structure NodeLine where
  die : Nat
  part : Nat
  phys : Nat
  bytes : List Byte
  deriving DecidableEq, Repr

/-- The memory system. Memory number k is stack k for 0 and 1 and channel k - 2 from 2 to 9. -/
structure MemSys where
  /-- Each partition's placement table, in PUNIT order. -/
  runs : Tab (List Run)
  /-- Each partition's applied quotas of tier F and tier S units (R219). -/
  quotas : Tab (Nat × Nat)
  /-- PRELOADED index intervals of each memory, half-open, ascending. -/
  preloaded : Tab (List (Nat × Nat))
  /-- The translation caches of both dies, oldest use first (R362). -/
  tc : List TcEntry
  /-- Translation fills under way (R363). -/
  fills : List Fill
  /-- Write-combining entries of both dies, oldest first (R374). -/
  wc : List WcEntry
  /-- The number of the next access, and the accesses under way, in order of issue (R373). -/
  nextAcc : Nat
  accs : List Access
  /-- Sectors that carry poison or errors, by physical address / 32 (R392). -/
  sectors : Tab SecFault
  /-- Rows that have met errors in the running patrol period, by memory number and row key (R402). -/
  rows : Tab (Tab RowErr)
  /-- Rows remapped live since the controller was last set up, by row key of each stack (R407). -/
  remapped : Tab (List Nat)
  /-- When each memory's last patrol pass started (R399). -/
  patrols : Tab Nat
  /-- Banks without a spare row, by stack: pseudo-channel × 64 + BANK (R406). -/
  spareOut : Tab (List Nat)
  /-- Tier S rows already recorded for repair, by channel (R408). -/
  recorded : Tab (List Nat)
  /-- Correctable errors of each device, by channel × 32 + device (R409). -/
  devCe : Tab Nat
  /-- The DIMM fitted to each channel (R339). -/
  dimms : Tab Dimm
  /-- The sluices, by partition × 10 + memory (R419). -/
  sluices : Tab Sluice
  /-- Vector registers, by tile × 32 + register; 1,024 bytes each, zero where not listed (R587). -/
  vregs : Tab (List Byte)
  /-- World-node cache lines of both dies (R725). -/
  nodes : List NodeLine
  /-- The partition whose bulk access was served last (R417). -/
  lastBulk : Nat
  /-- What waiting operations have been admitted, by agent (R421). -/
  dues : Tab EngDue
  /-- The operation that runs within the step (R421). -/
  eng : EngRun
  deriving DecidableEq, Repr

-- The Mbary fabric (spec/10) --------------------------------------------------------------------------------------------

/-- A message with its type (R476). -/
structure FMsg where
  mtype : Nat
  m : Msg
  deriving DecidableEq, Repr

/-- A message waiting on a port in a pool: its bytes and how many of its flits have been sent. -/
structure TxMsg where
  bytes : List Byte
  sent : Nat
  deriving DecidableEq, Repr

/-- A DATA flit in the retry buffer: SEQ, FIRST and LAST, pool, body. -/
structure RFlit where
  seq : Nat
  mark : Nat
  pool : Nat
  body : List Byte
  deriving DecidableEq, Repr

/-- An Mbary port beyond its registers (R454 to R475, R498 to R503). -/
structure Port where
  /-- Messages waiting, by pool. -/
  txq : Tab (List TxMsg)
  /-- The partner's CREDITS_INIT and RETRY_DEPTH, what it has reported freed, and what has been sent, by pool. -/
  init : List Nat
  freed : List Nat
  sent : List Nat
  retry : List RFlit
  nextTx : Nat
  nextRx : Nat
  /-- A DATA flit has been received in order since STANDBY (ACK_VALID). -/
  acked : Bool
  /-- NAK was set for the running error (R465). -/
  nakSent : Bool
  /-- Flits freed here since STANDBY, and request flits held, by pool. -/
  rxFreed : List Nat
  rxHeld : List Nat
  /-- The message being received in each pool; none while its rest is being dropped. -/
  rx : Tab (Option (List Byte))
  /-- Start SEQ of the last replay and how many in a row started there (R468). -/
  replayAt : Nat
  replays : Nat
  /-- The last TS flit of the partner, how many identical ones came in a row, whether the partner has acknowledged, KEEP_SEQ and
  NEXT_SEQ (R454, R455, R458). -/
  ts : List Byte
  tsSame : Nat
  tsAck : Bool
  tsKeep : Bool
  tsNext : Nat
  /-- Epoch of the latest offence and offences made on probation (R501, R502). -/
  offEpoch : Nat
  offs : Nat
  /-- The epoch at which the port is to be fenced or to join. -/
  fenceAt : Option Nat
  joinAt : Option Nat
  /-- The partner's JOIN_AT has come. -/
  agreed : Bool
  /-- Pools served last in the two round-robin pairs of R475. -/
  turn53 : Nat
  turn42 : Nat
  /-- Flits of other pools sent since the last one of pool 6, up to 15 (R475). -/
  since6 : Nat
  /-- Flits sent since ALIGN: the place in the lanes' scrambling sequences (R452). -/
  line : Nat
  deriving DecidableEq, Repr

/-- A request of this package without a response (R473, R479): its tag, destination and partition, the access and the request it
serves, or the fill of a translation, the GMC count when it was sent. -/
structure OutReq where
  tag : Nat
  ty : Nat
  dest : Nat
  addr : Nat
  part : Nat
  /-- Access and request offset; none for a translation or a flush. -/
  acc : Option (Nat × Nat)
  /-- A flush of a write-combining line: die and line. -/
  wc : Option (Nat × Nat)
  sentAt : Nat
  /-- Its partition was reset: the response is sunk (R74). -/
  sunk : Bool
  deriving DecidableEq, Repr

/-- A request from another package that is being served: the port and pool whose buffer holds it, its flits, and whether it has
waited on a sluice. -/
structure InReq where
  port : Nat
  pool : Nat
  flits : Nat
  msg : FMsg
  waited : Bool
  paid : Nat
  /-- Its place among the accesses of this package, in order of arrival. -/
  seq : Nat
  deriving DecidableEq, Repr

/-- A hold entry (R528): origin, hold count, resume count once a RESUME has come, count of the last refresh. -/
structure HoldEntry where
  origin : Nat
  hold : Nat
  resume : Option Nat
  at_ : Nat
  deriving DecidableEq, Repr

/-- A running collective operation at this member (R512 to R521). -/
structure CollOp where
  group : Nat
  job : Nat
  seq : Nat
  /-- The chunk being reduced, the next chunk to send down, chunks received from above. -/
  chunk : Nat
  down : Nat
  got : Nat
  /-- This member's accumulator so far and the next child rank to combine. -/
  acc : List Byte
  child : Nat
  /-- Chunks sent and not acknowledged, by member rank. -/
  unacked : Tab (List Nat)
  /-- Chunks to be sent down that wait for room, each with the ranks still to be served. -/
  toSend : List (Nat × List Nat × List Byte)
  /-- The GMC count since which it has waited. -/
  since : Nat
  deriving DecidableEq, Repr

/-- A COLL_UP chunk waiting in a group's reserved buffer (R519): source rank, SEQ, chunk, and the message. -/
structure CollIn where
  group : Nat
  seq : Nat
  rank : Nat
  msg : FMsg
  deriving DecidableEq, Repr

/-- The fabric. -/
structure Fabric where
  /-- The eight Mbary ports (R446). -/
  ports : Tab Port
  /-- The FLOOD_ID of the next message of this origin (R495). -/
  floodId : Nat
  /-- The last FLOOD_ID seen of each origin (R496). -/
  seen : Tab Nat
  /-- The tag of the next request, and the requests without a response (R473). -/
  nextTag : Nat
  reqs : List OutReq
  /-- Tags of requests that timed out, whose responses may still come (R479). -/
  late : List Nat
  /-- Answers of other packages to the requests an engine sends within the running step; empty between steps. -/
  replies : List Reply
  /-- Requests of other packages being served here (R473). -/
  inreqs : List InReq
  /-- Destinations whose route changed, with the tags that must be answered first, and the requests held (R481). -/
  drains : List (Nat × List Nat)
  parked : List FMsg
  /-- Tags of requests that were let go and could not leave; empty between steps. -/
  unsent : List Nat
  /-- Link changes not yet in force: bit, down, effective epoch (R492, R493). -/
  changes : List (Nat × Bool × Nat)
  /-- Hold entries (R528). -/
  holds : List HoldEntry
  /-- The count at which the running hold, local or of the fabric, began (R521, R526). -/
  holdFrom : Nat
  /-- Collective operations that run at this member (R512). -/
  colls : List CollOp
  /-- COLL_UP chunks in the groups' reserved buffers (R519). -/
  collIn : List CollIn
  /-- COLL_DOWN chunks that have come and wait to be stored (R514). -/
  collDown : List Msg
  /-- Aborts received for operations not yet submitted: group, SEQ, cause (R523). -/
  aborts : List (Nat × Nat × Nat)
  /-- Next SEQ of each group (R508). -/
  nextSeq : Tab Nat
  deriving DecidableEq, Repr

/-- GMC synchronisation (spec/11): per port the SEQ of the next SYNC, the T1 of the last 16 sent, and the SEQ and receive stamp of
the latest received. -/
structure GmcSync where
  txSeq : Tab Nat
  kept : Tab (List (Nat × Nat))
  rx : Tab (Nat × Nat)
  /-- Consecutive used exchanges within 64, and the count of the last used exchange (R547, R548). -/
  good : Nat
  lastUsed : Nat
  /-- The step of R544 has been taken. -/
  stepped : Bool
  /-- LOCKED has been reached by following a parent since the release edge. -/
  followed : Bool
  /-- A root has received its first SYNC, and the port whose count it is to take (R538). -/
  firstSync : Bool
  rejoin : Option Nat
  /-- Counts still to be gained or lost by slewing, and ck_gmc since the last slew cycle (R545). -/
  slew : Int
  sinceSlew : Nat
  deriving DecidableEq, Repr

/-- Everything the package holds but the command queue. -/
structure Block where
  /-- The register file: the fields of the tables above. -/
  regs : RegFile
  /-- Local physical memory: tier F, tier S and the SRAM apertures (R19). -/
  mem : Mem
  /-- The global mill count (R534). -/
  gmc : Nat
  /-- The parts, one structure for each block of the spec. -/
  pwr : Power
  dies : List Die
  cfg : Loader
  mgmt : Mgmt
  link : HostLink
  sqs : Tab SqAux
  cqs : Tab CqAux
  hop : Hopper
  ms : MemSys
  fab : Fabric
  gs : GmcSync
  gov : Gov
  svc : Svc
  tiles : Tab Tile
  evt : Log
  vio : Log
  /-- What the package has sent, oldest first. -/
  out : List Out
  /-- The number of free values taken so far: the model's own field, read only through `freeNat`. -/
  free : Nat
  deriving DecidableEq, Repr

/-- The machine: the package and the commands that wait, first in first out. -/
structure State where
  blk : Block
  pending : List Instr
  deriving DecidableEq, Repr

/-- Why the machine stops with a fault. No command of this hardware does: every error of the spec is a status, a record or
an interrupt of a next state. -/
inductive Fault where
  /-- A command names something that no 4400 has (an operand that `Instr.wf` refuses); raised by no meaning. Safe. -/
  | noSuchUnit
  deriving DecidableEq, Repr

/-- Why a command has no meaning. -/
inductive Refusal where
  /-- The command's meaning has not been written; raised by Dispatch alone. Safe. -/
  | notModelled (mnemonic : String)
  deriving DecidableEq, Repr

def Power.reset : Power :=
  { mainUp := false, vbatMv := 0, pattern := false, perst := false, released := false, nextCause := 1, crossing := none,
    krData := [0, 0, 0, 0, 0, 0, 0, 0], keyRam := none, zeroOwed := false, furl := .a0, furlDue := 0, wakeHeld := false,
    pairSleep := 0, pairLast := [],
    lost := 0, now := 0, aonPhase := 0, kept := false }

def Die.reset : Die :=
  { a1 := false, idleTicks := 0, worked := false, gated := false, recovering := false, tripped := false, change := none, byGov := false,
    lastCode := 0x20, want := 0x20, thermCode := 0x24, capCode := 0x24, railCode := 0x24, byRail := false, thermThr := 0, capThr := 0 }

def Pawl.reset : Pawl := { owner := none, leaseDue := none, broken := false, cause := 0, lost := [], waiters := [] }

def SqAux.reset : SqAux := { accepts := [], fetches := [], queue := [], nextSeq := 0, handed := 0, live := [], lastWord := 0, lastFailed := false }

def Tile.reset : Tile := { leaving := false, fault := false, since := 0, task := none, ending := none, releasing := none }

def CqAux.reset : CqAux := { p := 0, firstAt := 0, lastWord := 0, rsv := 0 }

def Hopper.reset : Hopper :=
  { nextId := 0, jobs := [], tailrace := [], pawls := [], lastPart := 7, lastFlow := [], oneCycle := false, lastEngine := [], taskReplies := [],
    tallyLost := [], absorbs := [] }

def HostLink.reset : HostLink :=
  { vfEnable := false, numVfs := 0, d3 := 0, ats := 0, atc := [], msixOn := 0, unmasked := [], pba := [], msixTab := [], bars := [], reads := [], nextRead := 0, tagless := [],
    invs := [], credits := none, stalled := [], waits := [], held := [], lines := [], retry := [], orphans := 0, lastPoll := [], shadows := [], collide := [] }

def Loader.reset : Loader :=
  { phase := .idle, pinSrc := 0, pinFail := 0, pinChain := 0, cfgErr := false, cfgDone := false, chainIn := [],
    chainLen := none, chainMute := false, chainLast := 0, chainAt := none, chainArmed := false, chainOut := [], image := [], sections := [], plain := [], retrying := false,
    toLand := [], selfTest := 0, tested := false, tsTrained := false, step12 := false, nvm := [], fuseKey := zeros 32, slotOp := none,
    session := none, frames := [], upsets := [], emap := [], bitstream := false, loadedGen := 0, loadedSlot := none, loadedIv := [],
    loadedBody := 0, loadedBits := 0, tap := 2 }

def Port.reset : Port :=
  { txq := [], init := [0, 0, 0, 0, 0, 0, 0], freed := [0, 0, 0, 0, 0, 0, 0], sent := [0, 0, 0, 0, 0, 0, 0], retry := [],
    nextTx := 0, nextRx := 0, acked := false, nakSent := false, rxFreed := [0, 0, 0, 0, 0, 0, 0],
    rxHeld := [0, 0, 0, 0, 0, 0, 0], rx := [], replayAt := 0, replays := 0, ts := [], tsSame := 0, tsAck := false,
    tsKeep := false, tsNext := 0, offEpoch := 0, offs := 0, fenceAt := none, joinAt := none, agreed := false, turn53 := 3, turn42 := 2,
    since6 := 15, line := 0 }

def Fabric.reset : Fabric :=
  { ports := [], floodId := 0, seen := [], nextTag := 0, reqs := [], late := [], replies := [], inreqs := [], drains := [], parked := [], unsent := [], changes := [],
    holds := [], holdFrom := 0, colls := [], collIn := [], collDown := [], aborts := [], nextSeq := [] }

def GmcSync.reset : GmcSync :=
  { txSeq := [], kept := [], rx := [], good := 0, lastUsed := 0, stepped := false, followed := false, firstSync := false,
    rejoin := none, slew := 0, sinceSlew := 5000 }

def EngDue.none : EngDue := { paid := [], at_ := .none }

/-- No operation runs. -/
def EngRun.none : EngRun := { due := EngDue.none, used := [], stall := .none, peek := false }

def MemSys.reset : MemSys :=
  { runs := [], quotas := [], preloaded := [], tc := [], fills := [], wc := [], nextAcc := 0, accs := [], sectors := [], rows := [],
    remapped := [], patrols := [], spareOut := [], recorded := [], devCe := [], dimms := [], sluices := [], vregs := [], nodes := [],
    lastBulk := 7, dues := [], eng := EngRun.none }

def Gov.reset : Gov := { fails := [0, 0, 0, 0, 0], fabricHold := false, localHold := false }

def Svc.reset : Svc :=
  { phc := 0, stamps := [], rejects := [], rejSeq := [], seen := [], kicks := [], sweeps := [], plans := [], packs := [], seqs := [],
    userPins := none, userHold := 0, heldFrames := [] }

def Mgmt.reset : Mgmt :=
  { spdm := [], i2cPart := [], tapPart := [], tapMsg := [], tapFrom := (0, 0, 0), tapOut := [], boundary := 0 }

def Block.reset : Block :=
  { regs := [], mem := [], gmc := 0, pwr := Power.reset, dies := [Die.reset, Die.reset], cfg := Loader.reset,
    mgmt := Mgmt.reset, link := HostLink.reset, sqs := [], cqs := [], hop := Hopper.reset, ms := MemSys.reset,
    fab := Fabric.reset, gs := GmcSync.reset, gov := Gov.reset, svc := Svc.reset, tiles := [], evt := { slots := [], waiting := [] },
    vio := { slots := [], waiting := [] }, out := [], free := 0 }

/-- The machine before any command: no power has been applied, every register holds its reset value, memory lists nothing
and no command waits. -/
def State.reset : State := { blk := Block.reset, pending := [] }

end Sys2Proof.Machine
end

