-- ==== Sys2Proof/Machine/Ops.lean ====
section
/-! DEFINITION. The shared operations: register fields, memory, the tick, free values, what the package sends, and the event and
violation logs. Every other file of the machine reads and writes registers, memory and logs through these. -/

namespace Sys2Proof.Machine

-- Register fields --------------------------------------------------------------------------------------------------

/-- The reset value of instance `i` of a field. -/
def Fld.resetVal (f : Fld) (i : Nat) : Nat := (f.desc.reset + f.desc.step * i) % 2 ^ f.desc.width

/-- The order of register cells: by field in table order, then by instance. -/
def cellLt (f : Fld) (i : Nat) (g : Fld) (j : Nat) : Bool := f.ctorIdx < g.ctorIdx || (f.ctorIdx == g.ctorIdx && i < j)

/-- The stored value of a field, if it differs from reset. -/
def RegFile.find : RegFile → Fld → Nat → Option Nat
  | [], _, _ => none
  | (g, j, v) :: r, f, i => if g = f ∧ j = i then some v else RegFile.find r f i

/-- The register file without the cell of `f`, `i`. -/
def RegFile.drop (r : RegFile) (f : Fld) (i : Nat) : RegFile := r.filter (fun c => ¬ (c.1 = f ∧ c.2.1 = i))

/-- A cell put in its place in the order. -/
def RegFile.insert : RegFile → Fld → Nat → Nat → RegFile
  | [], f, i, v => [(f, i, v)]
  | (g, j, w) :: r, f, i, v =>
    if cellLt f i g j then (f, i, v) :: (g, j, w) :: r else (g, j, w) :: RegFile.insert r f i v

/-- The register file with field `f`, instance `i`, holding `v` cut to the field's width; a field at its reset value is not
listed. -/
def RegFile.put (r : RegFile) (f : Fld) (i v : Nat) : RegFile :=
  let w := v % 2 ^ f.desc.width
  if w = f.resetVal i then r.drop f i else (r.drop f i).insert f i w

/-- The value of a register field. -/
def Block.get (b : Block) (f : Fld) (i : Nat := 0) : Nat := (RegFile.find b.regs f i).getD (f.resetVal i)

/-- The block with a register field written. -/
def Block.set (b : Block) (f : Fld) (i v : Nat) : Block := { b with regs := b.regs.put f i v }

/-- A flag field read as a truth value. -/
def Block.on (b : Block) (f : Fld) (i : Nat := 0) : Bool := b.get f i != 0

/-- A counter field counted up by `k`, wrapping at its width. -/
def Block.bump (b : Block) (f : Fld) (i : Nat := 0) (k : Nat := 1) : Block := b.set f i (b.get f i + k)

/-- A counter field counted up by `k`, stopping at its largest value. -/
def Block.bumpSat (b : Block) (f : Fld) (i : Nat := 0) (k : Nat := 1) : Block :=
  b.set f i (satAdd f.desc.width (b.get f i) k)

/-- Bit `n` of a field set. -/
def Block.setB (b : Block) (f : Fld) (i n : Nat) : Block := b.set f i (setBit (b.get f i) n)

/-- Bit `n` of a field cleared. -/
def Block.clrB (b : Block) (f : Fld) (i n : Nat) : Block := b.set f i (clrBit (b.get f i) n)

/-- Bit `n` of a field. -/
def Block.bit (b : Block) (f : Fld) (i n : Nat) : Bool := (b.get f i).testBit n

/-- The fields for which `keep` is false, at every instance, returned to reset. -/
def Block.resetRegs (b : Block) (keep : Fld → Nat → Bool) : Block :=
  { b with regs := b.regs.filter (fun c => keep c.1 c.2.1) }

/-- The partition that instance `i` of a field belongs to, where its register belongs to one. -/
def Fld.partOf (f : Fld) (i : Nat) : Option Nat := if f.desc.part = 0 then none else some (i / f.desc.part)

-- Memory -----------------------------------------------------------------------------------------------------------

/-- The byte at address `a` of a memory whose unlisted bytes read as `d`. -/
def Mem.byte (d : Byte) : Mem → Nat → Byte
  | [], _ => d
  | (k, v) :: r, a => if k = a then v else Mem.byte d r a

/-- The memory without the cell at `a`. -/
def Mem.drop (m : Mem) (a : Nat) : Mem := m.filter (fun c => c.1 ≠ a)

/-- A cell put in its place in the order. -/
def Mem.insert : Mem → Nat → Byte → Mem
  | [], a, v => [(a, v)]
  | (k, w) :: r, a, v => if a < k then (a, v) :: (k, w) :: r else (k, w) :: Mem.insert r a v

/-- One byte written; a byte equal to what an unlisted address reads as is not listed. -/
def Mem.put (d : Byte) (m : Mem) (a : Nat) (v : Byte) : Mem :=
  if v = d then m.drop a else (m.drop a).insert a v

/-- `n` bytes from address `a`. -/
def Mem.read (d : Byte) (m : Mem) (a : Nat) : Nat → List Byte
  | 0 => []
  | n + 1 => Mem.byte d m a :: Mem.read d m (a + 1) n

/-- Bytes written from address `a` up. -/
def Mem.write (d : Byte) : Mem → Nat → List Byte → Mem
  | m, _, [] => m
  | m, a, v :: r => Mem.write d (m.put d a v) (a + 1) r

/-- The `n` bytes from `a` returned to what unlisted bytes read as. -/
def Mem.wipe (m : Mem) (a n : Nat) : Mem := m.filter (fun c => ¬ (a ≤ c.1 ∧ c.1 < a + n))

/-- The canonical form: addresses strictly rising, no entry equal to what an unlisted address reads as. -/
def Mem.wf (d : Byte) : Mem → Bool
  | [] => true
  | [(_, v)] => v != d
  | (a, v) :: (k, w) :: r => v != d && decide (a < k) && Mem.wf d ((k, w) :: r)

/-- Local physical memory: a byte that nothing has written reads as zero. -/
def Block.byte (b : Block) (a : Nat) : Byte := Mem.byte 0 b.mem a

/-- `n` bytes of local physical memory. -/
def Block.readMem (b : Block) (a n : Nat) : List Byte := Mem.read 0 b.mem a n

/-- Bytes written to local physical memory. -/
def Block.writeMem (b : Block) (a : Nat) (l : List Byte) : Block := { b with mem := Mem.write 0 b.mem a l }

/-- `n` bytes of local physical memory zeroed. -/
def Block.zeroMem (b : Block) (a n : Nat) : Block := { b with mem := b.mem.wipe a n }

/-- A little-endian number of `n` bytes of local physical memory. -/
def Block.readLe (b : Block) (a n : Nat) : Nat := ofLe (b.readMem a n)

/-- `n` bytes of the NVM die; an erased cell reads as all ones (R124). -/
def Block.readNvm (b : Block) (a n : Nat) : List Byte := Mem.read 0xFF b.cfg.nvm a n

/-- NVM bytes programmed: programming can only clear bits (R124). -/
def Block.programNvm (b : Block) : Nat → List Byte → Block
  | _, [] => b
  | a, v :: r =>
    let old := Mem.byte 0xFF b.cfg.nvm a
    let b' := { b with cfg := { b.cfg with nvm := Mem.put 0xFF b.cfg.nvm a (old &&& v) } }
    Block.programNvm b' (a + 1) r

/-- NVM bytes erased to all ones. -/
def Block.eraseNvm (b : Block) (a n : Nat) : Block := { b with cfg := { b.cfg with nvm := b.cfg.nvm.wipe a n } }

-- Blocks of the state -----------------------------------------------------------------------------------------------

def Block.die (b : Block) (d : Nat) : Die := b.dies.getD d Die.reset

def Block.setDie (b : Block) (d : Nat) (x : Die) : Block := { b with dies := b.dies.set d x }

/-- Something sent. -/
def Block.send (b : Block) (o : Out) : Block := { b with out := b.out ++ [o] }

def Block.sendAll (b : Block) (l : List Out) : Block := { b with out := b.out ++ l }

/-- A free value of `w` bits: the next one of Config. -/
def Block.freeVal (b : Block) (w : Nat) : Nat := Config.freeNat b.free % 2 ^ w

/-- The block after a free value was taken. -/
def Block.took (b : Block) : Block := { b with free := b.free + 1 }

/-- `n` free bytes, and the block after they were taken. -/
def Block.freeBytes (b : Block) (n : Nat) : List Byte × Block :=
  ((List.range n).map fun i => byteOf (Config.freeNat (b.free + i)), { b with free := b.free + n })

/-- Every block but the always-on domain is held in reset: a main rail is not good, or PERST# is low (R60). -/
def Block.inReset (b : Block) : Bool := !(b.pwr.mainUp && b.pwr.perst)

/-- The state with its package replaced, the queue left alone: what reaches the always-on domain, the power supply, the reset pins and the
TAP acts so, in every state. -/
def State.actAlways (s : State) (f : Block → Block) : Host.Outcome State Fault Refusal := .next { s with blk := f s.blk }

/-- The state with its package replaced, the queue left alone: every other command acts so, and changes nothing while its block is held
in reset (R60). -/
def State.act (s : State) (f : Block → Block) : Host.Outcome State Fault Refusal :=
  s.actAlways fun b => if b.inReset then b else f b

-- Ticks ------------------------------------------------------------------------------------------------------------

/-- The tick in GMC counts: TICK limited to 250 to 65,536 (R315). -/
def Block.tick (b : Block) : Nat := min 65536 (max 250 (b.get .HOP_TICK_TICK))

/-- The tick boundary at which `d` ticks started at count `c` fall due (R314). -/
def Block.dueAt (b : Block) (c d : Nat) : Nat := ceilDiv (c + d * b.tick) b.tick * b.tick

/-- The GMC is at a tick boundary: a whole multiple of TICK. -/
def Block.atTick (b : Block) : Bool := b.gmc % b.tick == 0

/-- Whole ticks between two counts. -/
def Block.ticksFrom (b : Block) (c : Nat) : Nat := (b.gmc - c) / b.tick

-- Host functions and interrupts ------------------------------------------------------------------------------------

/-- VF m exists: VF Enable is set and NumVFs reaches it (R185). -/
def Block.vfLive (b : Block) (m : Nat) : Bool := b.link.vfEnable && decide (1 ≤ m ∧ m ≤ b.link.numVfs)

/-- The function that serves a partition: its VF when that is enabled, otherwise the PF. -/
def Block.partFn (b : Block) (p : Nat) : Nat := if b.vfLive (p + 1) then p + 1 else 0

/-- Host accesses for a partition can be sent (R882). -/
def Block.hostUp (b : Block) (p : Nat) : Bool := b.get .HOST_LINK_RATE != 0 && !b.link.orphans.testBit p

/-- MSI-X vectors of a function (R182). -/
def msixSize (fn : Nat) : Nat := if fn = 0 then 2048 else 256

/-- The host takes `n` more posted writes: it withholds no credits, or enough are left, and nothing older waits for them (R823). -/
def Block.canPost (b : Block) (n : Nat) : Bool :=
  b.link.stalled.isEmpty && match b.link.credits with
    | none => true
    | some c => decide (n ≤ c)

/-- Posted-write credits used. -/
def Block.usePost (b : Block) (n : Nat) : Block := { b with link := { b.link with credits := b.link.credits.map (· - n) } }

/-- Posted traffic stalled until the host grants credits; nothing else waits for it (R823). -/
def Block.stall (b : Block) (x : Stalled) : Block := { b with link := { b.link with stalled := b.link.stalled ++ [x] } }

/-- The number of an MSI-X table entry. -/
def msixKey (fn vec : Nat) : Nat := fn * 2048 + vec

/-- An MSI-X message leaves, with the address and data of its table entry (R186). -/
def Block.msixOut (b : Block) (fn vec : Nat) : Block :=
  let e := Tab.get b.link.msixTab (msixKey fn vec) (0, 0)
  (b.usePost 1).send (.msix fn vec e.1 e.2)

/-- An unmasked MSI-X vector sent: discarded with the link down (R882), stalled without a credit (R823). -/
def Block.msixGo (b : Block) (fn vec : Nat) : Block :=
  if b.get .HOST_LINK_RATE = 0 then b else if b.canPost 1 then b.msixOut fn vec else b.stall (.msix fn vec)

/-- An MSI-X vector due: nothing while MSI-X is disabled on the function, pending in the PBA while masked (R269), otherwise sent. -/
def Block.sendMsix (b : Block) (fn vec : Nat) : Block :=
  if !b.link.msixOn.testBit fn then b
  else if (fn, vec) ∉ b.link.unmasked then
    if (fn, vec) ∈ b.link.pba then b else { b with link := { b.link with pba := b.link.pba ++ [(fn, vec)] } }
  else b.msixGo fn vec

/-- A partition reset runs (R72, R80). -/
def Block.resetting (b : Block) (p : Nat) : Bool := b.on .PART_STATUS_RESETTING p

-- Miller lines -----------------------------------------------------------------------------------------------------

/-- Interrupt line `n` raised at core `c` (R783): M_IRQ_PEND records it and the core sees it when enabled. -/
def Block.raiseLine (b : Block) (c n : Nat) : Block :=
  let b := b.setB .M_IRQ_PEND_LINES c n
  if b.bit .M_IRQ_EN_LINES c n then b.send (.coreLine c n) else b

/-- A line raised at every core. -/
def Block.raiseAll (b : Block) (n : Nat) : Block :=
  (((b.raiseLine 0 n).raiseLine 1 n).raiseLine 2 n).raiseLine 3 n

-- Logs -------------------------------------------------------------------------------------------------------------

/-- The class of an event (R832): 0 INFO, 1 WARN, 2 FAULT. Event 0x10 of block 0x02 is a warning when its new state, byte 2 of
its data, is HOT or CRITICAL. -/
def eventClass (blk code : Nat) (data : List Byte) : Nat :=
  let fault := match blk with
    | 0x01 => [0x07] | 0x02 => [0x03, 0x13, 0x15] | 0x03 => [0x02] | 0x40 => [0x10, 0x20, 0x21]
    | 0x48 => [0x20, 0x21, 0x24] | 0x50 => [0x02, 0x06] | 0x60 => [0x03] | 0x70 => [0x03, 0x04]
    | 0x78 => [0x03, 0x04] | 0x80 => [0x03] | 0xA0 => [0x01] | _ => []
  let warn := match blk with
    | 0x01 => [0x02, 0x05] | 0x02 => [0x11, 0x16] | 0x03 => [0x07, 0x08] | 0x40 => [0x23, 0x25]
    | 0x48 => [0x22, 0x23] | 0x50 => [0x04, 0x05, 0x07, 0x08, 0x09, 0x0B] | 0x60 => [0x02, 0x06, 0x07]
    | 0x70 => [0x01] | 0x78 => [0x01] | 0xA0 => [0x03] | _ => []
  if code ∈ fault then 2
  else if code ∈ warn then 1
  else if blk = 0x02 ∧ code = 0x10 ∧ 2 ≤ (data.getD 2 0).toNat then 1
  else 0

/-- An event record's 32 bytes (R831). -/
def eventBytes (gmc blk code part cls seq : Nat) (data : List Byte) : List Byte :=
  leBytes 8 gmc ++ [byteOf blk, byteOf code, byteOf part, byteOf cls] ++ leBytes 4 seq ++ padTo 16 data

/-- Records that a block may hold waiting for a log (R834). -/
def logDepth : Nat := 16

/-- The records of a detecting block that wait for a log. -/
def Log.held (l : Log) (blk : Nat) : Nat := Tab.get l.waiting blk 0

/-- One more record of a block waits for the log. -/
def Log.wait (l : Log) (blk : Nat) : Log := { l with waiting := Tab.put l.waiting blk (l.held blk + 1) }

/-- A cycle of the log: one record waits no longer, of the lowest block that has one (R833). -/
def Log.drain (l : Log) : Log :=
  match l.waiting with
  | [] => l
  | (k, n) :: r => { l with waiting := if n ≤ 1 then r else (k, n - 1) :: r }

/-- Both logs have written every record that waited for them: more than enough cycles have passed. -/
def Block.logsRest (b : Block) : Block :=
  { b with evt := { b.evt with waiting := [] }, vio := { b.vio with waiting := [] } }

/-- A record put in the event log's next slot; LOST counts a record not yet acknowledged that it overwrites (R833, R834). -/
def Block.evtStore (b : Block) (rec_ : List Byte) : Block :=
  let n := b.get .EVT_HEAD_COUNT
  let b' := { b with evt := { b.evt with slots := Tab.put b.evt.slots (n % Config.evtSlots) rec_ } }
  if Config.evtSlots ≤ (n + 2 ^ 32 - b.get .EVT_ACK_COUNT) % 2 ^ 32 then (b'.bump .EVT_HEAD_COUNT).bump .EVT_LOST_COUNT
  else b'.bump .EVT_HEAD_COUNT

/-- The class counted in EVT_CLASSES. -/
def Block.evtClass (b : Block) (cls : Nat) : Block :=
  if cls = 2 then b.bumpSat .EVT_CLASSES_FAULTS else if cls = 1 then b.bumpSat .EVT_CLASSES_WARNS else b

/-- A FAULT record copied to AON_LAST_EVENT. -/
def Block.evtLast (b : Block) (cls : Nat) (rec_ : List Byte) : Block :=
  if cls = 2 then b.set .AON_LAST_EVENT_RECORD 0 (ofLe rec_) else b

/-- The event log's vector, sent after the record where EVT_CFG enables it. -/
def Block.evtIrq (b : Block) (cls : Nat) : Block :=
  if (cls = 2 && b.on .EVT_CFG_IRQ_FAULT) || b.on .EVT_CFG_IRQ_ANY then b.sendMsix 0 (b.get .EVT_CFG_VECTOR) else b

/-- Line 10 raised at the Miller cores for a FAULT record. -/
def Block.evtLine (b : Block) (cls : Nat) : Block := if cls = 2 then b.raiseAll 10 else b

/-- An event record enters the event log (R831 to R837): the oldest record is overwritten, LOST counts a record not yet acknowledged, a
FAULT record is copied to AON_LAST_EVENT and raises line 10 at the Miller cores, and the enabled vector is sent after the record. -/
def Block.eventIn (b : Block) (blk code : Nat) (data : List Byte) (part : Nat) : Block :=
  let cls := eventClass blk code data
  let rec_ := eventBytes b.gmc blk code part cls (b.get .EVT_HEAD_COUNT) data
  ((((b.evtStore rec_).evtClass cls).evtLast cls rec_).evtIrq cls).evtLine cls

/-- An event detected (R834): with 16 records of its block waiting for the log the record is discarded and counted in EVT_DROPPED; any
other enters the log. DESIGN CHOICE: its place in the log shows at once, while it counts as waiting until a cycle of the log has passed for
it. `part` is 0xFF when no partition is concerned. -/
def Block.event (b : Block) (blk code : Nat) (data : List Byte := []) (part : Nat := 0xFF) : Block :=
  if logDepth ≤ b.evt.held blk then b.bump .EVT_DROPPED_COUNT
  else ({ b with evt := b.evt.wait blk } : Block).eventIn blk code data part

/-- A violation record's 32 bytes (R283). -/
def violateBytes (gmc blk code part source ring action : Nat) (data : List Byte) : List Byte :=
  leBytes 8 gmc ++ [byteOf blk, byteOf code, byteOf part, byteOf source, byteOf ring, byteOf action, 0, 0] ++ padTo 16 data

/-- A record put in the violation log's next slot; LOST counts a record not yet acknowledged that it overwrites. -/
def Block.vioStore (b : Block) (rec_ : List Byte) : Block :=
  let n := b.get .VIO_HEAD_COUNT
  let b' := { b with vio := { b.vio with slots := Tab.put b.vio.slots (n % Config.vioSlots) rec_ } }
  if Config.vioSlots ≤ (n + 2 ^ 32 - b.get .VIO_ACK_COUNT) % 2 ^ 32 then (b'.bump .VIO_HEAD_COUNT).bump .VIO_LOST_COUNT
  else b'.bump .VIO_HEAD_COUNT

/-- The violation log's vector, sent after the record where VIO_CFG enables it. -/
def Block.vioIrq (b : Block) : Block :=
  if b.on .VIO_CFG_IRQ_FAULT || b.on .VIO_CFG_IRQ_ANY then b.sendMsix 0 (b.get .VIO_CFG_VECTOR) else b

/-- Records of the ring engine (block 0x20) count in RE_VIOL_COUNT. -/
def Block.vioRing (b : Block) (blk : Nat) : Block := if blk = 0x20 then b.bump .RE_VIOL_COUNT_COUNT else b

/-- A violation record enters the violation log (R283, R899): every record counts as FAULT for the log's own registers; none is copied to
AON_LAST_EVENT and none raises line 10. -/
def Block.violateIn (b : Block) (rec_ : List Byte) : Block := ((b.vioStore rec_).bumpSat .VIO_CLASSES_FAULTS).vioIrq

/-- A violation detected (R283, R834, R899): with 16 records of its block waiting for the log the record is discarded and counted in
VIO_DROPPED; any other enters the log, on the terms of `event`. Records of the ring engine count in RE_VIOL_COUNT. `part` is 0xFF for none;
`ring` is the RING byte; `action` is 0 logged only, 1 completed with a status, 2 ring halted, 3 dropped. -/
def Block.violate (b : Block) (blk code part source ring action : Nat) (data : List Byte := []) : Block :=
  if logDepth ≤ b.vio.held blk then b.bump .VIO_DROPPED_COUNT
  else (({ b with vio := b.vio.wait blk } : Block).violateIn (violateBytes b.gmc blk code part source ring action data)).vioRing blk

/-- The SOURCE number of a requester (R283). -/
def reqSource : Requester → Nat
  | .pf => 0x00
  | .vf m => m
  | .mctp => 0x09
  | .miller c => 0x0A + c

/-- The RING byte of a violation record (R283). -/
def sqRingByte : SqRef → Nat
  | .host _ r => 0x80 + r
  | .post _ r => 0x80 + r

def cqRingByte : CqRef → Nat
  | .host _ r => 0xA0 + r
  | .core _ => 0xA0

end Sys2Proof.Machine
end

