-- ==== Sys2Proof/Machine/Records.lean ====
section
/-! DEFINITION. Descriptors, rings and completion records (spec/06): the common descriptor fields, one view of a submission ring
and of a completion ring whether it lies in host memory or belongs to a Miller core (R788), the halting of rings, the writing
of a completion record with its interrupt, and the end of a descriptor. -/

namespace Sys2Proof.Machine

-- The descriptor (R250) ---------------------------------------------------------------------------------------------

def dOpcode (d : List Byte) : Nat := fieldAt d 0x00 1
def dFlags (d : List Byte) : Nat := fieldAt d 0x01 1
def dMark (d : List Byte) : Bool := (dFlags d).testBit 0
def dOutMark (d : List Byte) : Bool := (dFlags d).testBit 1
def dIrq (d : List Byte) : Bool := (dFlags d).testBit 2
def dFence (d : List Byte) : Bool := (dFlags d).testBit 3
def dLatCrit (d : List Byte) : Bool := (dFlags d).testBit 4
def dFlow (d : List Byte) : Nat := fieldAt d 0x02 2
def dTag (d : List Byte) : Nat := fieldAt d 0x04 4
def dDeadline (d : List Byte) : Nat := fieldAt d 0x08 8
def dSeed (d : List Byte) : Nat := fieldAt d 0x10 8
def dWidth (d : List Byte) : Nat := fieldAt d 0x18 1
def dPrio (d : List Byte) : Nat := bits (fieldAt d 0x19 1) 0 2
/-- `n` bytes of ARGS at offset `o`. -/
def dArg (d : List Byte) (o n : Nat) : Nat := fieldAt d (0x20 + o) n

/-- The opcodes of R251. -/
def opcodes : List Nat := [0x00, 0x10, 0x11, 0x12, 0x20, 0x21, 0x22, 0x30, 0x31, 0x32, 0x40, 0x50, 0x60]

/-- The set-up block that detects an opcode's own violations (R884). -/
def opBlock (op : Nat) : Nat :=
  match op with
  | 0x10 => 0x30 | 0x11 => 0x30 | 0x12 => 0x30 | 0x20 => 0x40 | 0x21 => 0x40 | 0x22 => 0x40 | 0x30 => 0x80
  | 0x31 => 0x80 | 0x32 => 0x80 | 0x40 => 0x70 | 0x50 => 0x90 | 0x60 => 0x50 | _ => 0x20

/-- An opcode run by an engine, not by tiles, the ring engine or the pawl table. -/
def isEngineOp (op : Nat) : Bool := op ∈ [0x20, 0x21, 0x22, 0x30, 0x31, 0x32, 0x40, 0x50, 0x60]

-- Status codes (spec/18) --------------------------------------------------------------------------------------------

def stDone : Nat := 0x00
def stDegraded : Nat := 0x01
def stDeadline : Nat := 0x02
def stPartial : Nat := 0x03
def stTimeout : Nat := 0x10
def stBroken : Nat := 0x11
def stQuota : Nat := 0x20
def stWidth : Nat := 0x21
def stFull : Nat := 0x22
def stFenced : Nat := 0x23
def stDesc : Nat := 0x30
def stAddr : Nat := 0x31
def stPoison : Nat := 0x32
def stMemUe : Nat := 0x40
def stFabric : Nat := 0x41
def stEngine : Nat := 0x42
def stReset : Nat := 0x50
def stHost : Nat := 0x51

-- Rings -------------------------------------------------------------------------------------------------------------

/-- Ring states (spec/06, Ring states). -/
def rOff : Nat := 0
def rActive : Nat := 1
def rDraining : Nat := 2
def rHalted : Nat := 3

/-- Instance of a host ring's registers. -/
def ringIx (p r : Nat) : Nat := p * 32 + r
/-- Instance of a post ring's registers. -/
def postIx (c r : Nat) : Nat := c * 4 + r

def sqKey : SqRef → Nat
  | .host p r => ringIx p r
  | .post c r => 256 + postIx c r

def cqKey : CqRef → Nat
  | .host p r => ringIx p r
  | .core c => 256 + c

def Block.sq (b : Block) (q : SqRef) : SqAux := Tab.get b.sqs (sqKey q) SqAux.reset
def Block.setSq (b : Block) (q : SqRef) (x : SqAux) : Block := { b with sqs := Tab.put b.sqs (sqKey q) x }
def Block.cq (b : Block) (c : CqRef) : CqAux := Tab.get b.cqs (cqKey c) CqAux.reset
def Block.setCq (b : Block) (c : CqRef) (x : CqAux) : Block := { b with cqs := Tab.put b.cqs (cqKey c) x }

/-- The partition of a submission ring (R788: a post ring's is POST_CFG.PART). -/
def Block.sqPart (b : Block) : SqRef → Nat
  | .host p _ => p
  | .post c r => b.get .POST_CFG_PART (postIx c r)

/-- The completion ring of a submission ring. -/
def Block.sqCq (b : Block) : SqRef → CqRef
  | .host p r => .host p (b.get .SQ_CFG_CQ_ID (ringIx p r))
  | .post c _ => .core c

/-- SOURCE of a ring's violation records: the function that serves its partition, or the core (R884). -/
def Block.sqSource (b : Block) : SqRef → Nat
  | .host p _ => b.partFn p
  | .post c _ => 0x0A + c

def Block.cqSource (b : Block) : CqRef → Nat
  | .host p _ => b.partFn p
  | .core c => 0x0A + c

def cqPart : CqRef → Nat
  | .host p _ => p
  | .core _ => 0xFF

def Block.sqState (b : Block) : SqRef → Nat
  | .host p r => b.get .SQ_STATUS_STATE (ringIx p r)
  | .post c r => b.get .POST_STATUS_STATE (postIx c r)

def Block.setSqState (b : Block) (q : SqRef) (v : Nat) : Block :=
  match q with
  | .host p r => b.set .SQ_STATUS_STATE (ringIx p r) v
  | .post c r => b.set .POST_STATUS_STATE (postIx c r) v

def Block.cqState (b : Block) : CqRef → Nat
  | .host p r => b.get .CQ_STATUS_STATE (ringIx p r)
  | .core c => b.get .CORE_CQ_STATUS_STATE c

def Block.setCqState (b : Block) (q : CqRef) (v : Nat) : Block :=
  match q with
  | .host p r => b.set .CQ_STATUS_STATE (ringIx p r) v
  | .core c => b.set .CORE_CQ_STATUS_STATE c v

/-- Ring sizes N (R239). -/
def Block.sqSize (b : Block) : SqRef → Nat
  | .host p r => 2 ^ b.get .SQ_CFG_LOG2_SIZE (ringIx p r)
  | .post c r => 2 ^ b.get .POST_CFG_LOG2_SIZE (postIx c r)

def Block.cqSize (b : Block) : CqRef → Nat
  | .host p r => 2 ^ b.get .CQ_CFG_LOG2_SIZE (ringIx p r)
  | .core c => 2 ^ b.get .CORE_CQ_CFG_LOG2_SIZE c

/-- A completion ring with 128-byte entries (R240). -/
def Block.cqWide (b : Block) : CqRef → Bool
  | .host p r => b.on .CQ_CFG_ENTRY (ringIx p r)
  | .core c => b.on .CORE_CQ_CFG_ENTRY c

/-- A doorbell word's INDEX and GEN (R241). -/
def wIndex (w : Nat) : Nat := bits w 0 32
def wGen (w : Nat) : Nat := bits w 32 16

/-- The position GEN × N + INDEX. -/
def wordPos (n w : Nat) : Nat := wGen w * n + wIndex w

/-- The doorbell word of a position, counted modulo 2^16 × N. -/
def posWord (n p : Nat) : Nat := p % n + ((p / n) % 2 ^ 16) * 2 ^ 32

/-- The fetch head of a submission ring, as a word. -/
def Block.sqHead (b : Block) : SqRef → Nat
  | .host p r => b.get .SQ_HEAD_INDEX (ringIx p r) + b.get .SQ_HEAD_GEN (ringIx p r) * 2 ^ 32
  | .post c r => b.get .POST_HEAD_WORD (postIx c r)

def Block.setSqHead (b : Block) (q : SqRef) (w : Nat) : Block :=
  match q with
  | .host p r => (b.set .SQ_HEAD_INDEX (ringIx p r) (wIndex w)).set .SQ_HEAD_GEN (ringIx p r) (wGen w)
  | .post c r => b.set .POST_HEAD_WORD (postIx c r) w

/-- The last accepted word of a submission ring. -/
def Block.sqTail (b : Block) (q : SqRef) : Nat := (b.sq q).lastWord

def Block.setSqTail (b : Block) (q : SqRef) (w : Nat) : Block :=
  let b := b.setSq q { b.sq q with lastWord := w }
  match q with
  | .host p r => b.set .SQ_TAIL_WORD (ringIx p r) w
  | .post _ _ => b

/-- Pw of a completion ring, as a word. -/
def Block.cqTail (b : Block) : CqRef → Nat
  | .host p r => b.get .CQ_TAIL_INDEX (ringIx p r) + b.get .CQ_TAIL_GEN (ringIx p r) * 2 ^ 32
  | .core c => b.get .CORE_CQ_TAIL_WORD c

def Block.setCqTail (b : Block) (q : CqRef) (w : Nat) : Block :=
  match q with
  | .host p r => (b.set .CQ_TAIL_INDEX (ringIx p r) (wIndex w)).set .CQ_TAIL_GEN (ringIx p r) (wGen w)
  | .core c => b.set .CORE_CQ_TAIL_WORD c w

/-- The last accepted head word of a completion ring. -/
def Block.cqHead (b : Block) (q : CqRef) : Nat := (b.cq q).lastWord

def Block.setCqHead (b : Block) (q : CqRef) (w : Nat) : Block :=
  let b := b.setCq q { b.cq q with lastWord := w }
  match q with
  | .host p r => b.set .CQ_HEAD_WORD (ringIx p r) w
  | .core _ => b

/-- The distance from position `a` up to position `c` of a ring of `n` entries, both counted modulo 2^16 × n. -/
def posDist (n a c : Nat) : Nat := (c + 2 ^ 16 * n - a) % (2 ^ 16 * n)

/-- Rsv of a completion ring (R256). -/
def Block.cqRsv (b : Block) (q : CqRef) : Nat := (b.cq q).rsv

def Block.setCqRsv (b : Block) (q : CqRef) (v : Nat) : Block :=
  let b := b.setCq q { b.cq q with rsv := v }
  match q with
  | .host p r => b.set .CQ_RESERVED_COUNT (ringIx p r) v
  | .core _ => b

/-- Free slots of a completion ring: N − (Pw − Ph) − Rsv (R256). -/
def Block.cqFree (b : Block) (q : CqRef) : Nat :=
  let n := b.cqSize q
  n - posDist n (wordPos n (b.cqHead q)) (wordPos n (b.cqTail q)) - b.cqRsv q

-- Interrupt moderation (R266 to R269) -------------------------------------------------------------------------------

/-- A completion ring's vector sent, when IRQ_EN is 1: P returns to zero, a vector outside the function's table sends nothing and sets
VECTOR_BAD, and a partition whose VF has gone sends nothing through the PF (R882). -/
def Block.sendVector (b : Block) (p c : Nat) : Block :=
  let i := ringIx p c
  if !b.on .IRQ_CQ_IRQ_EN i then b
  else
    let fn := b.partFn p
    let v := b.get .IRQ_CQ_VECTOR i
    let b := b.setCq (.host p c) { b.cq (.host p c) with p := 0 }
    if b.link.orphans.testBit p then b
    else if msixSize fn ≤ v then b.set .CQ_STATUS_VECTOR_BAD i 1 else b.sendMsix fn v

/-- The interrupt of a completion ring at a halt: its vector, or line 4 of its core (R266, R788). -/
def Block.haltIrq (b : Block) : CqRef → Block
  | .host p c => b.sendVector p c
  | .core c => b.raiseLine c 4

/-- After a record: P counts it and the vector is sent when a condition of R266 is met. -/
def Block.recordIrq (b : Block) (q : CqRef) (now : Bool) (status : Nat) : Block :=
  match q with
  | .core c => b.raiseLine c 4
  | .host p c =>
    let i := ringIx p c
    let a := b.cq q
    let b := b.setCq q { a with p := a.p + 1, firstAt := if a.p = 0 then b.gmc else a.firstAt }
    if max 1 (b.get .IRQ_CQ_COUNT i) ≤ a.p + 1 || now || (b.on .IRQ_CQ_ERR_NOW i && status != stDone) then
      b.sendVector p c
    else b

-- Halting -----------------------------------------------------------------------------------------------------------

/-- A submission ring halts with a cause: its doorbell word is refused (R248). -/
def Block.haltSq (b : Block) (q : SqRef) (cause word : Nat) : Block :=
  let last := b.sqTail q
  let b := b.setSqState q rHalted
  let b := match q with
    | .host p r => b.set .SQ_STATUS_HALT_CAUSE (ringIx p r) cause
    | .post c r => b.set .POST_STATUS_HALT_CAUSE (postIx c r) cause
  let b := b.violate 0x20 cause (b.sqPart q) (b.sqSource q) (sqRingByte q) 2 (leBytes 8 word ++ leBytes 8 last)
  b.haltIrq (b.sqCq q)

/-- A completion ring halts with a cause, with the DATA of its violation record. -/
def Block.haltCq (b : Block) (q : CqRef) (cause : Nat) (data : List Byte) : Block :=
  let b := b.setCqState q rHalted
  let b := match q with
    | .host p r => b.set .CQ_STATUS_HALT_CAUSE (ringIx p r) cause
    | .core c => b.set .CORE_CQ_STATUS_HALT_CAUSE c cause
  let b := b.violate 0x20 cause (cqPart q) (b.cqSource q) (cqRingByte q) 2 data
  b.haltIrq q

-- Completion records ------------------------------------------------------------------------------------------------

/-- PHASE of the pass a completion ring is in: 1 on the first pass after enable, then alternating (R261). -/
def Block.cqPhase (b : Block) (q : CqRef) : Nat :=
  let init := match q with
    | .host p r => b.get .CQ_CTRL_GEN_INIT (ringIx p r)
    | .core _ => 0
  (wGen (b.cqTail q) + 2 ^ 16 - init + 1) % 2

/-- The 32 bytes of a record (R260). -/
def recBytes (r : Rec) (phase sqHead : Nat) : List Byte :=
  let ring := match r.sq with | .host _ k => k | .post _ k => k
  let flags := phase + b2n r.regulated * 2 + b2n r.mark.isSome * 4 + b2n r.outMark.isSome * 8
  leBytes 4 r.tag ++ [byteOf r.status, byteOf r.cause, byteOf flags, byteOf ring] ++ leBytes 4 r.index ++
    leBytes 4 sqHead ++ leBytes 8 r.gmcDone ++ leBytes 4 r.waited ++ leBytes 4 r.result

/-- The Mark block of an entry (R263, R264), from offset 32 to 127. -/
def markBytes (r : Rec) : List Byte := padTo 32 (r.mark.getD []) ++ padTo 32 (r.outMark.getD []) ++ zeros 32

/-- Jobs of a ring that were waiting for a fence and whose fence is met: engine jobs join their ready list (R300). -/
def Block.fenceMet (b : Block) (j : Job) : Bool := !dFence j.desc || (b.sq j.sq).live.all (fun n => j.seq ≤ n)

def Block.promoteFenced (b : Block) (q : SqRef) : Block :=
  { b with hop := { b.hop with jobs := b.hop.jobs.map fun j =>
      if j.sq = q ∧ j.phase = .admitted ∧ isEngineOp (dOpcode j.desc) ∧ b.fenceMet j then
        { j with phase := .ready (dPrio j.desc) b.gmc }
      else j } }

/-- Rings of a partition that are not OFF carry a word in a doorbell-page line: tails in lines 0 to 3, heads in 4 to 7. -/
def Block.lineUsed (b : Block) (p l : Nat) (want : Nat → Bool) : Bool :=
  (List.range 8).any fun k =>
    want (if l < 4 then b.get .SQ_STATUS_STATE (ringIx p (8 * l + k)) else b.get .CQ_STATUS_STATE (ringIx p (8 * (l - 4) + k)))

/-- A partition's rings are all OFF. -/
def Block.ringsOff (b : Block) (p : Nat) : Bool := (List.range 8).all fun l => !b.lineUsed p l (· != rOff)

/-- After a ring has turned OFF: held lines that no ring needs are given up, and a partition whose VF has gone moves to the PF once
all its rings are OFF (R243, R882). -/
def Block.settleRings (b : Block) (p : Nat) : Block :=
  let gone := b.link.lines.filter fun e => e.1 == p && !b.lineUsed p e.2 (· != rOff)
  let orph := if b.ringsOff p then clrBit b.link.orphans p else b.link.orphans
  ({ b with link := { b.link with lines := b.link.lines.filter (· ∉ gone), orphans := orph } }).sendAll
    (gone.map fun (e : Nat × Nat) => Out.cleanEvict e.1 e.2)

/-- A submission ring turns OFF. -/
def Block.sqOff (b : Block) (q : SqRef) : Block :=
  let b := b.setSqState q rOff
  match q with
  | .host p _ => b.settleRings p
  | .post _ _ => b

/-- A descriptor's accounting when its record is written or discarded: in-flight count, fence order, and the end of
DRAINING (R272). -/
def Block.retire (b : Block) (q : SqRef) (seq : Nat) : Block :=
  let a := b.sq q
  let b := b.setSq q { a with live := a.live.filter (· ≠ seq) }
  let b := match q with
    | .host p r => b.set .SQ_INFLIGHT_COUNT (ringIx p r) (a.live.length - 1)
    | .post _ _ => b
  let b := if b.sqState q = rDraining ∧ a.live.filter (· ≠ seq) = [] then b.sqOff q else b
  b.promoteFenced q

/-- A record lost to a completion ring that cannot take it: counted in CQ_LOST and its reservation released (R277, R281). -/
def Block.loseRecord (b : Block) (q : CqRef) : Block :=
  let b := b.setCqRsv q (b.cqRsv q - 1)
  match q with
  | .host p r => b.bump .CQ_LOST_COUNT (ringIx p r)
  | .core _ => b

/-- The local physical address of a Miller-view address of hub SRAM as core `c` sees it: the private alias at 0 and the hub SRAM at
0x1000_0000 (R777); none outside them. -/
def hubLocal (c a : Nat) : Option Nat :=
  if a < 0x80000 then some (0x30005000000 + 0x80000 * c + a)
  else if 0x10000000 ≤ a ∧ a < 0x10600000 then some (0x30005000000 + (a - 0x10000000))
  else none

/-- Bytes stored to hub SRAM at a Miller-view address; nothing lies outside it. -/
def Block.hubWrite (b : Block) (c a : Nat) (l : List Byte) : Block :=
  match hubLocal c a with
  | some x => b.writeMem x l
  | none => b

/-- `n` bytes of hub SRAM at a Miller-view address; free bytes outside it. -/
def Block.hubRead (b : Block) (c a n : Nat) : List Byte × Block :=
  match hubLocal c a with
  | some x => (b.readMem x n, b)
  | none => b.freeBytes n

/-- The record written to memory at Pw: the Mark block first, then the record as one 32-byte write (R264, R265), then Pw, Rsv
and the interrupt. -/
def Block.putRecord (b : Block) (q : CqRef) (r : Rec) : Block :=
  let n := b.cqSize q
  let w := b.cqTail q
  let wide := b.cqWide q
  let off := wIndex w * (if wide then 128 else 32)
  let body := recBytes r (b.cqPhase q) (wIndex (b.sqHead r.sq))
  let b := match q with
    | .host p c =>
      let base := b.get .CQ_BASE_ADDR (ringIx p c) * 4096 + off
      let fn := b.partFn p
      (if wide then (b.usePost 1).send (.hostWrite fn (base + 32) (markBytes r)) else b).usePost 1 |>.send (.hostWrite fn base body)
    | .core c =>
      let base := b.get .CORE_CQ_BASE_ADDR c * 4096 + off
      (if wide then b.hubWrite c (base + 32) (markBytes r) else b).hubWrite c base body
  let b := b.setCqTail q (posWord n (wordPos n w + 1))
  let b := b.setCqRsv q (b.cqRsv q - 1)
  let b := match r.sq with
    | .host p k => b.bump .SQ_COMPLETED_COUNT (ringIx p k)
    | .post _ _ => b
  b.recordIrq q r.irq r.status

/-- A completion write the host refuses, or that cannot be sent: the ring halts with CQ_WRITE and the record is lost (R281,
R882). -/
def Block.refuseRecord (b : Block) (q : CqRef) : Block :=
  (b.loseRecord q).haltCq q 0x23 (leBytes 4 (wIndex (b.cqTail q)) ++ zeros 4 ++ leBytes 8 (b.cqHead q))

/-- The host page of Pw of a completion ring. -/
def Block.cqPage (b : Block) (p c : Nat) : Nat :=
  (b.get .CQ_BASE_ADDR (ringIx p c) * 4096 +
    wIndex (b.cqTail (.host p c)) * (if b.cqWide (.host p c) then 128 else 32)) / 4096

/-- Completion records that have still to be written: held for a translation, or stalled. -/
def Block.unwritten (b : Block) : List HeldRec :=
  b.link.held ++ b.link.stalled.filterMap fun x => match x with | .record h => some h | _ => none

/-- Posted writes a record takes: the Mark block of a wide entry is one of its own (R264, R265). -/
def Block.recordCost (b : Block) (q : CqRef) : Nat := if b.cqWide q then 2 else 1

/-- A completion record whose turn has come, credits apart: discarded on a halted ring (R277), lost with a halt when no host access can be
sent (R882), held for a translation when ATS is enabled on the function (R187), otherwise written. -/
def Block.recordGo (b : Block) (h : HeldRec) : Block :=
  let q := h.cq
  if b.cqState q ≠ rActive then (b.loseRecord q).retire h.rec_.sq h.seq
  else match q with
    | .core _ => (b.putRecord q h.rec_).retire h.rec_.sq h.seq
    | .host p c =>
      if !b.hostUp p then (b.refuseRecord q).retire h.rec_.sq h.seq
      else if b.link.ats.testBit (b.partFn p) && !decide ((b.partFn p, b.cqPage p c) ∈ b.link.atc) then
        ({ b with link := { b.link with held := b.link.held ++ [h] } }).send (.atsRequest (b.partFn p) (b.cqPage p c))
      else (b.putRecord q h.rec_).retire h.rec_.sq h.seq

/-- The completion ring can be written now, so that a record due to it takes posted credits. -/
def Block.needsCredits (b : Block) : CqRef → Bool
  | .core _ => false
  | .host p c => b.cqState (.host p c) == rActive && b.hostUp p

/-- A completion record due to a ring: it waits behind a record of the same ring held for a translation (R187), or stalls while the host
withholds posted-write credits (R823); otherwise its turn has come. `entry` says that its descriptor holds a job entry. -/
def Block.writeRecord (b : Block) (r : Rec) (seq : Nat) (entry : Bool := true) : Block :=
  let q := b.sqCq r.sq
  let h := HeldRec.mk q r seq entry
  if b.needsCredits q && b.link.held.any (fun h => h.cq == q) then { b with link := { b.link with held := b.link.held ++ [h] } }
  else if b.needsCredits q && !b.canPost (b.recordCost q) then b.stall (.record h)
  else b.recordGo h

-- Host accesses for jobs ---------------------------------------------------------------------------------------------

/-- A host address that function `fn` may use now: ATS is off, or the page's translation is cached (R182, R187). -/
def Block.hostTranslated (b : Block) (fn a : Nat) : Bool := !b.link.ats.testBit fn || decide ((fn, a / 4096) ∈ b.link.atc)

/-- The doorbell words of a partition come by snoop (R243); otherwise by polling (R194, R245). -/
def Block.snooping (b : Block) (p : Nat) : Bool :=
  b.on .HOST_LINK_CXL_CACHE && b.on .DB_CTRL_EN p && !b.on .DB_CTRL_FORCE_POLL p

/-- Read requests that may be outstanding over PCI Express at once (R182). -/
def pcieTags : Nat := 768

/-- Tags in use. -/
def Block.tagsUsed (b : Block) : Nat := (b.link.reads.filter fun r => !r.cxl).length

/-- A translated read leaves: a line of a snooped partition over CXL.cache, any other over PCI Express once a tag is free (R182, R243). -/
def Block.issueRead (b : Block) (which : HostRead) (fn a n : Nat) : Block :=
  let line : Option (Nat × Nat) := match which with
    | .line p l => if b.snooping p then some (p, l) else none
    | _ => none
  let r := SentRead.mk b.link.nextRead which fn a n line.isSome false
  let b := { b with link := { b.link with nextRead := b.link.nextRead + 1 } }
  let go (b : Block) : Block := { b with link := { b.link with reads := b.link.reads ++ [r] } }
  match line with
  | some (p, l) => (go b).send (.rdShared p l)
  | none =>
    if b.tagsUsed < pcieTags then (go b).send (.hostRead fn a n) else { b with link := { b.link with tagless := b.link.tagless ++ [r] } }

/-- A read sent, or held for its translation (R187). -/
def Block.askRead (b : Block) (which : HostRead) (fn a n : Nat) : Block :=
  if b.hostTranslated fn a then b.issueRead which fn a n
  else
    let h : HeldAccess := { which := .read which, fn := fn, addr := a, len := n, bytes := [], bad := none }
    ({ b with link := { b.link with waits := b.link.waits ++ [h] } }).send (.atsRequest fn (a / 4096))

/-- A host read for a partition sent or held; none when no host access can be sent (R882). -/
def Block.startRead (b : Block) (p : Nat) (which : HostRead) (a n : Nat) : Option Block :=
  if b.hostUp p then some (b.askRead which (b.partFn p) a n) else none

/-- A tag has become free: the oldest read that waits for one leaves. -/
def Block.tagFreed (b : Block) : Block :=
  match b.link.tagless with
  | [] => b
  | r :: rest => if b.tagsUsed < pcieTags then ({ b with link := { b.link with tagless := rest } }).askRead r.which r.fn r.addr r.len else b

/-- The oldest outstanding read for a purpose is no longer outstanding: invalidations that waited for it last are answered (R188), and its
tag is free. Answers whether its response is wanted, not sunk. -/
def Block.readDone (b : Block) (which : HostRead) : Option (Bool × Block) :=
  match b.link.reads.find? fun r => r.which == which with
  | some r =>
    let invs := b.link.invs.map fun e => (e.1, e.2.filter (· ≠ r.id))
    let b := { b with link := { b.link with reads := b.link.reads.eraseP fun r => r.which == which,
                                            invs := invs.filter fun e => !e.2.isEmpty } }
    some (!r.sunk, (b.sendAll ((invs.filter fun e => e.2.isEmpty).map fun e => Out.atsDone e.1)).tagFreed)
  | none => none

/-- What became of a host data write. -/
inductive WriteSent where
  | sent (b : Block)
  | waiting (b : Block)
  | refused
  deriving DecidableEq, Repr

/-- Bytes cut into posted writes of at most 512 bytes, the largest payload (R182). -/
def payloadCuts (fn : Nat) : Nat → Nat → List Byte → List Out
  | 0, _, _ => []
  | n + 1, a, l => .hostWrite fn a (l.take 512) :: payloadCuts fn n (a + 512) (l.drop 512)

/-- Posted writes that `n` bytes take. -/
def payloads512 (n : Nat) : Nat := ceilDiv n 512

/-- A data write leaves in posted writes. -/
def Block.dataOut (b : Block) (fn a : Nat) (l : List Byte) : Block :=
  (b.usePost (payloads512 l.length)).sendAll (payloadCuts fn (payloads512 l.length) a l)

/-- A host write of a job sent, held for its translation, stalled without posted credits (R823), or refused because no host access can be
sent (R882). -/
def Block.startWrite (b : Block) (p job a : Nat) (l : List Byte) (bad : Option (Nat × Nat × Nat)) : WriteSent :=
  let fn := b.partFn p
  let h : HeldAccess := { which := .dataWrite job, fn := fn, addr := a, len := l.length, bytes := l, bad := bad }
  if !b.hostUp p then .refused
  else if !b.hostTranslated fn a then .waiting (({ b with link := { b.link with waits := b.link.waits ++ [h] } }).send (.atsRequest fn (a / 4096)))
  else if b.canPost (payloads512 l.length) then .sent (b.dataOut fn a l)
  else .waiting (b.stall (.data h))

/-- WAITED_TICKS: whole ticks from acceptance to the start of execution, or to the record when execution never started
(R827), saturating. -/
def Block.waitedTicks (b : Block) (arrival : Nat) (start : Option Nat) : Nat :=
  min (2 ^ 32 - 1) ((start.getD b.gmc - arrival) / b.tick)

/-- A violation record for a descriptor that ends with a violation or a failed host access (R884). -/
def Block.descViolation (b : Block) (q : SqRef) (blk code index : Nat) (desc : List Byte) : Block :=
  b.violate blk code (b.sqPart q) (b.sqSource q) (sqRingByte q) 1
    (leBytes 4 index ++ [byteOf (dOpcode desc)] ++ zeros 3 ++ leBytes 8 (b.sqTail q))

/-- A descriptor that never became a job completes with a status (R252, R278, R289). -/
def Block.completeFetched (b : Block) (q : SqRef) (f : Fetched) (status cause : Nat) : Block :=
  let bad : Bool := cause = 0x20 ∧ status = stPoison
  let r : Rec :=
    { sq := q, tag := if bad then 0 else dTag f.bytes, status := status, cause := cause, regulated := false, mark := none,
      outMark := none, index := f.index, gmcDone := b.gmc, waited := b.waitedTicks f.arrival none, result := 0,
      irq := !bad && dIrq f.bytes }
  b.writeRecord r f.seq false

end Sys2Proof.Machine
end

