-- ==== Sys2Proof/Machine/Hopper.lean ====
section
/-! DEFINITION. The Hopper (spec/07) and LAUNCH_AT (spec/11): jobs, tiles as places for tasks, contexts, pawls, the Tailrace,
and the commands that move them. -/

namespace Sys2Proof.Machine

-- Jobs ---------------------------------------------------------------------------------------------------------------

def Block.jobs (b : Block) : List Job := b.hop.jobs
def Block.setJobs (b : Block) (l : List Job) : Block := { b with hop := { b.hop with jobs := l } }

/-- The job numbered `id`. -/
def Block.job (b : Block) (id : Nat) : Option Job := b.hop.jobs.find? (fun j => j.id = id)

/-- The table with job `j` in place of the one of the same number. -/
def Block.setJob (b : Block) (j : Job) : Block := b.setJobs (b.hop.jobs.map fun k => if k.id = j.id then j else k)

/-- Agents, each with at most one operation that waits: the hand-over of a partition's descriptors, its MK_ABSORB, its frames, and jobs. -/
def handAgent (p : Nat) : Nat := p
def absorbAgent (p : Nat) : Nat := 8 + p
def frameAgent (p : Nat) : Nat := 16 + p
def jobAgent (id : Nat) : Nat := 24 + id

/-- The job of an agent. -/
def agentJob (agent : Nat) : Option Nat := if agent < 24 then none else some (agent - 24)

/-- A job leaves the table. -/
def Block.dropJob (b : Block) (id : Nat) : Block :=
  let b := b.setJobs (b.hop.jobs.filter fun j => j.id ≠ id)
  { b with ms := { b.ms with dues := Tab.del b.ms.dues (jobAgent id) } }

/-- The context a job carries (LAUNCH and LAUNCH_AT in CTX of R291, PAWL in CTX of R317). -/
def Job.ctx (j : Job) : Option Nat :=
  let op := dOpcode j.desc
  if op = 0x10 ∨ op = 0x11 then some (bits (dArg j.desc 0x16 1) 0 6)
  else if op = 0x12 then some (bits (dArg j.desc 0x03 1) 0 6)
  else none

/-- A job whose input digest, where one is due, has been formed and whose Tally record has been written (R566, R575). -/
def Job.startable (j : Job) : Bool := !j.tally && (!dMark j.desc || j.inMark.isSome)

/-- A job whose DEADLINE has passed before its first dispatch: it starts no more, and DEADLINE_PASSED completes it (R307). -/
def Block.expired (b : Block) (j : Job) : Bool := dDeadline j.desc != 0 && decide (dDeadline j.desc ≤ b.gmc) && j.started.isNone

/-- Job entries in use: the jobs, what has finished and waits in the Tailrace, and what waits only for its record to be written (spec/18,
R822). -/
def Block.jobsUsed (b : Block) : Nat :=
  b.hop.jobs.length + (b.hop.tailrace.filter (·.record.isSome)).length + (b.unwritten.filter (·.entry)).length

/-- The job entries in use of a partition. -/
def Block.partJobsUsed (b : Block) (p : Nat) : Nat :=
  (b.hop.jobs.filter fun j => j.part == p).length + (b.hop.tailrace.filter fun e => e.part == p && e.record.isSome).length +
    (b.unwritten.filter fun h => h.entry && b.sqPart h.rec_.sq == p).length

-- Tiles as places for tasks ------------------------------------------------------------------------------------------

def Block.tile (b : Block) (t : Nat) : Tile := Tab.get b.tiles t Tile.reset
def Block.setTile (b : Block) (t : Nat) (x : Tile) : Block := { b with tiles := Tab.put b.tiles t x }

/-- TILE_STATE codes (spec/12, Self-test and re-admission). -/
def tDisabled : Nat := 0
def tFree : Nat := 1
def tBusy : Nat := 2
def tSelftest : Nat := 3
def tOut : Nat := 4
def tFailed : Nat := 5

def Block.tileState (b : Block) (t : Nat) : Nat := b.get .TILE_STATE_STATE t

/-- The die of a tile (R2). -/
def tileDie (t : Nat) : Nat := t / 16

/-- Enabled tiles in tile-number order (R3). -/
def Block.enabledTiles (b : Block) : List Nat := bitList (b.get .TILE_PRESENT_MASK) 32

/-- The ordering grade (R1): 0 for the -32 with every tile enabled, 1 for the -24, some of whose tiles are disabled by fuse. -/
def Block.grade (b : Block) : Nat := if b.enabledTiles.length = 32 then 0 else 1

/-- The tiles of group g: the enabled tiles of rank 4g to 4g + 3 (spec/05, Partitions and their grants). -/
def Block.groupTiles (b : Block) (g : Nat) : List Nat := (b.enabledTiles.drop (4 * g)).take 4

/-- The tiles of a partition's granted groups, in ascending order. -/
def Block.partTiles (b : Block) (p : Nat) : List Nat :=
  ((List.range 8).filter fun g => b.bit .PART_GRANT_GROUPS p g).flatMap fun g => b.groupTiles g

/-- A tile of a die that LFLAGS.DIE allows: 0 either, 1 G0 only, 2 G1 only (R291). -/
def dieAllows (sel t : Nat) : Bool := sel == 0 || tileDie t + 1 == sel

/-- The die selector of a launch. -/
def Job.dieSel (j : Job) : Nat := bits (dArg j.desc 0x17 1) 0 2

/-- A die to which tasks are dispatched: not gated, recovering, tripped or changing its clock, in a released package at full
power with no Furled entry (R45, R51, R81, R93, R438). -/
def Block.dieReady (b : Block) (d : Nat) : Bool :=
  let x := b.die d
  b.pwr.released && b.pwr.furl == .a0 && !x.gated && !x.recovering && !x.tripped && x.change == none

/-- A local or fabric hold stops new work (R436, R526). -/
def Block.held (b : Block) : Bool := b.gov.localHold || b.on .FAB_HOLD_HOLD

/-- Any task runs on die `d`. -/
def Block.dieBusy (b : Block) (d : Nat) : Bool := (List.range 32).any fun t => tileDie t == d && b.tileState t == tBusy

/-- A die has seen work in the running tick (R89). -/
def Block.dieSeen (b : Block) (d : Nat) : Block := b.setDie d { b.die d with worked := true }

/-- Work starts on a die: a die in A1 is ungated (R91), and its idle time starts anew (R89). -/
def Block.dieWorks (b : Block) (d : Nat) : Block := b.setDie d { b.die d with a1 := false, idleTicks := 0, worked := true }

-- Ends ---------------------------------------------------------------------------------------------------------------

/-- A TIMEOUT_WAIT outcome counted in its partition (WAIT_TIMEOUTS). -/
def Block.countTimeout (b : Block) (p status : Nat) : Block :=
  if status = stTimeout then b.bump .WAIT_TIMEOUTS_COUNT p else b

/-- The record of a job is due: it goes to the Tailrace entry of its flow, or straight to its completion ring (R258, R310). -/
def Block.finalize (b : Block) (j : Job) (status cause result : Nat) (mark outMark : Option (List Byte)) : Block :=
  let waited := match b.job j.id with | some x => x.regulated | none => false
  let r : Rec :=
    { sq := j.sq, tag := dTag j.desc, status := status, cause := cause, regulated := j.regulated || waited, mark := mark,
      outMark := outMark, index := j.index, gmcDone := b.gmc, waited := b.waitedTicks j.arrival j.started,
      result := result % 2 ^ 32, irq := dIrq j.desc }
  let b := b.dropJob j.id
  let b := b.countTimeout j.part status
  if b.hop.tailrace.any (fun e => e.job = j.id) then
    { b with hop := { b.hop with tailrace := b.hop.tailrace.map fun e =>
        if e.job = j.id then { e with record := some r } else e } }
  else b.writeRecord r j.seq

/-- A job ends: where its Mark is to be written, its record waits for the output Mark (R567, R569). -/
def Block.conclude (b : Block) (j : Job) (status cause result : Nat) : Block :=
  if dMark j.desc && j.inMark.isSome then
    b.setJob { j with phase := .marking, running := [], outcome := some (status, cause, result) }
  else b.finalize j status cause result none none

/-- A descriptor that has become a job ends with VIOLATION_DESC and its violation record (R292, R318 and every later
chapter). -/
def Block.violateJob (b : Block) (j : Job) (cause : Nat) : Block :=
  (b.descViolation j.sq (opBlock (dOpcode j.desc)) cause j.index j.desc).finalize j stDesc cause 0 none none

-- Pawls --------------------------------------------------------------------------------------------------------------

def Block.pawl (b : Block) (n : Nat) : Pawl := Tab.get b.hop.pawls n Pawl.reset
def Block.setPawl (b : Block) (n : Nat) (x : Pawl) : Block :=
  { b with hop := { b.hop with pawls := if x = Pawl.reset then Tab.del b.hop.pawls n else Tab.put b.hop.pawls n x } }

/-- The partition whose range holds a package pawl. -/
def Block.pawlPart (b : Block) (n : Nat) : Option Nat :=
  (List.range 8).find? fun p =>
    decide (b.get .PART_HOP_PAWL_BASE p ≤ n ∧ n < b.get .PART_HOP_PAWL_BASE p + b.get .PART_HOP_PAWL_COUNT p)

/-- The outcome of a pawl request reaches its asker: a PAWL descriptor completes, a task receives the status (R317). -/
def Block.pawlReply (b : Block) (p : Nat) (who : PawlAsker) (status cause : Nat) : Block :=
  match who with
  | .task t =>
    let b := b.countTimeout p status
    { b with hop := { b.hop with taskReplies := b.hop.taskReplies ++ [(t, status, cause)] } }
  | .job id =>
    match b.job id with
    | none => b
    | some j =>
      let j := { j with started := some (j.started.getD b.gmc) }
      if status = stDesc then b.violateJob j cause else b.conclude j status cause 0

/-- A free pawl is granted: held by the asker's context with its lease started; a broken pawl answers PAWL_BROKEN with the
cause of the break (R319). -/
def Block.grantPawl (b : Block) (p n : Nat) (who : PawlAsker) (ctx lease : Nat) (rest : List PawlWaiter) : Block :=
  let x := b.pawl n
  let due := if lease = 0 then none else some (b.dueAt b.gmc lease)
  let b := b.setPawl n { x with owner := some ctx, leaseDue := due, waiters := rest }
  if x.broken then b.pawlReply p who stBroken x.cause else b.pawlReply p who stDone 0

/-- A pawl nobody holds passes to its oldest waiter (R321); while several events of one cycle are being applied it waits for its rank
(R325). -/
def Block.passPawl (b : Block) (p n : Nat) : Block :=
  if b.hop.oneCycle then b
  else match (b.pawl n).waiters with
    | [] => b
    | w :: rest => b.grantPawl p n w.who w.ctx w.lease rest

/-- A held pawl breaks with a cause: it is released, BROKEN and the cause are set, the break is counted, and the oldest
waiter receives it (R322). -/
def Block.breakPawl (b : Block) (p n cause : Nat) : Block :=
  let x := b.pawl n
  match x.owner with
  | none => b
  | some c =>
    let lost := if c ∈ x.lost then x.lost else x.lost ++ [c]
    let b := b.setPawl n { x with owner := none, leaseDue := none, broken := true, cause := cause, lost := lost }
    (b.bump .PAWL_BROKE_COUNT_COUNT p).passPawl p n

/-- The pawls of a partition that a context holds, or that any context holds. -/
def Block.heldPawls (b : Block) (p : Nat) (ctx : Option Nat) : List Nat :=
  (b.hop.pawls.filter fun e => b.pawlPart e.1 == some p &&
    (match ctx with | none => e.2.owner.isSome | some c => e.2.owner == some c)).map (·.1)

/-- Every pawl a context holds breaks (R322). -/
def Block.breakCtx (b : Block) (p ctx cause : Nat) : Block :=
  (b.heldPawls p (some ctx)).foldl (fun b n => b.breakPawl p n cause) b

/-- A context becomes faulted (R293, R295): its bit in CTX_FAULTED and the break of what it holds. -/
def Block.faultCtx (b : Block) (p ctx cause : Nat) : Block :=
  (b.setB .CTX_FAULTED_CTX p ctx).breakCtx p ctx cause

/-- Statuses that fault the context of what ended with them (R293). -/
def faulting (status : Nat) : Bool := status == stMemUe || status == stFabric || status == stEngine

/-- A job ends by itself with a status. Its context is not faulted: an engine job carries none, and a LAUNCH faults one only through
its tasks (R293). -/
def Block.endJob (b : Block) (j : Job) (status cause result : Nat) : Block := b.conclude j status cause result

-- Freeing tiles ------------------------------------------------------------------------------------------------------

/-- The accesses of a tile's task are dropped, and the write-combining buffer no longer holds bytes of a running task there. -/
def Block.dropTileAccesses (b : Block) (t : Nat) : Block :=
  { b with ms := { b.ms with
      accs := b.ms.accs.filter fun a => decide (a.who ≠ .tile t)
      wc := b.ms.wc.map fun e => { e with tiles := e.tiles.filter (· ≠ t) } } }

/-- Tile memory's first byte in local physical memory (R19). -/
def tileMemBase (t : Nat) : Nat := 0x30000000000 + t * 0x200000

/-- The partition that a tile is granted to; 0xFF for none. -/
def Block.tilePart (b : Block) (t : Nat) : Nat := ((List.range 8).find? fun p => decide (t ∈ b.partTiles p)).getD 0xFF

/-- An event of a tile: block 0x70 for G0 and 0x78 for G1, with the tile's partition and its number. -/
def Block.tileEvent (b : Block) (t code : Nat) : Block := b.event (0x70 + 8 * tileDie t) code [byteOf t] (b.tilePart t)

/-- A tile enters SELFTEST, which zeroes its memory (R620). -/
def Block.startTest (b : Block) (t : Nat) : Block :=
  let a := tileMemBase t
  let b := (b.zeroMem a 0x200000).set .TILE_STATE_STATE t tSelftest
  { b with ms := { b.ms with sectors := b.ms.sectors.filter fun e => !(decide (a ≤ e.1 * 32 ∧ e.1 * 32 < a + 0x200000)) } }

/-- A tile that failed leaves the pool: for a self-test, or OUT when AUTO_TEST is 0 (R623). -/
def Block.failTile (b : Block) (t : Nat) : Block :=
  let b := b.tileEvent t 0x01
  if b.on .TILE_CTRL_AUTO_TEST t then b.startTest t else b.set .TILE_STATE_STATE t tOut

/-- A tile whose task has ended: FREE again, OUT when TAKE_OUT was set meanwhile (R625), or out of the pool after an error of its own
(R623). -/
def Block.releaseTile (b : Block) (t : Nat) : Block :=
  let x := b.tile t
  let b := b.setTile t { x with task := none, leaving := false, fault := false, ending := none, releasing := none }
  let b := (b.dropTileAccesses t).dieSeen (tileDie t)
  if b.tileState t ≠ tBusy then b
  else if x.fault then b.failTile t
  else b.set .TILE_STATE_STATE t (if x.leaving then tOut else tFree)

/-- Stores of the tile's running task have not all been made: one is under way, or the write-combining buffer holds bytes of it (R379). -/
def Block.buffered (b : Block) (t : Nat) : Bool :=
  (b.ms.wc.any fun e => decide (t ∈ e.tiles)) || b.ms.accs.any fun a => decide (a.who = .tile t ∧ a.kind = .store)

/-- The entries with the tile's bytes start to be flushed (R377, R379). -/
def Block.flushTile (b : Block) (t : Nat) : Block :=
  { b with ms := { b.ms with wc := b.ms.wc.map fun e => if t ∈ e.tiles then { e with flushing := true } else e } }

/-- Every task of a job stops and its tiles are freed. -/
def Block.stopTasks (b : Block) (j : Job) : Block := j.running.foldl (fun b r => b.releaseTile r.tile) b

/-- No tile of a partition on an allowed die can still take tasks: none is FREE, BUSY or SELFTEST (R628). -/
def Block.noTile (b : Block) (p sel : Nat) : Bool :=
  !(b.partTiles p).any fun t => dieAllows sel t && (b.tileState t == tFree || b.tileState t == tBusy || b.tileState t == tSelftest)

/-- Every accepted LAUNCH with undispatched tasks and no usable tile ends with FAULT_ENGINE and NO_TILE (R628). -/
def Block.sweepNoTile (b : Block) : Block :=
  (b.hop.jobs.filter fun j => (dOpcode j.desc == 0x10 || dOpcode j.desc == 0x11) && j.next < j.tasks && j.running == [] &&
      j.phase != .marking && j.tasks != 0 && b.noTile j.part j.dieSel).foldl
    (fun b j => b.endJob j stEngine 0xC2 0) b

-- Launching ----------------------------------------------------------------------------------------------------------

/-- The checks of R292 on a LAUNCH or LAUNCH_AT, with the cause of the first that fails. -/
def Block.launchFault (b : Block) (j : Job) : Option Nat :=
  let d := j.desc
  let sel := j.dieSel
  if dArg d 0x00 8 % 64 ≠ 0 then some 0x40
  else if dArg d 0x10 4 = 0 ∨ 65536 < dArg d 0x10 4 then some 0x41
  else if dArg d 0x14 2 % 64 ≠ 0 then some 0x42
  else if bits (dArg d 0x16 1) 6 2 ≠ 0 ∨ bits (dArg d 0x17 1) 2 6 ≠ 0 then some 0x02
  else if sel = 3 ∨ (sel ≠ 0 ∧ (b.partTiles j.part).all (fun t => !dieAllows sel t)) then some 0x43
  else none

/-- A job joins the ready list of its priority now. -/
def Block.makeReady (b : Block) (j : Job) (prio : Nat) : Block := b.setJob { j with phase := .ready prio b.gmc }

/-- NOP (R251): an accepted NOP whose fence is met completes with DONE. -/
def Block.nop (b : Block) (id : Nat) : Block :=
  match b.job id with
  | none => b
  | some j =>
    if dOpcode j.desc = 0x00 ∧ j.phase = .admitted ∧ b.fenceMet j ∧ j.startable ∧ b.expired j = false then
      b.conclude { j with started := some b.gmc } stDone 0 0
    else b

def execNop (job : Nat) (s : State) := s.act (·.nop job)

/-- LAUNCH (R291): the arguments are checked; a good job becomes TASKS tasks that enter the ready list of its PRIO, after
DELAY ticks from acceptance when DELAY is not zero (R314, R316). A job with no usable tile ends with NO_TILE (R628). -/
def Block.launch (b : Block) (id : Nat) : Block :=
  match b.job id with
  | none => b
  | some j =>
    if dOpcode j.desc = 0x10 ∧ j.phase = .admitted ∧ b.fenceMet j then
      match b.launchFault j with
      | some c => b.violateJob j c
      | none =>
        let j := { j with tasks := dArg j.desc 0x10 4 }
        if b.noTile j.part j.dieSel then b.endJob j stEngine 0xC2 0
        else if dArg j.desc 0x18 4 = 0 then b.makeReady j (dPrio j.desc)
        else b.setJob { j with phase := .delayed (b.dueAt j.accepted (dArg j.desc 0x18 4)) }
    else b

/-- LAUNCH_AT (R551, R552): as LAUNCH, waiting for its count AT; AT of 0 or more than 2^40 counts after acceptance is BAD_AT,
recorded by the block of the GMC. -/
def Block.launchAt (b : Block) (id : Nat) : Block :=
  match b.job id with
  | none => b
  | some j =>
    if dOpcode j.desc = 0x11 ∧ j.phase = .admitted ∧ b.fenceMet j then
      let at_ := dArg j.desc 0x18 8
      match b.launchFault j with
      | some c => b.violateJob j c
      | none =>
        if at_ = 0 ∨ j.accepted + 2 ^ 40 < at_ then
          (b.descViolation j.sq 0x60 0xB0 j.index j.desc).finalize j stDesc 0xB0 0 none none
        else
          let j := { j with tasks := dArg j.desc 0x10 4 }
          if b.noTile j.part j.dieSel then b.endJob j stEngine 0xC2 0
          else b.setJob { j with phase := .atCount at_ }
    else b

/-- LAUNCH_AT_READY (R553): from count AT − 4,096 the job is in the priority-3 ready list. -/
def Block.launchAtReady (b : Block) (id : Nat) : Block :=
  match b.job id with
  | none => b
  | some j =>
    match j.phase with
    | .atCount c => if c ≤ b.gmc + 4096 then b.makeReady j 3 else b
    | _ => b

def execLaunchAtReady (job : Nat) (s : State) := s.act (·.launchAtReady job)

/-- The package is in a cluster: its topology holds more than one package. -/
def Block.inCluster (b : Block) : Bool :=
  (b.get .FAB_TOPO_DX + 1) * (b.get .FAB_TOPO_DY + 1) * (b.get .FAB_TOPO_DZ + 1) != 1

/-- The result of a LAUNCH_AT whose count AT has come (R555): a package of a cluster that is not LOCKED degrades it with GMC_UNSYNC;
otherwise task 0 not yet dispatched degrades it with LATE_START. -/
def Block.startCheck (b : Block) (j : Job) : Job :=
  if dOpcode j.desc ≠ 0x11 ∨ j.degraded ≠ 0 then j
  else if b.inCluster && b.get .GMC_STATUS_STATE != 1 then { j with degraded := 0xB2 }
  else if j.next = 0 then { j with degraded := 0xB1 }
  else j

/-- A job whose task is being dispatched: past AT, task 0 is late whether or not LAUNCH_AT_START has run (R555). -/
def Block.lateJob (b : Block) (j : Job) : Job :=
  if j.next = 0 ∧ dArg j.desc 0x18 8 < b.gmc then b.startCheck j else j

/-- LAUNCH_AT_START (R553, R555): at or after AT, the waiting tasks issue their first instruction. A package of a cluster that
is not LOCKED at AT degrades the result with GMC_UNSYNC; otherwise task 0 not yet dispatched degrades it with LATE_START. -/
def Block.launchAtStart (b : Block) (id : Nat) : Block :=
  match b.job id with
  | none => b
  | some j => if j.tasks ≠ 0 ∧ dArg j.desc 0x18 8 ≤ b.gmc then b.setJob (b.startCheck j) else b

def execLaunchAtStart (job : Nat) (s : State) := s.act (·.launchAtStart job)

/-- DELAY_DUE (R316): at a tick boundary every delayed job that has fallen due moves into the ready list of its priority. -/
def Block.delayDue (b : Block) : Block :=
  if b.atTick then
    b.setJobs (b.hop.jobs.map fun j =>
      match j.phase with
      | .delayed d => if d ≤ b.gmc then { j with phase := .ready (dPrio j.desc) b.gmc } else j
      | _ => j)
  else b

def execDelayDue (s : State) := s.act (·.delayDue)

/-- AGE_PROMOTION (R298): with AGE not zero, each job of the partition that has waited AGE ticks in a ready list moves to the
next higher list, never above priority 3, keeping its acceptance order. -/
def Block.agePromotion (b : Block) (p : Nat) : Block :=
  let age := b.get .HOP_PCTRL_AGE p
  if age = 0 then b
  else b.setJobs (b.hop.jobs.map fun j =>
    match j.phase with
    | .ready prio since =>
      if j.part = p ∧ prio < 3 ∧ since + age * b.tick ≤ b.gmc then { j with phase := .ready (prio + 1) b.gmc }
      else j
    | _ => j)

def execAgePromotion (part : Nat) (s : State) := s.act (·.agePromotion part)

-- Dispatch -----------------------------------------------------------------------------------------------------------

/-- Priority of a ready job. -/
def Job.readyPrio (j : Job) : Option Nat := match j.phase with | .ready p _ => some p | _ => none

/-- The tile a task of the job would run on: the lowest-numbered FREE tile of the partition on an allowed, running die whose
return does not come after the job's acceptance (R299, R301). -/
def Block.tileFor (b : Block) (j : Job) : Option Nat :=
  (b.partTiles j.part).find? fun t =>
    dieAllows j.dieSel t && b.tileState t == tFree && b.dieReady (tileDie t) && decide ((b.tile t).since ≤ j.id)

/-- The ready jobs of a partition that `mine` picks, highest ready list first, acceptance order within a list (R296). -/
def Block.readyOrder (b : Block) (mine : Job → Bool) (p : Nat) : List Job :=
  sortBy (fun x y => decide (y.readyPrio.getD 0 < x.readyPrio.getD 0) ||
      (x.readyPrio == y.readyPrio && decide (x.id ≤ y.id)))
    (b.hop.jobs.filter fun j => j.part == p && j.readyPrio.isSome && !b.expired j && mine j)

/-- The ready LAUNCH jobs of a partition with tasks to dispatch, in the order of R296. -/
def Block.readyTasks (b : Block) (p : Nat) : List Job :=
  b.readyOrder (fun j => (dOpcode j.desc == 0x10 || dOpcode j.desc == 0x11) && decide (j.next < j.tasks) && !j.stopped) p

/-- The next task of a LAUNCH as it is dispatched to a tile (R291); its Cog job and stream registers read zero (R612). -/
def Job.nextTask (j : Job) (t : Nat) : TaskRun :=
  { index := j.next, tile := t, arg := (dArg j.desc 0x08 8 + j.next * dArg j.desc 0x14 2) % 2 ^ 64, cogJob := 0,
    cogStream := 0 }

/-- An exit from Furled starts: every enabled tile is under self-test until it completes (R99, R621). -/
def Block.startExit (b : Block) : Block :=
  b.enabledTiles.foldl (fun b t => b.startTest t) { b with pwr := { b.pwr with furl := .exiting, wakeHeld := false } }

/-- A task that needs a grind die wakes a Furled package (R99, R106, R107). -/
def Block.wakeForWork (b : Block) : Block :=
  match b.pwr.furl with
  | .furled => b.startExit
  | .waiting => ({ b with pwr := { b.pwr with furl := .a0 } }).event 0x03 0x07
  | .entering => ({ b with pwr := { b.pwr with furl := .a0 } }).event 0x03 0x07
  | .quiet => { b with pwr := { b.pwr with wakeHeld := true } }
  | _ => b

/-- `n` occurrences of a tile's event counted in those of its performance counters that select it (R629). -/
def Block.perfAdd (b : Block) (t ev n : Nat) : Block :=
  [0, 1, 2, 3].foldl (fun b k =>
    if b.get .PERF_SEL_EVENT (4 * t + k) = ev then b.set .PERF_CNT_COUNT (4 * t + k) ((b.get .PERF_CNT_COUNT (4 * t + k) + n) % 2 ^ 48)
    else b) b

/-- The same for an event that only the tile's own program shows, at most `most` times: how often it happened is a free value. -/
def Block.perfFree (b : Block) (t ev most : Nat) : Block :=
  if [0, 1, 2, 3].any fun k => b.get .PERF_SEL_EVENT (4 * t + k) == ev then (b.perfAdd t ev (b.freeVal 48 % (most + 1))).took else b

/-- TASK_DISPATCH (R296, R299, R587): the next task of the first LAUNCH in the order of R296 goes to its tile; while that one has none, no
later one is served. A die in A1 is ungated (R91); a
package that is Furled or entering Furled is woken and the task held (R99, R102). Task 0 of a LAUNCH_AT dispatched after AT degrades its
result (R555). The tile counts a task started (R629). -/
def Block.taskDispatch (b : Block) (p : Nat) : Block :=
  if b.held then b
  else
    match b.readyTasks p with
    | [] => b
    | j :: _ =>
      if !j.startable then b
      else if b.pwr.furl ≠ .a0 then b.wakeForWork
      else match b.tileFor j with
        | none => b
        | some t =>
          let d := tileDie t
          let b := b.dieWorks d
          let b := b.set .TILE_STATE_STATE t tBusy
          let b := { b with ms := { b.ms with vregs := b.ms.vregs.filter fun e => e.1 / 32 ≠ t } }
          let b := b.setTile t { b.tile t with task := some (j.id, j.next) }
          let b := b.perfAdd t 9 1
          let j := b.lateJob j
          b.setJob { j with next := j.next + 1, running := j.running ++ [j.nextTask t],
                            started := some (j.started.getD b.gmc),
                            phase := if j.next + 1 = j.tasks then .running else j.phase }

def execTaskDispatch (part : Nat) (s : State) := s.act (·.taskDispatch part)

/-- The lower-indexed of two failed tasks (R305). -/
def worseTask (w : Option (Nat × Nat × Nat)) (i status cause : Nat) : Option (Nat × Nat × Nat) :=
  match w with
  | none => some (i, status, cause)
  | some (k, s, c) => if i < k then some (i, status, cause) else some (k, s, c)

/-- A LAUNCH whose last dispatched task has ended completes (R305, R555). -/
def Block.closeLaunch (b : Block) (j : Job) : Block :=
  match j.worst with
  | some (i, st, c) => b.conclude j st c i
  | none =>
    if j.degraded ≠ 0 then b.conclude j stDegraded j.degraded j.tasks else b.conclude j stDone 0 j.tasks

/-- A task ends with a status: the tile is freed; a status other than DONE stops further dispatch of its LAUNCH and, when it
is a fault, faults the context; when no task of the job runs and none is to be dispatched, the job completes (R304, R305). -/
def Block.finishTask (b : Block) (t status cause : Nat) : Block :=
  match (b.tile t).task with
  | none => b
  | some (id, i) =>
    let b := b.releaseTile t
    match b.job id with
    | none => b
    | some j =>
      let j := { j with running := j.running.filter (fun r => r.tile ≠ t),
                        worst := if status = stDone then j.worst else worseTask j.worst i status cause,
                        stopped := j.stopped || status != stDone }
      let b := b.setJob j
      let b := if j.running = [] ∧ (j.stopped ∨ j.next = j.tasks) then b.closeLaunch j else b
      let b := match j.ctx with
        | some c => if faulting status then b.faultCtx j.part c 0x59 else b
        | none => b
      b.sweepNoTile

/-- TASK_END (R304, R379): a task with stores under way or bytes still buffered has them flushed first and ends at the last
acknowledgement; any other task ends now. -/
def Block.taskEnd (b : Block) (t status cause : Nat) : Block :=
  if b.buffered t ∧ (b.tile t).task.isSome then
    let e := match (b.tile t).ending with
      | some (s, c) => if s = stDone then (status, cause) else (s, c)
      | none => (status, cause)
    (b.flushTile t).setTile t { b.tile t with ending := some e }
  else b.finishTask t status cause

/-- A task says that it ends: a task that has already ended and waits for its stores says nothing more. -/
def Block.taskSaysEnd (b : Block) (t status cause : Nat) : Block :=
  if (b.tile t).ending.isSome then b else b.taskEnd t status cause

-- The Tailrace -------------------------------------------------------------------------------------------------------

/-- The oldest entry of a flow. -/
def Block.flowHead (b : Block) (p f : Nat) : Option TrEntry := b.hop.tailrace.find? fun e => e.part = p ∧ e.flow = f

/-- Flows whose oldest descriptor has finished, as numbers part × 4096 + flow. -/
def Block.readyFlows (b : Block) : List Nat :=
  (nub (b.hop.tailrace.map fun e => e.part * 4096 + e.flow)).filter fun k =>
    match b.flowHead (k / 4096) (k % 4096) with
    | some e => e.record.isSome
    | none => false

/-- The entry released next: partitions round-robin after the one served last (R824), flows of a partition round-robin by
flow number (R312). -/
def Block.nextFlow (b : Block) : Option Nat :=
  let after (k : Nat) : Nat :=
    ((k / 4096 + 8 - b.hop.lastPart - 1) % 8) * 4096 + (k % 4096 + 4096 - Tab.get b.hop.lastFlow (k / 4096) 0 - 1) % 4096
  b.readyFlows.foldl (fun best k => match best with | none => some k | some m => if after k < after m then some k else some m) none

/-- TAILRACE_RELEASE (R310, R312): one finished record whose earlier descriptors of the flow have all been released is
written. -/
def Block.tailraceRelease (b : Block) : Block :=
  match b.nextFlow with
  | none => b
  | some k =>
    match b.flowHead (k / 4096) (k % 4096) with
    | some e =>
      match e.record with
      | some r =>
        let b := { b with hop := { b.hop with tailrace := b.hop.tailrace.filter (fun x => x.job ≠ e.job),
                                              lastPart := k / 4096,
                                              lastFlow := Tab.put b.hop.lastFlow (k / 4096) (k % 4096) } }
        b.writeRecord r (e.seq)
      | none => b
    | none => b

def execTailraceRelease (s : State) := s.act (·.tailraceRelease)

-- Pawl operations ----------------------------------------------------------------------------------------------------

/-- The fields of a PAWL descriptor (R317). -/
def pPawl (d : List Byte) : Nat := dArg d 0x00 2
def pOp (d : List Byte) : Nat := dArg d 0x02 1
def pCtx (d : List Byte) : Nat := bits (dArg d 0x03 1) 0 6
def pLease (d : List Byte) : Nat := dArg d 0x04 4
def pLimit (d : List Byte) : Nat := dArg d 0x08 4
def pMended (d : List Byte) : Bool := (dArg d 0x0C 1).testBit 0

/-- The checks of R318 on a PAWL descriptor of partition `p`. -/
def Block.pawlFault (b : Block) (p : Nat) (d : List Byte) : Option Nat :=
  if b.get .PART_HOP_PAWL_COUNT p ≤ pPawl d then some 0x45
  else if pOp d = 0 ∨ 4 < pOp d then some 0x46
  else if bits (dArg d 0x03 1) 6 2 ≠ 0 ∨ bits (dArg d 0x0C 1) 1 7 ≠ 0 ∨ dArg d 0x0D 19 ≠ 0 then some 0x02
  else none

/-- The package pawl of a partition's local index. -/
def Block.pawlNo (b : Block) (p i : Nat) : Nat := b.get .PART_HOP_PAWL_BASE p + i

/-- The partition, context and wait limit of the task on a tile (R320: its limit comes from its LAUNCH). -/
def Block.taskOwner (b : Block) (t : Nat) : Option (Nat × Nat × Nat) :=
  match (b.tile t).task with
  | none => none
  | some (id, _) =>
    match b.job id with
    | none => none
    | some j => some (j.part, j.ctx.getD 0, if dOpcode j.desc = 0x10 then dArg j.desc 0x1C 4 else 0)

/-- ACQUIRE and TRY on a pawl of a partition (R319): a free pawl is granted; the requesting context's own pawl is
ALREADY_OWNER; a pawl held by another context queues an ACQUIRE, with its limit, and turns a TRY away with TRY_HELD. -/
def Block.askPawl (b : Block) (try_ : Bool) (p n : Nat) (who : PawlAsker) (ctx lease limit : Nat) : Block :=
  let x := b.pawl n
  match x.owner with
  | none => b.grantPawl p n who ctx lease x.waiters
  | some c =>
    if c = ctx then b.pawlReply p who stDesc 0x48
    else if try_ then b.pawlReply p who stTimeout 0x51
    else
      let due := if limit = 0 then none else some (b.dueAt b.gmc limit)
      let b := b.setPawl n { x with waiters := x.waiters ++ [{ who := who, ctx := ctx, lease := lease, due := due }] }
      match who with
      | .job id => match b.job id with | some j => b.setJob { j with phase := .waiting } | none => b
      | .task _ => b

/-- ACQUIRE or TRY by a PAWL descriptor's job or by a running task. -/
def Block.pawlAsk (b : Block) (try_ : Bool) (who : PawlAsker) (pawl lease : Nat) : Block :=
  match who with
  | .task t =>
    match b.taskOwner t with
    | none => b
    | some (p, ctx, limit) =>
      if b.get .PART_HOP_PAWL_COUNT p ≤ pawl then b.pawlReply p who stDesc 0x45
      else b.askPawl try_ p (b.pawlNo p pawl) who ctx lease limit
  | .job id =>
    match b.job id with
    | none => b
    | some j =>
      if dOpcode j.desc = 0x12 ∧ j.phase = .admitted ∧ b.fenceMet j ∧ j.startable ∧ b.expired j = false ∧
          (pOp j.desc = if try_ then 2 else 1) then
        match b.pawlFault j.part j.desc with
        | some c => b.violateJob j c
        | none => b.askPawl try_ j.part (b.pawlNo j.part (pPawl j.desc)) who (pCtx j.desc) (pLease j.desc) (pLimit j.desc)
      else b

/-- The outcome of RELEASE or RENEW by a context that does not hold the pawl: LEASE_LOST when it lost the broken pawl,
otherwise NOT_OWNER (R319). -/
def notHolder (x : Pawl) (ctx : Nat) : Nat × Nat :=
  if x.broken ∧ ctx ∈ x.lost then (stBroken, 0x5B) else (stDesc, 0x47)

/-- RELEASE by a context (R319, R321, R323): status and cause, and the pawl passed to its oldest waiter or freed; MENDED clears
BROKEN, and the cause of the last break stays to be read (R329). -/
def Block.freePawl (b : Block) (p n ctx : Nat) (mended : Bool) : (Nat × Nat) × Block :=
  let x := b.pawl n
  if x.owner = some ctx then
    let y := { x with owner := none, leaseDue := none }
    let y := if mended then { y with broken := false, lost := [] } else y
    ((stDone, 0), (b.setPawl n y).passPawl p n)
  else (notHolder x ctx, b)

/-- RENEW by a context (R319): the lease restarts with the new LEASE. -/
def Block.renewPawl (b : Block) (n ctx lease : Nat) : (Nat × Nat) × Block :=
  let x := b.pawl n
  if x.owner = some ctx then
    ((stDone, 0), b.setPawl n { x with leaseDue := if lease = 0 then none else some (b.dueAt b.gmc lease) })
  else (notHolder x ctx, b)

/-- A PAWL RELEASE or RENEW executed at hand-over (R290): its record is written at once, with a violation record when it is a
violation. -/
def Block.pawlAtHandOver (b : Block) (q : SqRef) (f : Fetched) : Block :=
  let p := b.sqPart q
  let d := f.bytes
  match b.pawlFault p d with
  | some c => (b.descViolation q 0x30 c f.index d).completeFetched q f stDesc c
  | none =>
    let n := b.pawlNo p (pPawl d)
    let ((st, c), b) := if pOp d = 3 then b.freePawl p n (pCtx d) (pMended d) else b.renewPawl n (pCtx d) (pLease d)
    let b := if st = stDesc then b.descViolation q 0x30 c f.index d else b
    b.completeFetched q f st c

/-- RELEASE or RENEW by a running task: the outcome reaches the task. -/
def Block.pawlByTask (b : Block) (t : Nat) (op : Nat → Nat → Nat → (Nat × Nat) × Block) (pawl : Nat) : Block :=
  match b.taskOwner t with
  | none => b
  | some (p, ctx, _) =>
    if b.get .PART_HOP_PAWL_COUNT p ≤ pawl then b.pawlReply p (.task t) stDesc 0x45
    else
      let ((st, c), b) := op p (b.pawlNo p pawl) ctx
      b.pawlReply p (.task t) st c

/-- RELEASE by a task (R321, R379): its stores under way and the bytes its tile has buffered are flushed first. -/
def Block.pawlRelease (b : Block) (t pawl : Nat) (mended : Bool) : Block :=
  if b.buffered t then (b.flushTile t).setTile t { b.tile t with releasing := some (pawl, mended) }
  else b.pawlByTask t (fun p n c => b.freePawl p n c mended) pawl

/-- What waited for a tile's stores goes on once none is left: a pawl RELEASE, then the end of the task (R379). Bytes that a late store has
left in the buffer are flushed too. -/
def Block.tileFlushed (b : Block) (t : Nat) : Block :=
  let x := b.tile t
  if x.releasing = none ∧ x.ending = none then b
  else if b.buffered t then b.flushTile t
  else
    let b := match x.releasing with
      | some (pawl, m) => (b.setTile t { x with releasing := none }).pawlRelease t pawl m
      | none => b
    match x.ending with
    | some (st, c) => b.finishTask t st c
    | none => b

/-- RENEW by a task (R319). -/
def Block.pawlRenew (b : Block) (t pawl lease : Nat) : Block := b.pawlByTask t (fun _ n c => b.renewPawl n c lease) pawl

/-- PAWL_BREAK (R322): GO breaks the partition's local pawl with HOST_BREAK; it is ignored when the pawl is not held. -/
def Block.pawlBreakGo (b : Block) (p i : Nat) : Block :=
  let b := b.set .PAWL_BREAK_INDEX p i
  if i < b.get .PART_HOP_PAWL_COUNT p then b.breakPawl p (b.pawlNo p i) 0x5D else b

/-- LEASE_EXPIRY (R322): a lease that has fallen due breaks its pawl with LEASE_EXPIRED. -/
def Block.leaseExpiry (b : Block) (n : Nat) : Block :=
  match (b.pawl n).leaseDue, b.pawlPart n with
  | some d, some p => if d ≤ b.gmc then b.breakPawl p n 0x5A else b
  | _, _ => b

/-- WAIT_LIMIT_EXPIRY (R320): every waiter of the pawl whose limit has fallen due ends with TIMEOUT_WAIT and WAIT_LIMIT. -/
def Block.waitLimitExpiry (b : Block) (n : Nat) : Block :=
  match b.pawlPart n with
  | none => b
  | some p =>
    let x := b.pawl n
    let late (w : PawlWaiter) : Bool := match w.due with | some d => decide (d ≤ b.gmc) | none => false
    let b := b.setPawl n { x with waiters := x.waiters.filter fun w => !late w }
    (x.waiters.filter late).foldl (fun b w => b.pawlReply p w.who stTimeout 0x50) b

/-- A pawl number lies in a range. -/
def inRange (base n i : Nat) : Bool := decide (base ≤ i ∧ i < base + n)

/-- The pawls that a partition's range loses or gains are cleared: free, unbroken, without waiters (R326). -/
def Block.movePawls (b : Block) (base0 n0 base n : Nat) : Block :=
  { b with hop := { b.hop with pawls := b.hop.pawls.filter fun e => inRange base n e.1 == inRange base0 n0 e.1 } }

/-- A job leaves the queue of every pawl. -/
def Block.unqueue (b : Block) (who : PawlAsker) : Block :=
  { b with hop := { b.hop with pawls := b.hop.pawls.map fun e =>
      (e.1, { e.2 with waiters := e.2.waiters.filter fun w => w.who ≠ who }) } }

/-- DEADLINE_PASSED (R307): a job whose DEADLINE has passed before its first dispatch completes with TIMEOUT_WAIT, an ACQUIRE that
waits in a pawl's queue among them. -/
def Block.deadlinePassed (b : Block) (id : Nat) : Block :=
  match b.job id with
  | none => b
  | some j => if b.expired j ∧ j.phase ≠ .marking then (b.unqueue (.job id)).conclude j stTimeout 0x52 0 else b

def execDeadlinePassed (job : Nat) (s : State) := s.act (·.deadlinePassed job)

/-- A running task is stopped: it waits for no pawl and its accesses are dropped, and it ends with a status once what it left in the
write-combining buffer has been flushed (R377, R379). A task that has ended and waits for its flush is left alone. -/
def Block.stopTask (b : Block) (t status cause : Nat) : Block :=
  if (b.tile t).task = none ∨ (b.tile t).ending ≠ none then b
  else
    let b := b.unqueue (.task t)
    let b := { b with ms := { b.ms with accs := b.ms.accs.filter fun a => decide (a.who ≠ AccWho.tile t) } }
    (b.setTile t { b.tile t with releasing := none }).taskEnd t status cause

/-- A job with running tasks as CTX_KILL leaves it: its tasks not yet dispatched count as ended with ABORTED_HOST and CTX_KILLED, the
first of them for RESULT (R294, R305). -/
def Job.kill (j : Job) : Job :=
  { j with stopped := true, killed := true, worst := if j.next < j.tasks then worseTask j.worst j.next stHost 0x5C else j.worst }

/-- CTX_KILL (R294): every job of each named context ends with ABORTED_HOST and CTX_KILLED, its running tasks stopped; the contexts
count as faulted, with the cause CTX_KILLED for their pawls. -/
def Block.ctxKill (b : Block) (p mask : Nat) : Block :=
  (bitList mask 64).foldl (fun b c =>
    let mine := b.hop.jobs.filter fun j => j.part = p ∧ j.ctx = some c ∧ j.phase ≠ .marking
    let b := mine.foldl (fun b j =>
      if j.running = [] then (b.unqueue (.job j.id)).conclude { j with killed := true } stHost 0x5C 0
      else j.running.foldl (fun b r => b.stopTask r.tile stHost 0x5C) (b.setJob j.kill)) b
    b.faultCtx p c 0x5C) b

/-- The contexts of a partition with a job that CTX_KILL is ending and that has not completed (R294). -/
def Block.killing (b : Block) (p : Nat) : Nat :=
  (b.hop.jobs.filter fun j => j.part == p && j.killed).foldl (fun m j => match j.ctx with | some c => setBit m c | none => m) 0

def execCtxKill (part mask : Nat) (s : State) := s.act (·.ctxKill part mask)

end Sys2Proof.Machine
end

