-- ==== Sys2Proof/Machine/Engines.lean ====
section
/-! DEFINITION. How the Hopper grants a job to an engine (spec/07, R296, R302). An engine's command names the job it starts; it
starts only when that job is the one the arbitration picks, so that the order in which jobs reach an engine is the spec's. -/

namespace Sys2Proof.Machine

/-- Engine kinds, the keys of `lastEngine`. -/
def engMover : Nat := 1
def engTable : Nat := 2
def engBolter : Nat := 3
def engQuern : Nat := 4
def engWorld : Nat := 5
def engChecker : Nat := 6
def engCollective : Nat := 7

/-- A job whose opcode is `op`. -/
def isOp (op : Nat) (j : Job) : Bool := dOpcode j.desc == op

/-- Every job. -/
def anyJob : Job → Bool := fun _ => true

/-- The jobs of the memory-table engine: INVALIDATE and PLACE. -/
def onTables (j : Job) : Bool := isOp 0x21 j || isOp 0x22 j

/-- The jobs of a partition that wait for an engine, in the order of R296. -/
def Block.engineQueue (b : Block) (mine : Job → Bool) (p : Nat) : List Job :=
  b.readyOrder (fun j => isEngineOp (dOpcode j.desc) && mine j) p

/-- The job an engine of a kind starts next: partitions round-robin after the one served last (R302), of each the first of those that
are its (R296) when that one can go; none while a hold is in force (R436, R526). -/
def Block.engineNext (b : Block) (kind : Nat) (mine : Job → Bool) (go : Job → Bool := fun _ => true) : Option Job :=
  if b.held then none
  else
    let last := Tab.get b.hop.lastEngine kind 7
    ((List.range 8).map fun i => (last + 1 + i) % 8).findSome? fun p =>
      (b.engineQueue mine p).head?.filter fun j => j.startable && go j

/-- An engine of a kind starts job `id`, when it is the job it picks and one of those `want` names: the job as started, and the block
with the arbitration moved on. -/
def Block.engineStart (b : Block) (kind : Nat) (mine go want : Job → Bool) (id : Nat) : Option (Job × Block) :=
  match b.engineNext kind mine go with
  | some j =>
    if j.id = id ∧ want j then
      let j := { j with started := some b.gmc, phase := .running }
      some (j, ({ b with hop := { b.hop with lastEngine := Tab.put b.hop.lastEngine kind j.part } }).setJob j)
    else none
  | none => none

/-- A grind-die engine starts job `id`. In a Furled or entering package the job that would be picked wakes the package and is held
(R99, R102). -/
def Block.engineGo (b : Block) (kind : Nat) (mine go want : Job → Bool) (id : Nat) : Option (Job × Block) × Block :=
  if b.pwr.furl = .a0 then (b.engineStart kind mine go want id, b)
  else (none, if (b.engineStart kind mine anyJob want id).isSome then b.wakeForWork else b)

end Sys2Proof.Machine
end

