-- ==== Sys2Proof/Machine/Integrity.lean ====
section
/-! DEFINITION. Memory integrity and shares (spec/09): the symbol codes and what their decoders answer, error counting, device
marks and channels taken out, the row-remap table, patrol, live remap, and the sluices. Reads and writes of physical memory go
through `readPhys` and `writePhys`. -/

namespace Sys2Proof.Machine

-- Memories (R19, R337, R886, R887) -----------------------------------------------------------------------------------

/-- Base of memory k: stack k for 0 and 1, tier S channel k - 2 from 2 to 9. -/
def memBase (k : Nat) : Nat := if k < 2 then k * 0x600000000 else 0x10000000000 + (k - 2) * 0x2000000000

/-- The memory a physical local address lies in (R19). -/
def memOf (a : Nat) : Option Nat :=
  if a < 0x600000000 then some 0
  else if a < 0xC00000000 then some 1
  else if 0x10000000000 ≤ a ∧ a < 0x20000000000 then some (2 + (a - 0x10000000000) / 0x2000000000)
  else none

/-- Pseudo-channel of a stack offset (R337). -/
def tfPch (o : Nat) : Nat := bits o 8 5 ^^^ bits o 21 5
/-- BANK of a stack offset (R886). -/
def tfBank (o : Nat) : Nat := 16 * bits o 33 2 + bits o 15 4
/-- ROW of a stack offset (R886). -/
def tfRow (o : Nat) : Nat := bits o 19 14
/-- One number for the row of a stack offset: A[34:15] and A[12:8] (R886). -/
def tfRowKey (o : Nat) : Nat := (o / 2 ^ 15) * 32 + bits o 8 5

/-- DRAM location of a channel offset (R887): rank, BANK = 4 × bank group + bank, ROW. -/
def tsBank (d : Dimm) (o : Nat) : Nat := 4 * bits o (7 + d.col + 2) d.bg + bits o (7 + d.col) 2
def tsRow (d : Dimm) (o : Nat) : Nat := bits o (7 + d.col + 2 + d.bg) d.row
def tsRank (d : Dimm) (o : Nat) : Nat := if d.rank2 then bits o (7 + d.col + 2 + d.bg + d.row) 1 else 0
/-- One number for the row of a channel offset: every bit above the column bits. -/
def tsRowKey (d : Dimm) (o : Nat) : Nat := o / 2 ^ (7 + d.col)

/-- No DIMM. -/
def Dimm.none : Dimm := { cap := 0, x8 := false, col := 10, bg := 3, row := 16, rank2 := false, trains := false }

/-- The DIMM of channel c. -/
def Block.dimm (b : Block) (c : Nat) : Dimm := Tab.get b.ms.dimms c Dimm.none

-- The codes (R392 to R394) -------------------------------------------------------------------------------------------

/-- Multiplication by x in GF(2^8) with x^8 + x^4 + x^3 + x^2 + 1. -/
def gfDouble (a : Nat) : Nat := if a < 128 then 2 * a else (2 * a) ^^^ 0x11D

/-- Multiplication in GF(2^8), over the low `n` bits of the second factor. -/
def gfMulN : Nat → Nat → Nat → Nat
  | 0, _, _ => 0
  | n + 1, a, c => (if c % 2 = 1 then a else 0) ^^^ gfMulN n (gfDouble a) (c / 2)

def gfMul (a c : Nat) : Nat := gfMulN 8 a c

/-- α^n, α a root of the field polynomial. -/
def gfAlpha : Nat → Nat
  | 0 => 1
  | n + 1 => gfDouble (gfAlpha n)

/-- Symbols of a codeword: 36 in tier F, 40 in tier S; the first 32 hold data. -/
def codeLen (k : Nat) : Nat := if k < 2 then 36 else 40

/-- The syndrome at generator root α^j of the word that holds the listed symbols and zero elsewhere; symbol i is the coefficient
of x^(n - 1 - i), the data first (systematic, R392). -/
def syndrome (n j : Nat) (w : List (Nat × Nat)) : Nat :=
  w.foldl (fun s e => s ^^^ gfMul e.2 (gfAlpha (j * (n - 1 - e.1) % 255))) 0

/-- The listed symbols form a codeword: every syndrome is zero (R392: roots α^0 to α^3 in tier F, to α^7 in tier S). -/
def isCodeword (k : Nat) (w : List (Nat × Nat)) : Bool :=
  let n := codeLen k
  (List.range (n - 32)).all fun j => syndrome n j w == 0

/-- Two symbol lists added: symbol by symbol XOR, zero symbols not listed. -/
def xorSyms (a c : List (Nat × Nat)) : List (Nat × Nat) :=
  c.foldl (fun t e =>
    let v := Tab.get t e.1 0 ^^^ (e.2 % 256)
    if v = 0 then Tab.del t e.1 else Tab.put t e.1 v) a

/-- The poison pattern: 0xA5 in each check symbol (Poison). -/
def poisonSyms (k : Nat) : List (Nat × Nat) := (List.range (codeLen k - 32)).map fun i => (32 + i, 0xA5)

/-- The pin or device a symbol belongs to (R392). -/
def symUnit (k : Nat) (x8 : Bool) (i : Nat) : Nat := if k < 2 then i else if x8 then i / 4 else i / 2

/-- The pins or devices of a codeword. -/
def symUnits (k : Nat) (x8 : Bool) : Nat := if k < 2 then 36 else if x8 then 10 else 20

/-- What the decoder answers for a codeword. -/
inductive Verdict where
  | clean
  | poisoned
  /-- Corrected; the units that were in error. -/
  | corrected (units : List Nat)
  | lost
  /-- Outside both columns of R393: uncorrectable, or corrected as if it were correctable. -/
  | open_
  deriving DecidableEq, Repr

/-- The decoder (R393, R394): the poison test comes first; then the error is corrected or reported by how many pins or devices it
touches, a marked device's symbols being erasures. -/
def decode (k : Nat) (x8 : Bool) (mark : Option Nat) (f : SecFault) : Verdict :=
  let err := if f.poison then xorSyms f.err (poisonSyms k) else xorSyms [] f.err
  if isCodeword k (xorSyms err (poisonSyms k)) then .poisoned
  else if err = [] then .clean
  else
    let units := nub (err.map fun e => symUnit k x8 e.1)
    let others := units.filter fun u => some u ≠ mark
    let n := others.length
    if k < 2 then (if n ≤ 1 then .corrected others else if n ≤ 3 then .lost else .open_)
    else match x8, mark with
      | false, none => if n ≤ 1 then .corrected others else if n ≤ 3 then .lost else .open_
      | false, some _ => if n ≤ 1 then .corrected others else if n ≤ 2 then .lost else .open_
      | true, none => if n ≤ 1 then .corrected others else .open_
      | true, some _ => if n = 0 then .corrected others else if n ≤ 1 then .lost else .open_

-- The row-remap table (R414 to R416) ---------------------------------------------------------------------------------

def remapBase : Nat := 0x07C10000

/-- Entries whose 16 bytes do not all read as ones. -/
def Block.remapUsed (b : Block) : List Nat :=
  nub ((b.cfg.nvm.filter fun c => decide (remapBase ≤ c.1 ∧ c.1 < remapBase + 0x100000)).map fun c => (c.1 - remapBase) / 16)

/-- The 16 bytes of entry i. -/
def Block.remapEntry (b : Block) (i : Nat) : List Byte := b.readNvm (remapBase + 16 * i) 16

/-- Entries of the table. -/
def remapEntries : Nat := 65536

/-- No empty entry remains: TABLE_FULL, and event 0x25 of block 0x40 once (R416). -/
def Block.tableFull (b : Block) : Block :=
  if b.on .REMAP_STATUS_TABLE_FULL then b else (b.set .REMAP_STATUS_TABLE_FULL 0 1).event 0x40 0x25

/-- A new entry with a STATE: bytes 1 to 15 first, STATE last; with no empty entry nothing is recorded. Answers whether it was recorded. -/
def Block.recordRemap (b : Block) (state where_ unit bank row : Nat) : Bool × Block :=
  let used := b.remapUsed
  match firstFrom (fun i => decide (i ∉ used)) remapEntries 0 with
  | some i =>
    let a := remapBase + 16 * i
    let b := (b.programNvm (a + 1) ([byteOf where_, byteOf unit, byteOf bank] ++ leBytes 4 row ++ leBytes 8 b.gmc)).programNvm a
      [byteOf state]
    (true, if used.length + 1 < remapEntries then b else b.tableFull)
  | none => (false, b.tableFull)

/-- WHERE of an entry: tier, stack or channel, and kind. -/
def remapWhere (k kind : Nat) : Nat := (if k < 2 then 2 * k else 1 + 2 * (k - 2)) + 32 * kind

-- Marks and channels (R408 to R413) ----------------------------------------------------------------------------------

/-- A tier S channel leaves service with a reason (R411): 1 TAKE_OUT, 2 second device, 3 parity or CRC. -/
def Block.takeOut (b : Block) (c reason : Nat) : Block :=
  if b.on .TS_CHAN_IN_SERVICE c then
    ((b.set .TS_CHAN_IN_SERVICE c 0).set .TS_MARK_OUT_REASON c reason).event 0x48 0x24 [byteOf reason]
  else b

/-- The marked device of a channel. -/
def Block.markOf (b : Block) (k : Nat) : Option Nat :=
  if k < 2 then none
  else if b.get .TS_MARK_DEVICE (k - 2) = 0x1F then none else some (b.get .TS_MARK_DEVICE (k - 2))

/-- A correctable error of one device counted; at DEV_CE_LIMIT the device is marked, or the channel taken out when another
device is (R409, R411). -/
def Block.countDevice (b : Block) (c d : Nat) : Block :=
  let key := c * 32 + d
  let n := Tab.get b.ms.devCe key 0 + 1
  let b := { b with ms := { b.ms with devCe := Tab.put b.ms.devCe key n } }
  if n < max 1 (b.get .TS_CTRL_DEV_CE_LIMIT c) then b
  else match b.markOf (c + 2) with
    | none => ((b.set .TS_MARK_DEVICE c d).recordRemap 0xFE (remapWhere (c + 2) 1) d 0 0).2.event 0x48 0x23
    | some m => if m = d then b else b.takeOut c 2

/-- ROW_CE_LIMIT of a memory: 0 is applied as 1. -/
def Block.rowLimit (b : Block) (k : Nat) : Nat :=
  max 1 (if k < 2 then b.get .TF_SCRUB_ROW_CE_LIMIT k else b.get .TS_CTRL_ROW_CE_LIMIT (k - 2))

/-- The errors met by a row counted; at its limit, or at its first uncorrectable error, a remap is owed. A tier S row is then recorded for
repair, with event 0x22 when it has been recorded (R402, R408). -/
def Block.countRow (b : Block) (k o : Nat) (ue : Bool) : Block :=
  let key := if k < 2 then tfRowKey o else tsRowKey (b.dimm (k - 2)) o
  let rows := Tab.get b.ms.rows k []
  let r := Tab.get rows key { ce := 0, owed := false }
  let n := if ue then r.ce else r.ce + 1
  let r : RowErr := { ce := n, owed := r.owed || ue || decide (b.rowLimit k ≤ n) }
  let b := { b with ms := { b.ms with rows := Tab.put b.ms.rows k (Tab.put rows key r) } }
  if k < 2 then b
  else
    let c := k - 2
    let done := Tab.get b.ms.recorded c []
    if r.owed && !decide (key ∈ done) then
      let d := b.dimm c
      match b.recordRemap 0xFE (remapWhere k 0) (tsRank d o) (tsBank d o) (tsRow d o) with
      | (true, b) => ({ b with ms := { b.ms with recorded := Tab.put b.ms.recorded c (key :: done) } }).event 0x48 0x22
      | (false, b) => b
    else b

/-- The last-error register of a memory (TF_LAST, TS_LAST). -/
def Block.lastError (b : Block) (k o : Nat) (ue : Bool) (unit : Nat) : Block :=
  if k < 2 then
    (((b.set .TF_LAST_PCH k (tfPch o)).set .TF_LAST_BANK k (tfBank o)).set .TF_LAST_UE k (b2n ue)).set .TF_LAST_ROW k (tfRow o)
  else
    let c := k - 2
    let d := b.dimm c
    ((((b.set .TS_LAST_RANK c (tsRank d o)).set .TS_LAST_BANK c (tsBank d o)).set .TS_LAST_UE c (b2n ue)).set
      .TS_LAST_DEVICE c unit).set .TS_LAST_ROW c (tsRow d o)

-- Sectors ------------------------------------------------------------------------------------------------------------

def SecFault.none : SecFault := { poison := false, err := [] }

def Block.fault (b : Block) (sec : Nat) : SecFault := Tab.get b.ms.sectors sec SecFault.none

def Block.setFault (b : Block) (sec : Nat) (f : SecFault) : Block :=
  { b with ms := { b.ms with sectors :=
      if f = SecFault.none then Tab.del b.ms.sectors sec else Tab.put b.ms.sectors sec f } }

/-- The tile whose memory an address of local physical memory lies in. -/
def tileOf (a : Nat) : Option Nat :=
  if 0x30000000000 ≤ a ∧ a < 0x30004000000 then some ((a - 0x30000000000) / 0x200000) else none

/-- Errors that strike stored sectors of the tiers and of tile memory. -/
def Block.strike (b : Block) (l : List Strike) : Block :=
  l.foldl (fun b s =>
    if (memOf s.addr).isSome || (tileOf s.addr).isSome then
      let f := b.fault (s.addr / 32)
      b.setFault (s.addr / 32) { f with err := xorSyms f.err s.err }
    else b) b

/-- Why a sector is read: by a demand access of a partition (0xFF for none), for a read-merge-write, which writes no event (R381), by the
patrol, or for a row copy, which counts nothing (R403). -/
inductive ReadWhy where
  | demand (part : Nat) | merge | patrol | rowCopy
  deriving DecidableEq, Repr

/-- The 64-bit word of a tile-memory sector that a symbol belongs to: 32 data bytes, then one check byte for each word. -/
def wordOfSym (i : Nat) : Nat := if i < 32 then i / 8 else (i - 32) % 4

/-- The words of a sector of tile memory that bytes `lo` to `hi` touch are read: in each word one wrong bit is corrected and written
back, two are uncorrectable and left, and more are settled by a free value (R589, R590). TILE_LAST_ERR holds the last; an uncorrectable
word is event 0x04. -/
def Block.readTileSector (b : Block) (t sec lo hi : Nat) : Option Nat × Block :=
  ([0, 1, 2, 3].filter fun w => decide (sec * 32 + 8 * w < hi ∧ lo < sec * 32 + 8 * w + 8)).foldl (fun (acc : Option Nat × Block) w =>
    let (bad, b) := acc
    let f := b.fault sec
    let errs := f.err.filter fun e => wordOfSym e.1 = w
    let n := errs.foldl (fun n e => n + popCount e.2 8) 0
    let word := (sec * 32 - (0x30000000000 + t * 0x200000)) / 8 + w
    let last (b : Block) (ue : Nat) : Block :=
      ((b.set .TILE_LAST_ERR_WORD t word).set .TILE_LAST_ERR_UE t ue).set .TILE_LAST_ERR_KIND t 1
    let fixed (b : Block) : Block :=
      (last (b.setFault sec { f with err := f.err.filter fun e => wordOfSym e.1 ≠ w }) 0).bump .TILE_MEM_CE_COUNT t
    let lost (b : Block) : Block := ((last b 1).bump .TILE_MEM_UE_COUNT t).tileEvent t 0x04
    if n = 0 then acc
    else if n = 1 then (bad, fixed b)
    else if n = 2 then (some 0xC0, lost b)
    else if b.freeVal 1 = 0 then (some 0xC0, lost b.took)
    else
      let (l, b) := b.took.freeBytes 8
      (bad, fixed (b.writeMem (sec * 32 + 8 * w) l))) (none, b)

/-- One sector read and decoded (R396, R397, R400, R403, R896): what the reader gets, and the block with the corrected codeword
written back, the error counted and its event written. A word outside both columns of R393 is settled by a free value: lost, or
corrected as if one pin or device were in error, a free one; its bytes are then free, since the place of a pin's bits in them is not
stated. -/
def Block.readSector (b : Block) (why : ReadWhy) (sec : Nat) : Option Nat × Block :=
  match memOf (sec * 32) with
  | none => (none, b)
  | some k =>
    let o := sec * 32 - memBase k
    let f := b.fault sec
    let count := why ≠ .rowCopy
    let ueCause := if k < 2 then 0x80 else 0x81
    let lost (b : Block) : Option Nat × Block :=
      if !count then (some ueCause, b)
      else
        let b := if k < 2 then b.bump .TF_UE_COUNT k else b.bump .TS_UE_COUNT (k - 2)
        let unit := ((f.err.map fun e => symUnit k (b.dimm (k - 2)).x8 e.1).head?).getD 0
        let b := (b.lastError k o true unit).countRow k o true
        (some ueCause, match why with
          | .demand p => b.event (if k < 2 then 0x40 else 0x48) 0x20 [] p
          | .patrol => b.event (if k < 2 then 0x40 else 0x48) 0x21
          | _ => b)
    let fixed (b : Block) (units : List Nat) : Option Nat × Block :=
      let b := b.setFault sec SecFault.none
      if !count then (none, b)
      else
        let b := if k < 2 then b.bump .TF_CE_COUNT k else b.bump .TS_CE_COUNT (k - 2)
        let unit := units.headD ((b.markOf k).getD 0)
        let b := (b.lastError k o false unit).countRow k o false
        (none, if k < 2 then b else units.foldl (fun b u => b.countDevice (k - 2) u) b)
    match decode k (b.dimm (k - 2)).x8 (b.markOf k) f with
    | .clean => (none, b)
    | .poisoned => (some 0x82, b)
    | .corrected units => fixed b units
    | .lost => lost b
    | .open_ =>
      let pick := b.freeVal 1
      let b := b.took
      if pick = 0 then lost b
      else
        let unit := b.freeVal 8 % symUnits k (b.dimm (k - 2)).x8
        let (l, b) := b.took.freeBytes 32
        fixed (b.writeMem (sec * 32) l) [unit]

/-- The faulty sectors among those that cover `n` bytes at `a`, in ascending order. -/
def Block.faultySectors (b : Block) (a n : Nat) : List Nat :=
  (b.ms.sectors.filter fun e => decide (a / 32 ≤ e.1 ∧ e.1 * 32 < a + n)).map (·.1)

/-- Sectors read in ascending order until one fails; the failing sector and its cause. -/
def Block.readSectors (b : Block) (why : ReadWhy) : List Nat → Option (Nat × Nat) × Block
  | [] => (none, b)
  | s :: r =>
    match b.readSector why s with
    | (none, b) => b.readSectors why r
    | (some c, b) => (some (s, c), b)

/-- Sectors of tile memory read, bytes `lo` to `hi` of them, until a word is lost. -/
def Block.readTile (b : Block) (lo hi : Nat) : List Nat → Option (Nat × Nat) × Block
  | [] => (none, b)
  | s :: r =>
    match tileOf (s * 32) with
    | none => b.readTile lo hi r
    | some t =>
      match b.readTileSector t s lo hi with
      | (none, b) => b.readTile lo hi r
      | (some c, b) => (some (s, c), b)

/-- `n` bytes of physical memory read on demand for a partition: the bytes, or the address of the first sector lost and its FAULT_MEM_UE cause. -/
def Block.readPhys (b : Block) (part a n : Nat) : Except (Nat × Nat) (List Byte) × Block :=
  let l := b.faultySectors a n
  match if (tileOf a).isSome then b.readTile a (a + n) l else b.readSectors (.demand part) l with
  | (none, b) => (.ok (b.readMem a n), b)
  | (some (s, c), b) => (.error (s * 32, c), b)

/-- What a partial write merges, in bytes: a sector of tier F, a line of tier S (R338, R378). -/
def mergeUnit (a : Nat) : Nat := match memOf a with | some k => if k < 2 then 32 else 128 | none => 1

/-- Sectors read for a merge, each of them: the first cause of failure, and the addresses of those that failed. -/
def Block.mergeReads (b : Block) (l : List Nat) : Option Nat × List Nat × Block :=
  l.foldl (fun (acc : Option Nat × List Nat × Block) s =>
    match acc.2.2.readSector .merge s with
    | (none, b) => (acc.1, acc.2.1, b)
    | (some c, b) => (if acc.1.isSome then acc.1 else some c, acc.2.1 ++ [s * 32], b)) (none, [], b)

/-- Bytes written to the tiers: a sector written whole loses its errors and poison; a sector of tier F or a line of tier S written in part
is merged, the sectors it does not cover whole being read first, and abandoned when one of those reads fails (R338, R378, R381, R395).
Only the first and the last unit of a range can be written in part. -/
def Block.writeTier (b : Block) (a : Nat) (l : List Byte) : Option Nat × Block :=
  let n := l.length
  let g := mergeUnit a
  let whole (s : Nat) : Bool := decide (a ≤ s * 32 ∧ s * 32 + 32 ≤ a + n)
  let first := a / g
  let last := (a + n - 1) / g
  let (c, lost, b) := b.mergeReads ((b.faultySectors (first * g) ((last + 1 - first) * g)).filter fun s => !whole s)
  let lo := if lost.any fun x => x / g == first then (first + 1) * g else a
  let hi := if lost.any fun x => x / g == last then last * g else a + n
  if n = 0 ∨ hi ≤ lo then (c, b)
  else
    let fresh := (b.faultySectors lo (hi - lo)).filter whole
    (c, fresh.foldl (fun b s => b.setFault s SecFault.none) (b.writeMem lo (slice l (lo - a) (hi - lo))))

/-- Bytes written to physical memory; a word of tile memory written whole loses its errors. Answers the cause of a failed merge. -/
def Block.writePhys (b : Block) (a : Nat) (l : List Byte) : Option Nat × Block :=
  let n := l.length
  let fresh (s i : Nat) : Bool := decide (a ≤ s * 32 + 8 * wordOfSym i ∧ s * 32 + 8 * wordOfSym i + 8 ≤ a + n)
  if (tileOf a).isSome then
    (none, (b.faultySectors a n).foldl (fun b s => b.setFault s { b.fault s with err := (b.fault s).err.filter fun e => !fresh s e.1 })
      (b.writeMem a l))
  else if (memOf a).isSome then b.writeTier a l
  else (none, b.writeMem a l)

-- Patrol and live remap ----------------------------------------------------------------------------------------------

/-- A memory that can be reached: a stack whose die is neither recovering nor tripped nor in self-refresh, or a channel in
service. -/
def Block.memUp (b : Block) (k : Nat) : Bool :=
  if k < 2 then !(b.die k).recovering && !(b.die k).tripped && b.pwr.furl != .furled && b.pwr.furl != .exiting
  else b.on .TS_CHAN_IN_SERVICE (k - 2)

/-- A live remap is owed on a stack: it comes before patrol work (R417). -/
def Block.remapOwed (b : Block) (k : Nat) : Bool := decide (k < 2) && (Tab.get b.ms.rows k []).any fun e => e.2.owed

/-- PERIOD_H of a memory's patrol in counts of the GMC; 0 is applied as 1. -/
def Block.patrolPeriod (b : Block) (k : Nat) : Nat :=
  let h := if k < 2 then b.get .TF_SCRUB_PERIOD_H k else b.get .TS_SCRUB_PERIOD_H (k - 2)
  max 1 h * 3600000000000

/-- A pass of a memory's patrol is due: a period has gone since the last one started. -/
def Block.patrolDue (b : Block) (k : Nat) : Bool :=
  match Tab.find b.ms.patrols k with
  | some t => decide (t + b.patrolPeriod k ≤ b.gmc)
  | none => true

/-- PATROL_SCRUB (R399 to R402, R417): one pass over memory k, once in PERIOD_H hours, when no live remap is owed there. Row counts
restart; every sector is read in ascending order, corrected ones written back, lost ones counted with event 0x21, poisoned ones left. -/
def Block.patrolScrub (b : Block) (k : Nat) (strikes : List Strike) : Block :=
  let en := if k < 2 then b.on .TF_SCRUB_EN k else b.on .TS_SCRUB_EN (k - 2)
  if en && b.memUp k && decide (k < 10) && !b.remapOwed k && b.patrolDue k then
    let b := { b with ms := { b.ms with patrols := Tab.put b.ms.patrols k b.gmc } }
    let owed := ((Tab.get b.ms.rows k []).filter fun e => e.2.owed).map fun e => (e.1, { e.2 with ce := 0 })
    let b := { b with ms := { b.ms with rows := if owed = [] then Tab.del b.ms.rows k else Tab.put b.ms.rows k owed } }
    let b := b.strike strikes
    ((b.ms.sectors.filter fun e => memOf (e.1 * 32) == some k).map (·.1)).foldl (fun b s => (b.readSector .patrol s).2) b
  else b

def execPatrolScrub (memory : Nat) (strikes : List Strike) (s : State) := s.act (·.patrolScrub memory strikes)

/-- The sectors of the row of a stack offset: A[14:13] and A[7:0] vary (R886). -/
def rowSectors (s key : Nat) : List Nat :=
  let base := memBase s + (key / 32) * 2 ^ 15 + (key % 32) * 256
  (List.range 32).map fun i => (base + (i / 8) * 2 ^ 13 + (i % 8) * 32) / 32

/-- A sector copied by a live remap: corrected, or written back poisoned when it was lost (R403). -/
def Block.copySector (b : Block) (sec : Nat) : Block :=
  match b.readSector .rowCopy sec with
  | (none, b) => b
  | (some _, b) => b.setFault sec { poison := true, err := [] }

/-- LIVE_REMAP (R402 to R406): the row of stack s that holds the offset, once it has reached ROW_CE_LIMIT or met an uncorrectable
error. With a spare row its sectors are copied, lost ones written back poisoned, and the remap is recorded; with none the bank is
reported once. -/
def Block.liveRemap (b : Block) (s o : Nat) (spare : Bool) : Block :=
  let key := tfRowKey o
  let rows := Tab.get b.ms.rows s []
  if s < 2 ∧ (Tab.get rows key { ce := 0, owed := false }).owed then
    let b := { b with ms := { b.ms with rows := Tab.put b.ms.rows s (Tab.del rows key) } }
    if spare then
      let b := (rowSectors s key).foldl (fun b x => b.copySector x) b
      let b := (b.recordRemap 0xFE (remapWhere s 0) (tfPch o) (tfBank o) (tfRow o)).2
      let b := { b with ms := { b.ms with remapped := Tab.put b.ms.remapped s (nub (Tab.get b.ms.remapped s [] ++ [key])) } }
      (b.bump .TF_REMAP_LIVE s).event 0x40 0x22
    else
      let bank := tfPch o * 64 + tfBank o
      let out := Tab.get b.ms.spareOut s []
      if bank ∈ out then b
      else
        let b := { b with ms := { b.ms with spareOut := Tab.put b.ms.spareOut s (out ++ [bank]) } }
        (b.bump .TF_REMAP_SPARE_OUT s).event 0x40 0x23
  else b

def execLiveRemap (stack off : Nat) (spare : Bool) (s : State) := s.act (·.liveRemap stack off spare)

/-- A device-mark entry of a channel that is neither empty nor retired. -/
def Block.liveMark (b : Block) (c i : Nat) : Bool :=
  let e := b.remapEntry i
  let st := fieldAt e 0 1
  decide (fieldAt e 1 1 = remapWhere (c + 2) 1) && (st == 0xFE || st == 0xFC)

/-- REMAP_RETIRE (R410): every device-mark entry of channel CH is retired, and the mark in force ends at once. -/
def Block.remapRetire (b : Block) (c : Nat) : Block :=
  let b := (b.remapUsed.filter (b.liveMark c)).foldl (fun b i => b.programNvm (remapBase + 16 * i) [0]) b
  let b := { b with ms := { b.ms with devCe := b.ms.devCe.filter fun e => e.1 / 32 ≠ c } }
  b.set .TS_MARK_DEVICE c 0x1F

def execRemapRetire (channel : Nat) (s : State) := s.act fun b => (b.set .REMAP_CTRL_CH 0 channel).remapRetire channel

/-- CHANNEL_TAKE_OUT (R411): by TAKE_OUT (reason 1), by a second failing device (2), or by a command-parity or write-CRC error that
persists after 8 retries (3). -/
def execChannelTakeOut (channel reason : Nat) (s : State) := s.act (·.takeOut channel reason)

-- Sluices (R419 to R425, R431, R894, R895) ---------------------------------------------------------------------------

def Sluice.reset : Sluice := { run := false, en := false, rate := 256, burst := 4, level := 0 }

/-- Index of the sluice of partition p on memory k. -/
def slIx (p k : Nat) : Nat := p * 10 + k

def Block.sluice (b : Block) (i : Nat) : Sluice := Tab.get b.ms.sluices i Sluice.reset
def Block.setSluice (b : Block) (i : Nat) (x : Sluice) : Block := { b with ms := { b.ms with sluices := Tab.put b.ms.sluices i x } }

/-- One share of a memory, in bytes. -/
def slShare (k : Nat) : Nat := if k < 2 then 4000 else 128

/-- A rate as applied: 0 as 1, above 256 as 256. -/
def slRate (r : Nat) : Nat := min 256 (max 1 r)

/-- The Governor's narrowing of memory k, when it is a stack that is HOT or CRITICAL (R429). -/
def Block.narrowTo (b : Block) (k : Nat) : Option Nat :=
  if k < 2 then
    match bits (b.get .GOV_STATE_STATES) (2 * k) 2 with
    | 2 => some (slRate (b.get .GOV_RATES_HOT_RATE))
    | 3 => some (min (slRate (b.get .GOV_RATES_HOT_RATE)) (slRate (b.get .GOV_RATES_CRIT_RATE)))
    | _ => none
  else none

/-- The most a sluice holds: BURST × RATE shares. -/
def slCap (k : Nat) (x : Sluice) : Int := ((x.burst * x.rate * slShare k : Nat) : Int)

/-- A sluice at the end of a refill period: the register values and the narrowing take effect, the level gains RATE shares and is
cut to its limit; one that starts to run starts full, one that stops keeps no level. -/
def Block.refillOne (b : Block) (p k : Nat) : Block :=
  let i := slIx p k
  let old := b.sluice i
  let en := b.on .SL_CFG_EN i
  let narrow := b.narrowTo k
  let full := if en then slRate (b.get .SL_CFG_RATE i) else 256
  let rate := match narrow with | some n => min full n | none => full
  let burst := if en then max 1 (b.get .SL_CFG_BURST i) else 4
  let x : Sluice := { run := en || narrow.isSome, en := en, rate := rate, burst := burst, level := 0 }
  let level : Int :=
    if !x.run then 0
    else if !old.run || (en && !old.en) then slCap k x
    else min (slCap k x) (old.level + ((rate * slShare k : Nat) : Int))
  b.setSluice i { x with level := level }

/-- One memory's refill for all partitions. -/
def Block.refill (b : Block) (k : Nat) : Block := (List.range 8).foldl (fun b p => b.refillOne p k) b

/-- A controller starts to count refill periods anew: every sluice on it that runs stands full (R895). -/
def Block.restartSluices (b : Block) (k : Nat) : Block :=
  (List.range 8).foldl (fun b p => (b.setSluice (slIx p k) Sluice.reset).refillOne p k) b

/-- A sluice whose registers return to reset (R894): it stops and keeps no level, unless the Governor narrows it. A narrowed one that was
enabled starts anew as narrowing starts it; one that ran only for the narrowing goes on. -/
def Block.stopSluice (b : Block) (p k : Nat) : Block :=
  let i := slIx p k
  if (b.narrowTo k).isNone then { b with ms := { b.ms with sluices := Tab.del b.ms.sluices i } }
  else if (b.sluice i).en then (b.setSluice i Sluice.reset).refillOne p k
  else b

/-- What a sector of tier F or a line of tier S is charged (R420). -/
def slUnit (k : Nat) : Nat := if k < 2 then 32 else 128

/-- A charge of `n` bytes on a sluice (R420 to R423): how much of it the level covers now, sector by sector or line by line (R888), and
the block with that much taken. A latency-critical read may take the level down to -(BURST × RATE) shares. DEDUCED: each sector or line,
and each of a read-merge-write's two charges, is admitted for itself. -/
def Block.charge (b : Block) (p k n : Nat) (crit : Bool) : Nat × Block :=
  let i := slIx p k
  let x := b.sluice i
  if !x.run then (n, b)
  else
    let top : Int := if crit then x.level + slCap k x else x.level
    let g := min n (top.toNat / slUnit k * slUnit k)
    (g, b.setSluice i { x with level := x.level - ((g : Nat) : Int) })

/-- An access waits on a sluice: counted in SL_WAITS, and its operation will carry REGULATED (R425). -/
def Block.slWait (b : Block) (p k : Nat) (job : Option Nat) : Block :=
  let b := b.bump .SL_WAITS_COUNT (slIx p k)
  match job with
  | none => b
  | some id => b.setJobs (b.hop.jobs.map fun j => if j.id = id then { j with regulated := true } else j)

end Sys2Proof.Machine
end

