-- ==== Sys2Proof/Machine/Place.lean ====
section
/-! DEFINITION. Placement and translation (spec/08): physical units and their owners, the PLACE, UNPLACE and INVALIDATE
descriptors, the exchange of runs, the release of preloaded units, the translation caches, and the check of an address on behalf
of a partition. -/

namespace Sys2Proof.Machine

def unitBytes : Nat := 0x200000

/-- Units of memory k: 12,288 in a stack, the installed capacity in a channel. -/
def Block.memCap (b : Block) (k : Nat) : Nat := if k < 2 then 12288 else b.get .TS_CHAN_CAP_GIB (k - 2) * 512

/-- Memory k takes placements: a stack, or a channel in service (R349). -/
def Block.memPlaces (b : Block) (k : Nat) : Bool := k < 2 || b.on .TS_CHAN_IN_SERVICE (k - 2)

-- Runs (R344) --------------------------------------------------------------------------------------------------------

def Block.runs (b : Block) (p : Nat) : List Run := Tab.get b.ms.runs p []
def Block.setRuns (b : Block) (p : Nat) (l : List Run) : Block :=
  { b with ms := { b.ms with runs := if l = [] then Tab.del b.ms.runs p else Tab.put b.ms.runs p l } }

/-- The memory number of way j of a run. -/
def Run.mem (r : Run) (j : Nat) : Nat := (if r.tier = 0 then 0 else 2) + r.first + j

/-- Physical address of unit i of a run (R344). -/
def Run.unitAt (r : Run) (i : Nat) : Nat := memBase (r.mem (i % r.ways)) + (r.idx + i / r.ways) * unitBytes

/-- The index interval that units lo to hi - 1 of a run occupy on its way j. -/
def Run.wayPart (r : Run) (lo hi j : Nat) : Nat × Nat :=
  (r.idx + (lo + r.ways - 1 - j) / r.ways, r.idx + (hi + r.ways - 1 - j) / r.ways)

/-- The run that holds a partition unit. -/
def findRun (l : List Run) (u : Nat) : Option Run := l.find? fun r => decide (r.punit ≤ u ∧ u < r.punit + r.count)

/-- Units a partition uses in a tier (PL_F_USED, PL_S_USED). -/
def Block.usedUnits (b : Block) (p tier : Nat) : Nat :=
  ((b.runs p).filter fun r => r.tier == tier).foldl (fun n r => n + r.count) 0

/-- The ways of memory k that a run occupies, as index intervals. -/
def Run.onMem (r : Run) (k : Nat) : List (Nat × Nat) :=
  ((List.range r.ways).filter fun j => r.mem j == k).map fun j => r.wayPart 0 r.count j

/-- Index intervals of memory k that are PLACED. -/
def Block.placedOn (b : Block) (k : Nat) : List (Nat × Nat) := b.ms.runs.flatMap fun e => e.2.flatMap fun r => r.onMem k

/-- The partition for which the unit that holds a physical address is placed. -/
def Block.unitOwner (b : Block) (a : Nat) : Option Nat :=
  match memOf a with
  | none => none
  | some k =>
    let i := (a - memBase k) / unitBytes
    (b.ms.runs.find? fun e => e.2.any fun r => (r.onMem k).any fun v => decide (v.1 ≤ i ∧ i < v.2)).map (·.1)

-- Reaching a memory (R83, R99, R100, R106, R107, R438) -----------------------------------------------------------------

/-- The tiers of this package can be reached now: for tier F a Furled or entering package is woken (R99, R106, R107) and the stack of a
recovering or tripped die waits (R83, R438); a tier S pair in self-refresh wakes, and its periods start anew (R100, R895). -/
def Block.reach (b : Block) (k : Nat) : Bool × Block :=
  if k < 2 then
    let b := b.wakeForWork
    (b.pwr.furl == .a0 && !(b.die k).recovering && !(b.die k).tripped, b)
  else
    let pair := (k - 2) / 2
    let slept := b.pwr.pairSleep.testBit pair
    let b := { b with pwr := { b.pwr with pairSleep := clrBit b.pwr.pairSleep pair, pairLast := Tab.put b.pwr.pairLast pair b.gmc } }
    (true, if slept then (b.restartSluices (2 + 2 * pair)).restartSluices (3 + 2 * pair) else b)

/-- Every memory of a list can be reached; each is asked for. -/
def Block.reachAll (b : Block) (l : List Nat) : Bool × Block :=
  l.foldl (fun (acc : Bool × Block) k => let (ok, b) := acc.2.reach k; (acc.1 && ok, b)) (true, b)

-- Free units ---------------------------------------------------------------------------------------------------------

/-- The gaps below `hi` left by half-open intervals in ascending order of their starts, from `cur` on. -/
def gaps (hi : Nat) : Nat → List (Nat × Nat) → List (Nat × Nat)
  | cur, [] => if cur < hi then [(cur, hi)] else []
  | cur, (x, y) :: r => (if cur < min x hi then [(cur, min x hi)] else []) ++ gaps hi (max cur y) r

/-- Index intervals FREE in every one of the memories. -/
def Block.freeIn (b : Block) (ks : List Nat) : List (Nat × Nat) :=
  if ks.all b.memPlaces then
    let occ := ks.flatMap fun k => Tab.get b.ms.preloaded k [] ++ b.placedOn k
    let hi := ks.foldl (fun m k => min m (b.memCap k)) 65536
    gaps hi 0 (sortBy (fun x y => decide (x.1 ≤ y.1)) (occ.filter fun v => decide (v.1 < v.2)))
  else []

def ivSize (l : List (Nat × Nat)) : Nat := l.foldl (fun n v => n + (v.2 - v.1)) 0

/-- FREE units of memory k. -/
def Block.freeUnits (b : Block) (k : Nat) : Nat := ivSize (b.freeIn [k])

/-- FREE units across tier S. -/
def Block.freeS (b : Block) : Nat := (List.range 8).foldl (fun n c => n + b.freeUnits (2 + c)) 0

/-- Up to `n` units over a set of ways, at the lowest indices free in every way, as runs from partition unit `u`; the runs, the
units still needed and the next partition unit (R349). -/
def takeRuns (tier ways first : Nat) (prefF : Bool) : List (Nat × Nat) → Nat → Nat → List Run × Nat × Nat
  | [], n, u => ([], n, u)
  | (x, y) :: r, n, u =>
    if n = 0 then ([], 0, u)
    else
      let c := min n ((y - x) * ways)
      let run : Run := { punit := u, count := c, tier := tier, ways := ways, first := first, idx := x, prefF := prefF }
      let (l, n', u') := takeRuns tier ways first prefF r (n - c) (u + c)
      (run :: l, n', u')

/-- The candidate sets of tier F for a STACK value (R349), as WAYS and FIRST. -/
def fSets (stack : Nat) : List (Nat × Nat) := if stack = 0 then [(2, 0), (1, 0), (1, 1)] else [(1, stack - 1)]

/-- The candidate sets of tier S: larger WAYS first, then lower FIRST. -/
def sSets : List (Nat × Nat) :=
  [(8, 0), (4, 0), (4, 4), (2, 0), (2, 2), (2, 4), (2, 6), (1, 0), (1, 1), (1, 2), (1, 3), (1, 4), (1, 5), (1, 6), (1, 7)]

/-- The memories of a candidate set. -/
def setMems (tier : Nat) (s : Nat × Nat) : List Nat := (List.range s.1).map fun j => (if tier = 0 then 0 else 2) + s.2 + j

/-- Units taken from candidate sets in turn for partition p, the runs added to its table as they are taken. -/
def Block.takeSets (b : Block) (p tier : Nat) (prefF : Bool) : List (Nat × Nat) → Nat → Nat → Block × Nat
  | [], _, u => (b, u)
  | s :: r, n, u =>
    if n = 0 then (b, u)
    else
      let (l, n', u') := takeRuns tier s.1 s.2 prefF (b.freeIn (setMems tier s)) n u
      (b.setRuns p (b.runs p ++ l)).takeSets p tier prefF r n' u'

/-- Units taken in one tier (R349): from the first of `single` that holds enough in every way, else from every set in turn. -/
def Block.takeTier (b : Block) (p tier : Nat) (prefF : Bool) (single sets : List (Nat × Nat)) (n u : Nat) : Block × Nat :=
  match single.find? fun s => decide (n ≤ s.1 * ivSize (b.freeIn (setMems tier s))) with
  | some s => b.takeSets p tier prefF [s] n u
  | none => b.takeSets p tier prefF sets n u

-- Invalidation (R366, R367, R370) ------------------------------------------------------------------------------------

/-- The largest aligned block of 256, 16 or 1 units around a unit that lies wholly inside a run (R362). -/
def tcBlock (r : Run) (u : Nat) : Nat × Nat :=
  let fits (s : Nat) : Bool := decide (r.punit ≤ u / s * s ∧ u / s * s + s ≤ r.punit + r.count)
  if fits 256 then (u / 256 * 256, 256) else if fits 16 then (u / 16 * 16, 16) else (u, 1)

/-- The block of a fill meets a range of units; the block of another package's run is not known before its answer, and the largest aligned
block stands for it (R362, R367). -/
def Fill.meets (f : Fill) (u n : Nat) : Bool :=
  let (base, size) := match f.found with | some r => tcBlock r f.unit | none => (f.unit / 256 * 256, 256)
  decide (base < u + n ∧ u < base + size)

/-- The entries of a package and partition that meet a range of units are dropped on both dies, and fills of them under way are
stale. -/
def Block.dropTrans (b : Block) (pkg p u n : Nat) : Block :=
  { b with ms := { b.ms with
      tc := b.ms.tc.filter fun e => !(decide (e.pkg = pkg ∧ e.part = p ∧ e.base < u + n ∧ u < e.base + e.size))
      fills := b.ms.fills.map fun f => if f.pkg = pkg ∧ f.part = p ∧ f.meets u n then { f with stale := true } else f } }

/-- Every entry of a partition dropped, for every package. -/
def Block.dropAllTrans (b : Block) (p : Nat) : Block :=
  { b with ms := { b.ms with
      tc := b.ms.tc.filter fun e => e.part ≠ p
      fills := b.ms.fills.map fun f => if f.part = p then { f with stale := true } else f } }

/-- The package's own number. -/
def Block.pkg (b : Block) : Nat := b.get .FAB_TOPO_PKG

-- PLACE (R345 to R353) -----------------------------------------------------------------------------------------------

def plPaddr (d : List Byte) : Nat := dArg d 0x00 8
def plUnits (d : List Byte) : Nat := dArg d 0x08 4
def plOp (d : List Byte) : Nat := dArg d 0x0C 1
def plPolicy (d : List Byte) : Nat := dArg d 0x0D 1
def plTier (d : List Byte) : Nat := bits (plPolicy d) 0 2
def plStack (d : List Byte) : Nat := bits (plPolicy d) 2 2
def plFixed (d : List Byte) : Bool := (plPolicy d).testBit 4
def plPhys (d : List Byte) : Nat := dArg d 0x10 8

/-- The partition units that exist: the tier F range, and each channel's range up to its installed capacity. -/
def Block.validUnits (b : Block) : List (Nat × Nat) :=
  (0, 24576) :: (List.range 8).map fun c =>
    let u := memBase (2 + c) / unitBytes
    (u, u + b.memCap (2 + c))

/-- The memory and index of a FIXED range, when it is contiguous within one stack or channel (R346). -/
def Block.fixedAt (b : Block) (phys n : Nat) : Option (Nat × Nat) :=
  match memOf phys with
  | none => none
  | some k =>
    let i := (phys - memBase k) / unitBytes
    if i + n ≤ b.memCap k then some (k, i) else none

/-- BAD_PLACE (R346). -/
def Block.placeBad (b : Block) (d : List Byte) : Bool :=
  let u := plPaddr d / unitBytes
  let n := plUnits d
  plPaddr d % unitBytes != 0 || plPhys d % unitBytes != 0 || dWidth d != 0 || dArg d 0x0E 2 != 0 || dArg d 0x18 8 != 0 ||
    bits (plPolicy d) 5 3 != 0 || plOp d == 0 || decide (2 < plOp d) || plTier d == 3 || plStack d == 3 || n == 0 ||
    decide (524288 < n) || (plPhys d != 0 && !plFixed d) || (plOp d == 2 && (plPolicy d != 0 || plPhys d != 0)) ||
    (plFixed d && (b.fixedAt (plPhys d) n).isNone) || gaps (u + n) u b.validUnits != []

/-- Free units of the intervals: those not PRELOADED, which a FIXED placement zeroes (R352). -/
def Block.zeroFree (b : Block) (k lo hi : Nat) (pre : List (Nat × Nat)) : Block :=
  (gaps hi lo (pre.filter fun v => decide (lo < v.2))).foldl
    (fun b v =>
      let a := memBase k + v.1 * unitBytes
      let n := (v.2 - v.1) * unitBytes
      (b.faultySectors a n).foldl (fun b s => b.setFault s SecFault.none) (b.zeroMem a n)) b

/-- Every unit of a run zeroed where it was FREE when taken, PRELOADED units excepted. -/
def Block.zeroRun (b : Block) (r : Run) (pre : Tab (List (Nat × Nat))) : Block :=
  (List.range r.ways).foldl (fun b j =>
    let v := r.wayPart 0 r.count j
    b.zeroFree (r.mem j) v.1 v.2 (Tab.get pre (r.mem j) [])) b

/-- Index intervals cut by the removal of [lo, hi). -/
def ivCut (lo hi : Nat) (l : List (Nat × Nat)) : List (Nat × Nat) :=
  l.flatMap fun v => (if v.1 < min v.2 lo then [(v.1, min v.2 lo)] else []) ++ (if max v.1 hi < v.2 then [(max v.1 hi, v.2)] else [])

/-- The table in PUNIT order. -/
def sortRuns (l : List Run) : List Run := sortBy (fun x y => decide (x.punit ≤ y.punit)) l

/-- The largest number of runs of a table. -/
def maxRuns : Nat := 1024

/-- The result of a placement or removal: the block changed, or a status with its cause. -/
inductive Placed where
  | done (b : Block) (result : Nat)
  | refused (status cause : Nat)
  deriving DecidableEq, Repr

/-- The quotas of a partition as its last grant applied them (R219): tier F, tier S. -/
def Block.quota (b : Block) (p : Nat) : Nat × Nat := Tab.get b.ms.quotas p (0, 0)

/-- OP PLACE with its arguments checked (R347 to R353). -/
def Block.placeUnits (b : Block) (p : Nat) (d : List Byte) : Placed :=
  let u := plPaddr d / unitBytes
  let n := plUnits d
  let old := b.runs p
  let fQuota := (b.quota p).1
  let sQuota := (b.quota p).2
  let fLeft := fQuota - b.usedUnits p 0
  let sLeft := sQuota - b.usedUnits p 1
  let finish (c : Block) (pre : Tab (List (Nat × Nat))) : Placed :=
    let new := (c.runs p).drop old.length
    if maxRuns < (c.runs p).length then .refused stQuota 0x7A
    else
      let c := c.setRuns p (sortRuns (c.runs p))
      let c := new.foldl (fun c r => c.zeroRun r pre) c
      let s := (new.filter fun r => r.tier == 1).foldl (fun m r => m + r.count) 0
      .done (c.dropTrans b.pkg p u n) s
  if old.any fun r => decide (r.punit < u + n ∧ u < r.punit + r.count) then .refused stDesc 0x73
  else if plFixed d then
    match b.fixedAt (plPhys d) n with
    | none => .refused stDesc 0x70
    | some (k, i) =>
      if !b.memPlaces k || (b.placedOn k).any fun v => decide (v.1 < i + n ∧ i < v.2) then .refused stDesc 0x76
      else if (if k < 2 then fLeft else sLeft) < n then .refused stQuota 0x71
      else
        let pre := b.ms.preloaded
        let run : Run := { punit := u, count := n, tier := if k < 2 then 0 else 1, ways := 1,
                           first := if k < 2 then k else k - 2, idx := i, prefF := false }
        let c := { b with ms := { b.ms with preloaded := Tab.put pre k (ivCut i (i + n) (Tab.get pre k [])) } }
        finish (c.setRuns p (old ++ [run])) pre
  else
    let tier := plTier d
    let hbm := if plStack d = 0 then [0, 1] else [plStack d - 1]
    let freeF := hbm.foldl (fun m k => m + b.freeUnits k) 0
    let f := if tier = 2 then 0 else min n (min fLeft freeF)
    let s := n - f
    if tier = 1 ∧ f < n then .refused stQuota (if fLeft < n then 0x71 else 0x72)
    else if sLeft < s then .refused stQuota 0x71
    else if b.freeS < s then .refused stQuota 0x72
    else
      let sets := fSets (plStack d)
      let (c, u') := b.takeTier p 0 (tier == 0) (sets.take 1) sets f u
      let (c, _) := c.takeTier p 1 (tier == 0) sSets sSets s u'
      finish c []

/-- A memory-table job ends with what its operation answered. -/
def Block.endPlaced (b : Block) (j : Job) (r : Placed) : Block :=
  match r with
  | .done c n => c.conclude j stDone 0 n
  | .refused st cause => if st = stDesc then b.violateJob j cause else b.conclude j st cause 0

/-- The memories of the runs that a placement has added to a partition. -/
def Block.newMems (b c : Block) (p : Nat) : List Nat :=
  nub (((c.runs p).filter fun r => decide (r ∉ b.runs p)).flatMap fun r => (List.range r.ways).map r.mem)

/-- PLACE (R345 to R353). The units it zeroes are written in their memories: while one of these cannot be reached the job waits. -/
def Block.place (b : Block) (id : Nat) : Block :=
  match b.engineStart engTable onTables anyJob (fun j => isOp 0x22 j && plOp j.desc != 2) id with
  | none => b
  | some (j, c) =>
    if c.placeBad j.desc then c.violateJob j 0x70
    else match c.placeUnits j.part j.desc with
      | .done d n =>
        match d.reachAll (c.newMems d j.part) with
        | (true, d) => c.endPlaced j (.done d n)
        | (false, _) => (b.reachAll (c.newMems d j.part)).2
      | r => c.endPlaced j r

def execPlace (job : Nat) (s : State) := s.act (·.place job)

-- UNPLACE (R354) -----------------------------------------------------------------------------------------------------

/-- What remains of a run from its unit i on: single-unit runs up to the next way cycle, then one striped run. -/
def Run.tail (r : Run) (i : Nat) : List Run :=
  let lead := min (r.count - i) ((r.ways - i % r.ways) % r.ways)
  let singles := (List.range lead).map fun k =>
    { r with punit := r.punit + i + k, count := 1, ways := 1, first := r.first + (i + k) % r.ways,
             idx := r.idx + (i + k) / r.ways }
  let j := i + lead
  singles ++ (if j < r.count then [{ r with punit := r.punit + j, count := r.count - j, idx := r.idx + j / r.ways }] else [])

/-- A run without the units of a range. -/
def Run.cut (r : Run) (u n : Nat) : List Run :=
  if r.punit + r.count ≤ u ∨ u + n ≤ r.punit then [r]
  else
    (if r.punit < u then [{ r with count := u - r.punit }] else []) ++
      (if u + n < r.punit + r.count then r.tail (u + n - r.punit) else [])

/-- An access that was translated through units of a range of a partition is under way: a request not yet served, or bytes held in a
write-combining buffer. -/
def Block.rangeBusy (b : Block) (p u n : Nat) : Bool :=
  let inRange (a : Nat) : Bool :=
    (b.runs p).any fun r => (List.range r.ways).any fun j =>
      let lo := max r.punit u - r.punit
      let hi := min (r.punit + r.count) (u + n) - r.punit
      let v := r.wayPart lo hi j
      decide (lo < hi ∧ memBase (r.mem j) + v.1 * unitBytes ≤ a ∧ a < memBase (r.mem j) + v.2 * unitBytes)
  (b.ms.accs.any fun a => a.part == p && a.todo.any fun q => match q.phys with | some x => inRange x | none => false) ||
    b.ms.wc.any fun e => e.part == p && e.pkg == b.pkg && inRange (e.line * 128)

/-- OP UNPLACE with its arguments checked: RUNS_FULL changes nothing; otherwise the units leave the table and become FREE. -/
def Block.unplaceUnits (b : Block) (p u n : Nat) : Placed :=
  let old := b.runs p
  let new := old.flatMap fun r => r.cut u n
  let freed := old.foldl (fun m r => m + r.count) 0 - new.foldl (fun m r => m + r.count) 0
  if maxRuns < new.length then .refused stQuota 0x7A
  else .done ((b.setRuns p new).dropTrans b.pkg p u n) freed

/-- UNPLACE (R354): the matching translation entries go first; while accesses translated through them are under way the job
waits. -/
def Block.unplace (b : Block) (id : Nat) : Block :=
  match b.engineStart engTable onTables anyJob (fun j => isOp 0x22 j && plOp j.desc == 2) id with
  | none => b
  | some (j, c) =>
    let u := plPaddr j.desc / unitBytes
    if c.placeBad j.desc then c.violateJob j 0x70
    else if c.rangeBusy j.part u (plUnits j.desc) then b.dropTrans b.pkg j.part u (plUnits j.desc)
    else c.endPlaced j (c.unplaceUnits j.part u (plUnits j.desc))

def execUnplace (job : Nat) (s : State) := s.act (·.unplace job)

-- Exchange and release -----------------------------------------------------------------------------------------------

/-- PT_XCHG (R357, R358): TIER, WAYS, FIRST and PHYS_IDX of two runs of equal COUNT change places; nothing is invalidated. -/
def Block.ptXchg (b : Block) (p x y : Nat) : Block :=
  let b := (b.set .PT_XCHG_RUN_A p x).set .PT_XCHG_RUN_B p y
  let l := b.runs p
  let refuse (cause : Nat) : Block := (b.set .PT_XCHG_STATUS_XCHG_REFUSED p 1).set .PT_XCHG_STATUS_CAUSE p cause
  match l[x % 1024]?, l[y % 1024]? with
  | some r, some q =>
    if r.count ≠ q.count then refuse 2
    else
      let swap (a m : Run) : Run := { a with tier := m.tier, ways := m.ways, first := m.first, idx := m.idx }
      b.setRuns p ((l.set (x % 1024) (swap r q)).set (y % 1024) (swap q r))
  | _, _ => refuse 1

def execPtXchg (part runA runB : Nat) (s : State) := s.act (·.ptXchg part runA runB)

/-- FREE_ALL (R356): every PRELOADED unit becomes FREE; event 0x11 of block 0x40. -/
def execFreeAll (s : State) := s.act fun b => ({ b with ms := { b.ms with preloaded := [] } }).event 0x40 0x11

-- Translation (R332, R335, R362 to R367) ------------------------------------------------------------------------------

/-- A cached mapping of a unit on a die. -/
def Block.cached (b : Block) (die pkg p u : Nat) : Option TcEntry :=
  b.ms.tc.find? fun e => decide (e.die = die ∧ e.pkg = pkg ∧ e.part = p ∧ e.base ≤ u ∧ u < e.base + e.size)

/-- An entry installed on a die. A full cache drops an entry the spec does not name (R891), which a free value picks. -/
def Block.installTc (b : Block) (die pkg p u : Nat) (r : Run) : Block :=
  let (base, size) := tcBlock r u
  let e : TcEntry := { die := die, pkg := pkg, part := p, base := base, size := size, run := r }
  let mine := b.ms.tc.filter fun x => x.die = die
  if mine.length < 2048 then { b with ms := { b.ms with tc := b.ms.tc ++ [e] } }
  else
    match mine[b.freeVal 11]? with
    | some v => { b.took with ms := { b.ms with tc := b.ms.tc.filter (· ≠ v) ++ [e] } }
    | none => { b with ms := { b.ms with tc := b.ms.tc ++ [e] } }

/-- A unit of a partition through a translation cache and, on a miss, the local table: the run, or none when the unit is not placed.
The hub (die 2) keeps no cache. -/
def Block.translateNow (b : Block) (die p u : Nat) : Option Run × Block :=
  match (if die < 2 then b.cached die b.pkg p u else none) with
  | some e => (some e.run, b)
  | none =>
    let b := if die < 2 then b.bump .TC_MISS_COUNT die else b
    match findRun (b.runs p) u with
    | none => (none, b)
    | some r => (some r, if die < 2 then b.installTc die b.pkg p u r else b)

/-- The physical address of a partition address through the run that holds it. -/
def Run.phys (r : Run) (a : Nat) : Nat := r.unitAt (a / unitBytes - r.punit) + a % unitBytes

-- Apertures (R340, R341) ---------------------------------------------------------------------------------------------

/-- What a local address names. -/
inductive Region where
  | tier
  | tileMem (t : Nat)
  | dieSram (d block : Nat)
  | hub
  | tenter
  | unmapped
  deriving DecidableEq, Repr

def apBase : Nat := 0x30000000000
def hubBase : Nat := 0x30005000000
def tenterBase : Nat := 0x30006000000

/-- The region of a local address (R19, R340). -/
def regionOf (a : Nat) : Region :=
  if (memOf a).isSome then .tier
  else if a < apBase then .unmapped
  else
    let o := a - apBase
    if o < 0x4000000 then .tileMem (o / 0x200000)
    else if o < 0x4400000 then .dieSram ((o - 0x4000000) / 0x200000) ((o - 0x4000000) % 0x200000 / 0x40000)
    else if 0x5000000 ≤ o ∧ o < 0x5600000 then .hub
    else if 0x6000000 ≤ o ∧ o < 0x6200000 then .tenter
    else .unmapped

/-- A partition may reach an aperture (R340). -/
def Block.apertureOk (b : Block) (p : Nat) : Region → Bool
  | .tileMem t => decide (t ∈ b.partTiles p)
  | .dieSram d k => if d = 0 then b.bit .DS_GRANT_G0 p k else b.bit .DS_GRANT_G1 p k
  | .tenter => b.get .PART_GRANT_OWNER p == 2
  | _ => false

/-- The packages of the cluster (R25). -/
def Block.packages (b : Block) : Nat := (b.get .FAB_TOPO_DX + 1) * (b.get .FAB_TOPO_DY + 1) * (b.get .FAB_TOPO_DZ + 1)

/-- Where a fabric address on behalf of a partition leads, before translation. -/
inductive Dest where
  /-- A tier address of this package, to be translated. -/
  | tier (a : Nat)
  /-- An aperture of this package. -/
  | aperture (a : Nat)
  | remote (pkg a : Nat)
  | bad (status cause : Nat)
  deriving DecidableEq, Repr

/-- A 60-bit fabric address of a partition classified (R18, R20, R24, R25, R341). -/
def Block.destOf (b : Block) (p a : Nat) : Dest :=
  let pkg := a / 2 ^ 50
  let l := a % 2 ^ 50
  if 2 ^ 60 ≤ a then .bad stAddr 0x7C
  else if pkg ≠ b.pkg then (if pkg < b.packages then .remote pkg l else .bad stAddr 0x99)
  else match regionOf l with
    | .tier => .tier l
    | .unmapped => .bad stAddr 0x7C
    | r => if b.apertureOk p r then .aperture l else .bad stAddr 0x78

/-- The number of sectors, in tier F, or lines, in tier S, that a range touches, in bytes charged (R420). -/
def chargeBytes (k a n : Nat) : Nat :=
  if n = 0 then 0
  else
    let g := slUnit k
    ((a + n - 1) / g - a / g + 1) * g

/-- The charge of a write of a range: a sector of tier F or a line of tier S that it covers in part is merged, and charged twice
(R378, R420). -/
def chargeWrite (k a n : Nat) : Nat :=
  let g := slUnit k
  let first := if a % g = 0 then 0 else g
  let last := if (a + n) % g = 0 ∨ (a % g ≠ 0 ∧ (a + n) / g = a / g) then 0 else g
  if n = 0 then 0 else chargeBytes k a n + first + last

/-- The charge of a line's bytes written under a mask: sectors of tier F, or the line in tier S, twice where merged. -/
def chargeMasked (k : Nat) (bytes : Tab Byte) : Nat :=
  if k < 2 then
    ([0, 1, 2, 3].map fun s =>
      let n := (bytes.filter fun e => e.1 / 32 = s).length
      if n = 0 then 0 else if n = 32 then 32 else 64).sum
  else if bytes.length = 128 then 128 else 256

end Sys2Proof.Machine
end

