-- ==== Sys2Proof/Machine/Fabric.lean ====
section
/-! DEFINITION. The Mbary link layer and routing (spec/10): line code, flits, sequence numbers, retry, credits, training, offences,
the route of a message, and floods. What a received message does is in Receive.lean. -/

namespace Sys2Proof.Machine

-- Checksums ------------------------------------------------------------------------------------------------------------

/-- One bit of the reflected CRC-32 of IEEE 802.3. -/
def crcBit (c : Nat) : Nat := if c % 2 = 1 then (c / 2) ^^^ 0xEDB88320 else c / 2

def crcByte (c : Nat) (v : Byte) : Nat :=
  crcBit (crcBit (crcBit (crcBit (crcBit (crcBit (crcBit (crcBit (c ^^^ v.toNat))))))))

/-- CRC-32 with the IEEE 802.3 polynomial (R459, R507). -/
def crc32 (l : List Byte) : Nat := (l.foldl crcByte 0xFFFFFFFF) ^^^ 0xFFFFFFFF

-- Line code (R450 to R452) ---------------------------------------------------------------------------------------------

/-- Gray code of a bit pair to a PAM4 level (R450). -/
def pamLevel (hi lo : Nat) : Nat :=
  match hi, lo with
  | 0, 0 => 0 | 0, 1 => 1 | 1, 1 => 2 | _, _ => 3

/-- The generator polynomial with roots α^0 to α^(n-1), highest power first. -/
def rsGen : Nat → List Nat
  | 0 => [1]
  | n + 1 =>
    let g := rsGen n
    let r := gfAlpha n
    List.zipWith (· ^^^ ·) (g ++ [0]) (0 :: g.map (gfMul r))

/-- The check symbols of a systematic codeword: the remainder of data × x^8 by the generator. -/
def rsCheck (n : Nat) (data : List Nat) : List Nat :=
  let g := (rsGen n).drop 1
  data.foldl (fun r d =>
    let f := d ^^^ r.headD 0
    List.zipWith (· ^^^ ·) (r.drop 1 ++ [0]) (g.map (gfMul f))) (List.replicate n 0)

/-- The bytes of a list at positions of one parity. -/
def everyOther : List Byte → List Byte
  | a :: _ :: r => a :: everyOther r
  | l => l

/-- The 272 bytes sent for a flit (R451): the flit, then the check symbols of the even and the odd codeword in turn. -/
def wireBytes (flit : List Byte) : List Byte :=
  let c (l : List Byte) : List Byte := (rsCheck 8 (l.map (·.toNat))).map byteOf
  let e := c (everyOther flit)
  let o := c (everyOther (flit.drop 1))
  flit ++ (List.zip e o).flatMap fun x => [x.1, x.2]

/-- PRBS31: n steps of x^31 + x^28 + 1. -/
def prbs31 : Nat → Nat → Nat
  | 0, s => s
  | n + 1, s => prbs31 n ((2 * s + (bit1 s 30 ^^^ bit1 s 27)) % 2 ^ 31)

/-- The next eight bits of a lane's scrambling sequence. -/
def prbsByte (s : Nat) : Nat :=
  (List.range 8).foldl (fun a i => a * 2 + (bit1 (prbs31 i s) 30)) 0

/-- The 34 bytes of lane l for the flit sent n-th since ALIGN, scrambled (R452). -/
def laneBytes (n l : Nat) (flit : List Byte) : List Byte :=
  let w := wireBytes flit
  (List.range 34).map fun i =>
    byteOf ((w.getD (8 * i + l) 0).toNat ^^^ prbsByte (prbs31 (8 * (34 * n + i)) (0x5A5A0000 + l)))

/-- The PAM4 levels of a byte, the first bit of each pair the more significant. -/
def pamByte (v : Byte) : List Nat :=
  (List.range 4).map fun i => pamLevel (bit1 v.toNat (7 - 2 * i)) (bit1 v.toNat (6 - 2 * i))

-- Ports ----------------------------------------------------------------------------------------------------------------

def Block.port (b : Block) (n : Nat) : Port := Tab.get b.fab.ports n Port.reset
def Block.setPort (b : Block) (n : Nat) (x : Port) : Block := { b with fab := { b.fab with ports := Tab.put b.fab.ports n x } }

/-- Training states (R454). -/
def pOff : Nat := 0
def pDetect : Nat := 1
def pEqualise : Nat := 2
def pAlign : Nat := 3
def pConfig : Nat := 4
def pStandby : Nat := 5
def pActive : Nat := 6
def pRetrain : Nat := 7
def pDown : Nat := 8
def pFenced : Nat := 9

def Block.portState (b : Block) (n : Nat) : Nat := b.get .PORT_STATUS_STATE n
def Block.setPortState (b : Block) (n v : Nat) : Block := b.set .PORT_STATUS_STATE n v
def mdTorus : Nat := 1
def mdExpress : Nat := 2
def mdHost : Nat := 3
def Block.portMode (b : Block) (n : Nat) : Nat := b.get .PORT_CFG_MODE n

/-- The current routing epoch: 2^20 counts each (R490). -/
def Block.epoch (b : Block) : Nat := b.gmc / 2 ^ 20

-- Flits ----------------------------------------------------------------------------------------------------------------

/-- The receive buffers this package advertises (R471). -/
def creditsInit : List Nat := [96, 32, 96, 32, 64, 32, 16]

/-- One element of a list of counters changed. -/
def bumpAt (l : List Nat) (i k : Nat) : List Nat := l.set i (l.getD i 0 + k)

/-- A flit's 256 bytes (R459): FTYPE with FIRST and LAST, POOL, SEQ and NAK, ACK, CREDITS, body, CRC. A TS flit carries ACK and
CREDITS as zero (R460). -/
def flitBytes (x : Port) (ftype pool seqNak : Nat) (body : List Byte) : List Byte :=
  let ts := ftype = 0xE
  let ack := if ts ∨ !x.acked then 0 else (x.nextRx + 4095) % 4096 + 4096
  let cr := if ts then zeros 7 else x.rxFreed.map byteOf
  let l := [byteOf ftype, byteOf pool] ++ leBytes 2 seqNak ++ leBytes 2 ack ++ padTo 7 cr ++ zeros 3 ++ padTo 236 body
  l ++ leBytes 4 (crc32 l)

/-- A flit sent on a port. -/
def Block.sendFlit (b : Block) (n ftype pool seqNak : Nat) (body : List Byte) : Block :=
  let x := b.port n
  (b.setPort n { x with line := x.line + 1 }).send (.flit n x.line (flitBytes x ftype pool seqNak body))

/-- An IDLE flit, with NAK set or clear. -/
def Block.sendIdle (b : Block) (n : Nat) (nak : Bool) : Block := b.sendFlit n 0 0 (b2n nak * 4096) []

/-- A DATA flit of the retry buffer sent or sent again. -/
def Block.sendRFlit (b : Block) (n : Nat) (f : RFlit) : Block := b.sendFlit n (1 + f.mark) f.pool f.seq f.body

/-- A credit is at hand for a pool (R470). -/
def Port.credit (x : Port) (pool : Nat) : Bool := decide (x.sent.getD pool 0 < x.init.getD pool 0 + x.freed.getD pool 0)

/-- The pools in the order an output serves them (R475): 6, 1, 0, then 5 and 3 in turn by message, then 4 and 2 in turn. Pool 6 has one
flit in 16: until 15 others have gone it comes last, behind every pool that has a flit to send; where none has, IDLE flits fill the slots,
which take no time here. -/
def Port.order (x : Port) : List Nat :=
  let mid (p : Nat) : Bool := match Tab.get x.txq p [] with | m :: _ => m.sent != 0 | [] => false
  let pair (p q last : Nat) : List Nat :=
    if mid p && !mid q then [p, q] else if mid q && !mid p then [q, p] else if last = p then [q, p] else [p, q]
  let rest := [1, 0] ++ pair 5 3 x.turn53 ++ pair 4 2 x.turn42
  if x.since6 < 15 then rest ++ [6] else 6 :: rest

/-- The pool a port sends from next: only pool 6 in STANDBY; a waiting message, a credit, and room in the retry buffer. -/
def Block.nextPool (b : Block) (n : Nat) : Option Nat :=
  let x := b.port n
  let st := b.portState n
  if x.retry.length < 512 ∧ (st = pActive ∨ st = pStandby) then
    x.order.find? fun p => (st == pActive || p == 6) && x.credit p && !(Tab.get x.txq p []).isEmpty
  else none

/-- Body bytes of one flit. -/
def bodyBytes : Nat := 236

/-- One flit of a waiting message sent (R462, R463). -/
def Block.sendNext (b : Block) (n pool : Nat) : Block :=
  let x := b.port n
  match Tab.get x.txq pool [] with
  | [] => b
  | m :: rest =>
    let total := ceilDiv m.bytes.length bodyBytes
    let last := m.sent + 1 = total
    let f : RFlit := { seq := x.nextTx, mark := b2n (m.sent == 0) * 16 + b2n last * 32, pool := pool,
                       body := slice m.bytes (bodyBytes * m.sent) bodyBytes }
    let q := if last then rest else { m with sent := m.sent + 1 } :: rest
    let x := { x with txq := if q = [] then Tab.del x.txq pool else Tab.put x.txq pool q, retry := x.retry ++ [f],
                      nextTx := (x.nextTx + 1) % 4096, sent := bumpAt x.sent pool 1,
                      turn53 := if pool = 5 ∨ pool = 3 then pool else x.turn53,
                      turn42 := if pool = 4 ∨ pool = 2 then pool else x.turn42,
                      since6 := if pool = 6 then 0 else min 15 (x.since6 + 1) }
    (b.setPort n x).sendRFlit n f

/-- As much sent as credits and the retry buffer allow; `fuel` bounds the flits. -/
def Block.pumpN (b : Block) (n : Nat) : Nat → Block
  | 0 => b
  | fuel + 1 => match b.nextPool n with | some p => (b.sendNext n p).pumpN n fuel | none => b

def Block.pump (b : Block) (n : Nat) : Block := b.pumpN n 512

-- Messages -------------------------------------------------------------------------------------------------------------

/-- A message's bytes: the header of R476 and its data. -/
def msgBytes (f : FMsg) : List Byte :=
  let m := f.m
  leBytes 2 m.dest ++ leBytes 2 m.src ++ [byteOf f.mtype, byteOf m.mflags, byteOf m.part, byteOf m.status] ++
    leBytes 4 m.rtag ++ leBytes 2 m.len ++ [byteOf m.cause, 0] ++ leBytes 8 m.addr ++ leBytes 8 m.aux ++ m.data

/-- The message that received bytes spell. -/
def msgOf (l : List Byte) : FMsg :=
  let len := fieldAt l 0x0C 2
  let ty := fieldAt l 0x04 1
  { mtype := ty,
    m := { dest := bits (fieldAt l 0 2) 0 10, src := bits (fieldAt l 2 2) 0 10, mflags := fieldAt l 5 1,
           part := bits (fieldAt l 6 1) 0 3, status := fieldAt l 7 1, rtag := fieldAt l 8 4, len := len,
           cause := fieldAt l 0x0E 1, addr := fieldAt l 0x10 8, aux := fieldAt l 0x18 8,
           data := if ty = 1 then [] else if ty = 0x21 then slice l 32 (len + 4) else slice l 32 len } }

/-- The virtual channel of a message type (R477). -/
def vcOf (ty : Nat) : Option Nat :=
  match ty with
  | 0x01 => some 1 | 0x02 => some 1 | 0x03 => some 1 | 0x05 => some 1
  | 0x11 => some 0 | 0x12 => some 0 | 0x15 => some 0
  | 0x21 => some 2 | 0x22 => some 2 | 0x23 => some 2 | 0x24 => some 2
  | 0x31 => some 3 | 0x32 => some 3 | 0x33 => some 3 | 0x34 => some 3 | 0x35 => some 3 | 0x36 => some 3
  | _ => none

def isRequest (ty : Nat) : Bool := vcOf ty == some 1
def isResponse (ty : Nat) : Bool := vcOf ty == some 0

/-- A message that carries nothing but its type, addressing and partition. -/
def Msg.empty : Msg :=
  { dest := 0, src := 0, mflags := 0, part := 0, status := 0, rtag := 0, len := 0, cause := 0, addr := 0, aux := 0, data := [] }

/-- The response type of a request. -/
def rspType (ty : Nat) : Nat := if ty = 1 then 0x11 else if ty = 5 then 0x15 else 0x12

/-- A response to a request: RTAG and ADDR echoed. -/
def response (own : Nat) (f : FMsg) (status cause aux : Nat) (data : List Byte) : FMsg :=
  { mtype := rspType f.mtype,
    m := { Msg.empty with dest := f.m.src, src := own, part := f.m.part, status := status, cause := cause, rtag := f.m.rtag,
                          addr := f.m.addr, aux := aux, len := data.length, data := data } }

-- Routing (R447, R483 to R489) -----------------------------------------------------------------------------------------

/-- Size and coordinate of a package in dimension d (R447). -/
def Block.dimSize (b : Block) (d : Nat) : Nat :=
  (if d = 0 then b.get .FAB_TOPO_DX else if d = 1 then b.get .FAB_TOPO_DY else b.get .FAB_TOPO_DZ) + 1
def Block.coord (b : Block) (p d : Nat) : Nat :=
  let dx := b.dimSize 0
  let dy := b.dimSize 1
  if d = 0 then p % dx else if d = 1 then p / dx % dy else p / (dx * dy)
def Block.pkgAt (b : Block) (x y z : Nat) : Nat := x + b.dimSize 0 * y + b.dimSize 0 * b.dimSize 1 * z

/-- The package one step from p along dimension d, forwards or backwards. -/
def Block.stepPkg (b : Block) (p d : Nat) (fwd : Bool) : Nat :=
  let n := b.dimSize d
  let c := b.coord p d
  let c' := if fwd then (c + 1) % n else (c + n - 1) % n
  let at_ (e : Nat) : Nat := if e = d then c' else b.coord p e
  b.pkgAt (at_ 0) (at_ 1) (at_ 2)

/-- The bitmap bit of the link that leaves p along dimension d (Routing epochs and the table). -/
def Block.linkBit (b : Block) (p d : Nat) (fwd : Bool) : Nat := 3 * (if fwd then p else b.stepPkg p d false) + d

/-- The active table marks a link down. -/
def Block.linkDown (b : Block) (p d : Nat) (fwd : Bool) : Bool := b.bit .LINK_DOWN_ACTIVE_BITMAP 0 (b.linkBit p d fwd)

/-- A way of k steps from p along d crosses a down link. -/
def Block.wayDown (b : Block) (d : Nat) (fwd : Bool) : Nat → Nat → Bool
  | 0, _ => false
  | k + 1, p => b.linkDown p d fwd || b.wayDown d fwd k (b.stepPkg p d fwd)

/-- The direction taken from p along dimension d to coordinate c: none when already there or unreachable both ways. -/
def Block.way (b : Block) (p d c : Nat) : Option Bool :=
  let n := b.dimSize d
  let f := (c + n - b.coord p d) % n
  let r := n - f
  if f = 0 then none
  else
    let first := f ≤ r
    let steps (fwd : Bool) : Nat := if fwd then f else r
    if !b.wayDown d first (steps first) p then some first
    else if !b.wayDown d (!first) (steps (!first)) p then some (!first)
    else none

/-- The direction in each dimension of the route from s to t (X, then Y, then Z); none when t is unreachable (R483). -/
def Block.routeFrom (b : Block) (s t : Nat) : Option (List (Option Bool)) :=
  let leg (p d : Nat) : Option (Option Bool) :=
    if b.coord p d = b.coord t d then some none else (b.way p d (b.coord t d)).map some
  let p1 := b.pkgAt (b.coord t 0) (b.coord s 1) (b.coord s 2)
  let p2 := b.pkgAt (b.coord t 0) (b.coord t 1) (b.coord s 2)
  match leg s 0, leg p1 1, leg p2 2 with
  | some x, some y, some z => some [x, y, z]
  | _, _, _ => none

/-- The port along dimension d (R446). -/
def torusPort (d : Nat) (fwd : Bool) : Nat := 2 * d + b2n (!fwd)

/-- The hop along dimension d in a direction leaves over the wrap link. -/
def Block.wrapHop (b : Block) (d : Nat) (fwd : Bool) : Bool :=
  let c := b.coord b.pkg d
  if fwd then c + 1 == b.dimSize d else c == 0

/-- The first dimension in which this package's coordinate differs from t's. -/
def Block.nextDim (b : Block) (t : Nat) : Option Nat := [0, 1, 2].find? fun d => b.coord b.pkg d != b.coord t d

/-- The express port of a destination in the active table. -/
def Block.expressPort (b : Block) (t : Nat) : Option Nat :=
  ((List.range 64).find? fun e => b.on .EXPRESS_ACTIVE_VALID e && b.get .EXPRESS_ACTIVE_DEST e == t).map
    fun e => 6 + b.get .EXPRESS_ACTIVE_PORT e

/-- The port and class by which a message injected at this package leaves (R483 to R486); none when unreachable. -/
def Block.injectAt (b : Block) (t : Nat) : Option (Nat × Nat × Bool) :=
  match b.expressPort t with
  | some p => some (p, 0, true)
  | none =>
    match b.nextDim t, b.routeFrom b.pkg t with
    | some d, some r =>
      match r.getD d none with
      | some fwd => some (torusPort d fwd, b2n (b.wrapHop d fwd), false)
      | none => none
    | _, _ => none

/-- The port and class by which a message from s in a class goes on, having arrived at a torus port: along its dimension until its
coordinate is reached, then by the route of its source (R483, R485). -/
def Block.forwardAt (b : Block) (s t inPort cls : Nat) : Option (Nat × Nat) :=
  match b.nextDim t with
  | none => none
  | some d =>
    let dIn := inPort / 2
    if d = dIn then
      let fwd := inPort % 2 = 1
      some (torusPort d fwd, if b.wrapHop d fwd then 1 else cls)
    else
      match b.routeFrom s t with
      | none => none
      | some r =>
        match r.getD d none with
        | some fwd => some (torusPort d fwd, b2n (b.wrapHop d fwd))
        | none => none

/-- A message put in a port's queue and sent as far as credits allow. -/
def Block.enqueue (b : Block) (n pool : Nat) (f : FMsg) : Block :=
  let x := b.port n
  (b.setPort n { x with txq := Tab.put x.txq pool (Tab.get x.txq pool [] ++ [{ bytes := msgBytes f, sent := 0 }]) }).pump n

/-- A response leaves on its VC; it is lost where its next hop is not ACTIVE or there is no way (R489). -/
def Block.sendVc (b : Block) (vc : Nat) (f : FMsg) : Option Block :=
  match b.injectAt f.m.dest with
  | none => none
  | some (n, cls, express) =>
    if b.portState n = pActive ∨ b.portState n = pRetrain then
      let f := if express then { f with m := { f.m with mflags := f.m.mflags ||| 2 } } else f
      some (b.enqueue n (2 * vc + cls) f)
    else none

/-- A response, sent or lost. -/
def Block.reply (b : Block) (f : FMsg) : Block := (b.sendVc 0 f).getD b

-- Floods (R495, R496) --------------------------------------------------------------------------------------------------

/-- The ports a flood uses: STANDBY or ACTIVE in TORUS or EXPRESS mode, but one. -/
def Block.floodPorts (b : Block) (but : Option Nat) : List Nat :=
  (List.range 8).filter fun n => some n != but && (b.portState n == pStandby || b.portState n == pActive) &&
    (b.portMode n == mdTorus || b.portMode n == mdExpress)

def Block.floodOn (b : Block) (ports : List Nat) (f : FMsg) : Block := ports.foldl (fun b n => b.enqueue n 6 f) b

/-- A flood this package originates: a new FLOOD_ID in ADDR[31:16], its number in ADDR[9:0]. -/
def Block.flood (b : Block) (ty low aux : Nat) : Block :=
  let id := (b.fab.floodId + 1) % 2 ^ 16
  let b := { b with fab := { b.fab with floodId := id } }
  b.floodOn (b.floodPorts none)
    { mtype := ty, m := { Msg.empty with src := b.pkg, addr := low + id * 2 ^ 16, aux := aux } }

/-- The bit of the link at a TORUS port of a package (R492). -/
def Block.portLink (b : Block) (p port : Nat) : Nat := b.linkBit p (port / 2) (port % 2 == 0)

/-- A link's bit set or cleared in the shadow copy, in force from an epoch on (R492, R493). -/
def Block.linkChange (b : Block) (p port : Nat) (down : Bool) (eff : Nat) : Block :=
  if port < 6 then
    let i := b.portLink p port
    let b := if down then b.setB .LINK_DOWN_SHADOW_BITMAP 0 i else b.clrB .LINK_DOWN_SHADOW_BITMAP 0 i
    { b with fab := { b.fab with changes := b.fab.changes.filter (fun c => c.1 ≠ i) ++ [(i, down, eff)] } }
  else b

/-- A TORUS port's change flooded and entered in the own shadow copy. -/
def Block.floodLink (b : Block) (port : Nat) (down : Bool) (eff : Nat) : Block :=
  (b.flood 0x35 b.pkg (port + b2n down * 256 + eff * 2 ^ 16)).linkChange b.pkg port down eff

-- Training (R454 to R458, R498, R499) ----------------------------------------------------------------------------------

/-- The body of a TS flit this port sends. -/
def Block.tsBody (b : Block) (n : Nat) (keep : Bool) : List Byte :=
  let x := b.port n
  leBytes 4 0x5952424D ++ [1, byteOf n, byteOf (b.portMode n), byteOf (b2n (decide (8 ≤ x.tsSame)) + 2 * b2n keep)] ++
    leBytes 2 b.pkg ++ [byteOf (b.dimSize 0 - 1), byteOf (b.dimSize 1 - 1), byteOf (b.dimSize 2 - 1), 0] ++ leBytes 2 512 ++
    creditsInit.map byteOf ++ [0] ++ leBytes 2 x.nextRx ++ zeros 6 ++ leBytes 8 b.gmc

def Block.sendTs (b : Block) (n : Nat) (keep : Bool) : Block := b.sendFlit n 0xE 0 0 (b.tsBody n keep)

/-- Everything a port holds of its link given up: queues, retry buffer, partial messages. -/
def Port.fresh (x : Port) : Port :=
  { Port.reset with offEpoch := x.offEpoch, offs := x.offs, fenceAt := x.fenceAt }

/-- A port returns to a state with nothing held. -/
def Block.restartPort (b : Block) (n st : Nat) : Block := (b.setPort n (b.port n).fresh).setPortState n st

/-- PORT_ENABLE (R446, R448, R454): PORT_CFG of an OFF port is written with a MODE it may run and ENABLE 1: DETECT. -/
def Block.modeOk (b : Block) (n mode : Nat) : Bool :=
  if n < 6 then mode == mdTorus && b.dimSize (n / 2) != 1 else mode == mdExpress || mode == mdHost

def Block.portEnable (b : Block) (n mode : Nat) : Block :=
  let b := (b.set .PORT_CFG_MODE n mode).set .PORT_CFG_ENABLE n 1
  if b.pwr.released ∧ b.portState n = pOff ∧ b.modeOk n mode then b.setPortState n pDetect else b

def execPortEnable (port mode : Nat) (s : State) := s.act (·.portEnable port mode)

/-- DETECT_POLL (R454): a port in DETECT, or DOWN on its way there, looks for partner receivers. -/
def Block.detectPoll (b : Block) (n : Nat) (found : Bool) : Block :=
  if b.portState n = pDetect ∨ b.portState n = pDown then b.setPortState n (if found then pEqualise else pDetect) else b

def execDetectPoll (port : Nat) (found : Bool) (s : State) := s.act (·.detectPoll port found)

/-- EQUALISE_DONE (R454). -/
def Block.equaliseDone (b : Block) (n : Nat) (ok : Bool) : Block :=
  if b.portState n = pEqualise then b.setPortState n (if ok then pAlign else pDetect) else b

def execEqualiseDone (port : Nat) (ok : Bool) (s : State) := s.act (·.equaliseDone port ok)

/-- ALIGN_DONE (R454): the lanes' scramblers are seeded at the end of ALIGN, and CONFIG exchanges TS flits. -/
def Block.alignDone (b : Block) (n : Nat) (ok : Bool) : Block :=
  if b.portState n = pAlign then
    if ok then
      let x := b.port n
      ((b.setPort n { x with line := 0, ts := [], tsSame := 0, tsAck := false }).setPortState n pConfig).sendTs n false
    else b.setPortState n pDetect
  else b

def execAlignDone (port : Nat) (ok : Bool) (s : State) := s.act (·.alignDone port ok)

/-- The port enters RETRAIN: PORT_RETRAINS counts, TS flits with KEEP_SEQ are sent. -/
def Block.enterRetrain (b : Block) (n : Nat) : Block :=
  if b.portState n = pActive ∨ b.portState n = pStandby then
    let x := b.port n
    let b := b.setPort n { x with ts := [], tsSame := 0, tsAck := false, tsKeep := false, line := 0, replays := 0 }
    ((b.setPortState n pRetrain).bump .PORT_RETRAINS_COUNT n).sendTs n true
  else b

/-- LOSS_OF_ALIGNMENT (R454): an ACTIVE port enters RETRAIN. -/
def execLossOfAlignment (port : Nat) (s : State) :=
  s.act fun b => if b.portState port = pActive then b.enterRetrain port else b

/-- The partner is what R447, R449 and R456 require. -/
def Block.partnerOk (b : Block) (n : Nat) (ts : List Byte) : Bool :=
  let mode := b.portMode n
  let pm := fieldAt ts 6 1
  let dims := [fieldAt ts 10 1, fieldAt ts 11 1, fieldAt ts 12 1]
  let mine := [b.dimSize 0 - 1, b.dimSize 1 - 1, b.dimSize 2 - 1]
  if mode = mdTorus then
    pm == mdTorus && dims == mine && bits (fieldAt ts 8 2) 0 10 == b.stepPkg b.pkg (n / 2) (n % 2 == 0) &&
      fieldAt ts 5 1 == (if n % 2 = 0 then n + 1 else n - 1)
  else if mode = mdExpress then pm == mdExpress && dims == mine
  else pm == mdHost

/-- The partner advertises enough credits and retry depth (R472, TS flits). -/
def tsCreditsOk (ts : List Byte) : Bool :=
  ((List.range 6).all fun p => decide (8 ≤ fieldAt ts (0x10 + p) 1)) && decide (4 ≤ fieldAt ts 0x16 1) &&
    decide (64 ≤ fieldAt ts 0x0E 2)

/-- Entry to STANDBY (R457, R498): credits from the partner, counters and SEQ at zero, and JOIN_AT with the epoch two ahead. -/
def Block.enterStandby (b : Block) (n : Nat) (ts : List Byte) : Block :=
  let x := (b.port n).fresh
  let e := b.epoch + 2
  let b := b.setPort n { x with init := (List.range 7).map fun p => fieldAt ts (0x10 + p) 1
                                joinAt := some e }
  let b := (b.setPortState n pStandby).set .PORT_STATUS_JOIN_EPOCH n e
  b.enqueue n 6 { mtype := 0x36, m := { Msg.empty with src := b.pkg, addr := n, aux := e } }

/-- The part of a TS body that says who the partner is: all but its ACK bit and its GMC. -/
def tsIdentity (ts : List Byte) : List Byte :=
  (padTo 0x20 ts).set 7 (byteOf (fieldAt ts 7 1 / 2 * 2))

/-- An offence is logged, counted, and puts the port on probation or marks it to be fenced (R500 to R502). Its record names the message's
PART, 0xFF where no message is known, and shows the first 16 bytes of the offending flit (R884); they are a free value where the command
is a whole message or a TS body, whose flit header it does not carry. -/
def Block.offence (b : Block) (n code action part : Nat) (flit : Option (List Byte)) : Block :=
  let head := (flit.getD (leBytes 16 (b.freeVal 128))).take 16
  let b := if flit.isSome then b else b.took
  let b := (b.violate 0x50 code part (0x10 + n) 0 action head).bump .PORT_OFFENCES_COUNT n
  let x := b.port n
  if b.on .PORT_STATUS_PROBATION n then
    let k := x.offs + 1
    let b := b.setPort n { x with offEpoch := b.epoch, offs := k }
    if max 1 (b.get .FAB_CTRL_FENCE_LIMIT) ≤ k ∧ ¬ b.on .PORT_STATUS_FENCE_PENDING n then
      let e := b.epoch + 2
      let b := b.setPort n { b.port n with fenceAt := some e }
      ((b.set .PORT_STATUS_FENCE_PENDING n 1).floodLink n true e).event 0x50 0x05
    else b
  else
    ((b.setPort n { x with offEpoch := b.epoch, offs := 0 }).set .PORT_STATUS_PROBATION n 1).event 0x50 0x04

/-- TS_FLIT (R455 to R457, R472, R500). -/
def Block.tsFlit (b : Block) (n : Nat) (body : List Byte) (flit : Option (List Byte)) : Block :=
  let x := b.port n
  let st := b.portState n
  if st = pActive then (b.offence n 0xA6 0 0xFF flit).enterRetrain n
  else if fieldAt body 0 4 ≠ 0x5952424D ∨ fieldAt body 4 1 ≠ 1 then b
  else if st = pConfig ∨ st = pRetrain then
    let id := tsIdentity body
    let same := if id = x.ts then x.tsSame + 1 else 1
    let fl := fieldAt body 7 1
    let x := { x with ts := id, tsSame := same, tsAck := fl.testBit 0, tsKeep := fl.testBit 1,
                      tsNext := bits (fieldAt body 0x18 2) 0 12 }
    let b := b.setPort n x
    let b := (b.set .PORT_STATUS_PARTNER_PKG n (fieldAt body 8 2)).set .PORT_STATUS_PARTNER_PORT n (fieldAt body 5 1)
    if st = pRetrain then b.sendTs n true
    else if !b.partnerOk n body then
      if b.portMode n = mdTorus ∧ ¬ b.on .PORT_STATUS_WIRING_BAD n then
        (b.set .PORT_STATUS_WIRING_BAD n 1).event 0x50 0x07
      else b
    else
      let b := (b.set .PORT_STATUS_WIRING_BAD n 0).sendTs n false
      if tsCreditsOk body ∧ 8 ≤ same ∧ x.tsAck then b.enterStandby n body else b
  else b

-- Retry (R463 to R468) -------------------------------------------------------------------------------------------------

/-- ACK and CREDITS of a received flit applied: covered flits leave the retry buffer, freed flits become credits (R460). -/
def Block.applyHeader (b : Block) (n : Nat) (flit : List Byte) : Block :=
  let x := b.port n
  let ack := fieldAt flit 4 2
  let seq := bits ack 0 12
  let covered := ack.testBit 12 && x.retry.any fun f => f.seq == seq
  let retry := if covered then (x.retry.dropWhile fun f => f.seq ≠ seq).drop 1 else x.retry
  let freed := (List.range 7).map fun p =>
    let old := x.freed.getD p 0
    old + (fieldAt flit (6 + p) 1 + 256 - old % 256) % 256
  b.setPort n { x with retry := retry, freed := freed, replays := if covered then 0 else x.replays }

/-- The retry buffer sent again from its oldest flit; after eight replays that start at one SEQ the port enters RETRAIN. -/
def Block.replay (b : Block) (n : Nat) : Block :=
  let x := b.port n
  match x.retry with
  | [] => b
  | f :: _ =>
    let k := if x.replayAt = f.seq then x.replays + 1 else 1
    let b := (b.setPort n { x with replayAt := f.seq, replays := k }).bump .PORT_REPLAYS_COUNT n
    let b := x.retry.foldl (fun b f => b.sendRFlit n f) b
    if 8 ≤ k then b.enterRetrain n else b

/-- NAK (R466): the acknowledged flits leave the retry buffer and the rest is sent again before any new flit. -/
def Block.nak (b : Block) (n ack : Nat) (valid : Bool) : Block :=
  if b.portState n = pActive ∨ b.portState n = pStandby then
    let x := b.port n
    let covered := valid && x.retry.any fun f => f.seq == ack
    let b := if covered then b.setPort n { x with retry := (x.retry.dropWhile fun f => f.seq ≠ ack).drop 1, replays := 0 } else b
    (b.replay n).pump n
  else b

def execNak (port ack : Nat) (valid : Bool) (s : State) := s.act (·.nak port ack valid)

/-- REPLAY_TIMEOUT (R467): the oldest unacknowledged flit and all after it are sent again. -/
def Block.replayTimeout (b : Block) (n : Nat) : Block :=
  if b.portState n = pActive ∨ b.portState n = pStandby then (b.replay n).pump n else b

def execReplayTimeout (port : Nat) (s : State) := s.act (·.replayTimeout port)

/-- A bad flit, or one ahead of the expected SEQ: NAK once per error (R464, R465). -/
def Block.sendNak (b : Block) (n : Nat) : Block :=
  let x := b.port n
  if x.nakSent then b
  else ((b.setPort n { x with nakSent := true }).bump .PORT_NAKS_COUNT n).sendIdle n true

/-- The CRC of a received flit holds. -/
def flitOk (flit : List Byte) : Bool := decide (flit.length = 256 ∧ fieldAt flit 0xFC 4 = crc32 (flit.take 0xFC))

/-- Reserved fields of a flit are zero (R459). -/
def flitReservedOk (flit : List Byte) : Bool :=
  bits (fieldAt flit 0 1) 6 2 == 0 && bits (fieldAt flit 1 1) 3 5 == 0 && bits (fieldAt flit 2 2) 13 3 == 0 &&
    bits (fieldAt flit 4 2) 13 3 == 0 && fieldAt flit 0x0D 3 == 0

/-- IDLE_FLIT (R460): the partner's ACK and CREDITS are applied, a NAK is served, and what waited is sent; a reserved field that is not
zero is an offence (R500). -/
def Block.idleFlit (b : Block) (n : Nat) (flit : List Byte) : Block :=
  if b.portState n = pActive ∨ b.portState n = pStandby then
    if !flitOk flit then b.sendNak n
    else
      let b := b.applyHeader n flit
      let b := if (fieldAt flit 2 2).testBit 12 then b.replay n else b
      let b := if flitReservedOk flit then b else b.offence n 0xA2 3 0xFF (some flit)
      b.pump n
  else b

def execIdleFlit (port : Nat) (flit : List Byte) (s : State) := s.act (·.idleFlit port flit)

/-- RETRAIN_END (R458, R492): with KEEP_SEQ on both sides the port is ACTIVE again with nothing lost and sends from the partner's
NEXT_SEQ; otherwise it goes DOWN: messages whole in its queues that are requests are answered with LINK_DOWN, the rest is lost,
and LINK_CHANGE is flooded. -/
def Block.portDown (b : Block) (n : Nat) : Block :=
  let x := b.port n
  let whole := (x.txq.flatMap fun e => e.2).filter fun m => m.sent == 0
  let reqs := (whole.map fun m => msgOf m.bytes).filter fun f => isRequest f.mtype && f.m.src != b.pkg
  let b := b.restartPort n pDown
  let b := reqs.foldl (fun b f => b.reply (response b.pkg f stFabric 0x91 0 [])) b
  let b := if b.portMode n = mdTorus then b.floodLink n true (b.epoch + 2) else b
  b.event 0x50 0x02

/-- The requests of this package that wait whole at a port. -/
def Block.ownQueued (b : Block) (n : Nat) : List Nat :=
  (((b.port n).txq.flatMap fun e => e.2).filter fun m => m.sent == 0).map (fun m => msgOf m.bytes)
    |>.filter (fun f => isRequest f.mtype && f.m.src == b.pkg) |>.map (·.m.rtag)

/-- RETRAIN ended well (R458): the port is ACTIVE again. DEDUCED: one that had not joined yet is in STANDBY again, since it enters ACTIVE
at the agreed epoch (R499). -/
def Block.retrainOk (b : Block) (n : Nat) : Block :=
  let x := b.port n
  let retry := x.retry.dropWhile fun f => f.seq ≠ x.tsNext
  let b := (b.setPort n { x with retry := retry }).setPortState n (if x.joinAt.isSome then pStandby else pActive)
  (retry.foldl (fun b f => b.sendRFlit n f) b).pump n |>.event 0x50 0x03

end Sys2Proof.Machine
end

