-- ==== Sys2Proof/Machine/Access.lean ====
section
/-! DEFINITION. Accesses (spec/08): tile loads, stores and Spout gathers, the write-combining buffers, the requests sent to other
packages and those served for them, and the data mover's COPY. An access is cut into requests; each is tried until it is served,
and one that must wait (for a translation, a sluice, a stack, a reply) is tried again whenever something changes. -/

namespace Sys2Proof.Machine

-- Where a request can go ----------------------------------------------------------------------------------------------

/-- What trying a request came to. -/
inductive ReqRes where
  /-- Served: the bytes read, none for a store. -/
  | served (l : List Byte)
  | wait (r : Req)
  /-- Taken up again in parts, one for each line. -/
  | split (l : List Req)
  | bad (status cause : Nat)
  deriving DecidableEq, Repr

/-- The job of the task on a tile, or the job itself. -/
def Block.whoJob (b : Block) : AccWho → Option Nat
  | .tile t => (b.tile t).task.map (·.1)
  | .job id => some id
  | .core _ => none

/-- The bytes a die's write-combining buffer holds for a range of `n` bytes, by offset (R376). -/
def Block.heldBytes (b : Block) (die pkg x n : Nat) : Tab Byte :=
  (b.ms.wc.filter fun e => decide (e.die = die ∧ e.pkg = pkg)).flatMap fun e =>
    (e.bytes.filter fun c => decide (x ≤ e.line * 128 + c.1 ∧ e.line * 128 + c.1 < x + n)).map fun c => (e.line * 128 + c.1 - x, c.2)

/-- Bytes laid over those read. -/
def layOver (l : List Byte) (t : Tab Byte) : List Byte := t.foldl (fun l c => l.set c.1 c.2) l

/-- Two ranges share a sector. -/
def sectorsMeet (x n y m : Nat) : Bool := decide (0 < n ∧ 0 < m ∧ x / 32 ≤ (y + m - 1) / 32 ∧ y / 32 ≤ (x + n - 1) / 32)

/-- The local range that a request of another package reaches. -/
def InReq.range (q : InReq) : Nat × Nat :=
  let m := q.msg.m
  if q.msg.mtype = 5 then (0, 0) else (m.addr, if q.msg.mtype = 3 then 128 else m.len)

/-- An access to one of the sectors of a range came earlier and waits at its controller: accesses to the same sector are served in the
order of their arrival, whatever their class (R418). -/
def Block.sectorAhead (b : Block) (seq x n : Nat) : Bool :=
  (b.ms.accs.any fun a => decide (a.id < seq) && a.todo.any fun r =>
    match r.phys, r.wait with
    | some y, .go => r.addr / 2 ^ 50 == b.pkg && sectorsMeet x n y r.len
    | _, _ => false) ||
  (b.fab.inreqs.any fun q => decide (q.seq < seq) && sectorsMeet x n q.range.1 q.range.2) ||
  b.ms.wc.any fun e => e.flushing && e.waited && e.pkg == b.pkg && sectorsMeet x n (e.line * 128) 128

/-- The charge of a request taken, or what the sluice covers of it, and the request waits, counted once; a latency-critical read that
waits goes on as bulk (R422). -/
def Block.admitReq (b : Block) (a : Access) (k n : Nat) (crit : Bool) (r : Req) : Bool × Req × Block :=
  let (g, b) := b.charge a.part k (n - r.paid) (crit && !r.waited)
  let r := { r with paid := r.paid + g }
  if n ≤ r.paid then (true, r, b)
  else if r.waited then (false, r, b)
  else (false, { r with waited := true }, b.slWait a.part k (b.whoJob a.who))

/-- A tier request of this package at its physical address: out-of-service channels refuse it; an earlier access to its sectors, a stack
that cannot serve or a sluice holds it (R412, R418, R420 to R422). -/
def Block.tierReq (b : Block) (a : Access) (r : Req) (x k : Nat) (read : Bool) (serve : Block → ReqRes × Block) : ReqRes × Block :=
  if 2 ≤ k ∧ ¬ b.on .TS_CHAN_IN_SERVICE (k - 2) then (.bad stMemUe 0x83, b)
  else
    match b.reach k with
    | (false, b) => (.wait r, b)
    | (true, b) =>
      if b.sectorAhead a.id x r.len then (.wait r, b)
      else
        match b.admitReq a k (if read then chargeBytes k x r.len else chargeWrite k x r.len) (a.crit && read) r with
        | (false, r, b) => (.wait r, b)
        | (true, _, b) => serve b

-- Requests to other packages ------------------------------------------------------------------------------------------

/-- A request of this package sent under its tag, or parked while its destination drains (R481), or refused: ROUTE_FENCED when no
route exists (R484), LINK_DOWN when its first port is not ACTIVE (R489). -/
def Block.sendReq (b : Block) (f : FMsg) (q : OutReq) : Except (Nat × Nat) Block :=
  match b.injectAt f.m.dest with
  | none => .error (stFenced, 0x98)
  | some _ =>
    let tag := b.fab.nextTag
    let f := { f with m := { f.m with rtag := tag % 2 ^ 32, src := b.pkg } }
    let q := { q with tag := tag % 2 ^ 32, ty := f.mtype, dest := f.m.dest, addr := f.m.addr, sentAt := b.gmc }
    let c := { b with fab := { b.fab with nextTag := tag + 1, reqs := b.fab.reqs ++ [q] } }
    if b.fab.drains.any fun d => d.1 == f.m.dest then .ok { c with fab := { c.fab with parked := c.fab.parked ++ [f] } }
    else match c.sendVc 1 f with
      | some c => .ok c
      | none => .error (stFabric, 0x91)

def OutReq.new (part : Nat) : OutReq := { tag := 0, ty := 0, dest := 0, addr := 0, part := part, acc := none, wc := none, sentAt := 0, sunk := false }

/-- The message that writes bytes of a line in another package, listed by offset: WRITE for a whole line, else WRITE_MASKED (R477). -/
def lineMsg (pkg part line : Nat) (bytes : Tab Byte) : FMsg :=
  let data := (List.range 128).map fun i => Tab.get bytes i 0
  let mask := (List.range 16).map fun i =>
    byteOf ((List.range 8).foldl (fun v j => v + b2n (Tab.find bytes (8 * i + j)).isSome * 2 ^ j) 0)
  let base : Msg := { Msg.empty with dest := pkg, part := part, addr := line * 128 }
  if bytes.length = 128 then { mtype := 2, m := { base with len := 128, data := data } }
  else { mtype := 3, m := { base with len := 144, data := mask ++ data } }

/-- Bytes put over those of a line's table from offset `o` on. -/
def wcMerge (t : Tab Byte) (o : Nat) (l : List Byte) : Tab Byte :=
  ((List.range l.length).map fun i => (o + i, l.getD i 0)).foldl (fun t e => Tab.put t e.1 e.2) t

/-- A remote request of an access at its physical address: READ of the covering sectors, WRITE of whole sectors, WRITE_MASKED for
anything else (R477). -/
def Block.remoteReq (b : Block) (a : Access) (r : Req) (pkg x : Nat) : ReqRes × Block :=
  let lo := x / 32 * 32
  let hi := (x + r.len + 31) / 32 * 32
  let fl := b2n a.crit
  let q := { OutReq.new a.part with acc := some (a.id, r.off) }
  let base : Msg := { Msg.empty with dest := pkg, part := a.part, addr := lo }
  let data := slice a.data r.off r.len
  let f : FMsg :=
    if a.kind = .store ∨ a.kind = .copyOut then
      if x % 32 = 0 ∧ r.len % 32 = 0 then { mtype := 2, m := { base with len := r.len, data := data } }
      else lineMsg pkg a.part (x / 128) (wcMerge [] (x % 128) data)
    else { mtype := 1, m := { base with mflags := fl, len := hi - lo } }
  match b.sendReq f q with
  | .ok b =>
    let held := if a.die < 2 ∧ f.mtype = 1 then b.heldBytes a.die pkg x r.len else []
    (.wait { r with wait := .reply ((b.fab.nextTag - 1) % 2 ^ 32), wcSnap := held }, b)
  | .error (st, c) => (.bad st c, b)

-- Translation on the path ---------------------------------------------------------------------------------------------

/-- A fill started on a miss: the local table is read now; another package is asked with XLATE (R363). -/
def Block.startFill (b : Block) (die pkg p u : Nat) : Option (Nat × Nat) × Block :=
  let b := if die < 2 then b.bump .TC_MISS_COUNT die else b
  if b.ms.fills.any fun f => f.die == die && f.pkg == pkg && f.part == p && f.unit == u then (none, b)
  else
    let found := if pkg = b.pkg then findRun (b.runs p) u else none
    let f : Fill := { die := die, pkg := pkg, part := p, unit := u, found := found, stale := false }
    let c := { b with ms := { b.ms with fills := b.ms.fills ++ [f] } }
    if pkg = b.pkg then (none, c)
    else
      match c.sendReq { mtype := 5, m := { Msg.empty with dest := pkg, part := p, addr := u * unitBytes } } (OutReq.new p) with
      | .ok c => (none, c)
      | .error e => (some e, b)

/-- A partition address of a package resolved on a die: its physical address, or a wait for the fill, or a refusal. The hub reads
the local table directly. -/
def Block.resolve (b : Block) (a : Access) (r : Req) (pkg l : Nat) : Except ReqRes Nat × Block :=
  let u := l / unitBytes
  if a.die = 2 ∧ pkg = b.pkg then
    match findRun (b.runs a.part) u with
    | some run => (.ok (run.phys l), b)
    | none => (.error (.bad stAddr 0x77), b)
  else
    match b.cached a.die pkg a.part u with
    | some e => (.ok (e.run.phys l), b)
    | none =>
      match b.startFill a.die pkg a.part u with
      | (some (st, c), b) => (.error (.bad st c), b)
      | (none, b) => (.error (.wait { r with wait := .fill }), b)

-- The write-combining buffer (R374 to R381) ---------------------------------------------------------------------------

def Block.wcFind (b : Block) (die pkg line : Nat) : Option WcEntry :=
  b.ms.wc.find? fun e => decide (e.die = die ∧ e.pkg = pkg ∧ e.line = line)

/-- The oldest entry of a die starts to be flushed (R377); one that is being flushed counts as held (R378). -/
def Block.flushOldest (b : Block) (die : Nat) : Block :=
  match b.ms.wc.find? fun e => e.die == die with
  | none => b
  | some v => { b with ms := { b.ms with wc := b.ms.wc.map fun e => if e = v then { e with flushing := true } else e } }

/-- The part of a store in one line enters the buffer: into its entry, or a new one; with no place free, the oldest entry is flushed
and the store waits. A full mask starts the flush. -/
def Block.wcStore (b : Block) (a : Access) (r : Req) (pkg x : Nat) : ReqRes × Block :=
  let line := x / 128
  let o := x % 128
  let tiles := match a.who with | .tile t => [t] | _ => []
  let l := slice a.data r.off r.len
  -- A Furled entry that waits or is under way is abandoned for tier F (R106).
  let b := if pkg == b.pkg && ((memOf x).map fun k => decide (k < 2)) == some true then b.wakeForWork else b
  match b.wcFind a.die pkg line with
  | some e =>
    if e.flushing then (.wait r, b)
    else
      let bytes := wcMerge e.bytes o l
      let e' := { e with bytes := bytes, tiles := nub (e.tiles ++ tiles), since := b.gmc, flushing := bytes.length == 128 }
      (.served [], { b with ms := { b.ms with wc := b.ms.wc.map fun y => if y = e then e' else y } })
  | none =>
    let mine := b.ms.wc.filter fun e => e.die = a.die
    if 64 ≤ mine.length then
      (.wait r, b.flushOldest a.die)
    else
      let bytes := wcMerge [] o l
      let e : WcEntry := { die := a.die, pkg := pkg, part := a.part, line := line, bytes := bytes, tiles := tiles, since := b.gmc,
                           flushing := bytes.length == 128, sent := false, waited := false, paid := 0 }
      (.served [], { b with ms := { b.ms with wc := b.ms.wc ++ [e] } })

/-- Two stores reach a common byte: their ranges meet, in one partition's addresses or in memory that partitions share. -/
def Access.meets (e a : Access) : Bool :=
  let x := e.elems.headD 0
  let y := a.elems.headD 0
  decide (x < y + a.data.length ∧ y < x + e.data.length) && (e.part == a.part || regionOf (x % 2 ^ 50) != .tier)

/-- A store that must take effect earlier has a part that has not left yet: one of the same task, or one issued before to a common byte
(R380). -/
def Block.storeAhead (b : Block) (a : Access) : Bool :=
  b.ms.accs.any fun e => decide (e.id < a.id ∧ e.kind = .store) && (decide (e.who = a.who) || e.meets a) && e.todo.any fun r =>
    match r.wait with | .reply _ => false | _ => true

-- One request ---------------------------------------------------------------------------------------------------------

/-- The request's first `n` bytes, and the rest, each a request of its own. -/
def Req.splitAt (r : Req) (n : Nat) : List Req :=
  [{ r with len := n },
   { r with addr := r.addr + n, len := r.len - n, off := r.off + n, phys := r.phys.map (· + n) }]

/-- A store request at its physical address in package `pkg`, tested line by line (R375). -/
def Block.storeReq (b : Block) (a : Access) (r : Req) (pkg x : Nat) : ReqRes × Block :=
  let l := slice a.data r.off r.len
  let tier := a.die < 2 && (memOf x).isSome
  let partial_ := x % 32 != 0 || r.len % 32 != 0
  let first := x / 128
  let last := (x + r.len - 1) / 128
  let held := (b.wcFind a.die pkg first).isSome || (b.wcFind a.die pkg last).isSome
  if tier && (partial_ || held) then
    if first = last then b.wcStore a r pkg x else (.split ({ r with phys := some x }.splitAt (128 - x % 128)), b)
  else if pkg ≠ b.pkg then b.remoteReq a r pkg x
  else match memOf x with
    | none =>
      match b.writePhys x l with
      | (some c, b) => (.bad stMemUe c, b)
      | (none, b) => (.served [], b)
    | some k => b.tierReq a r x k false fun b =>
        match b.writePhys x l with
        | (some c, b) => (.bad stMemUe c, b)
        | (none, b) => (.served [], b)

/-- A read request at its physical address in package `pkg`. -/
def Block.loadReq (b : Block) (a : Access) (r : Req) (pkg x : Nat) : ReqRes × Block :=
  if pkg ≠ b.pkg then b.remoteReq a r pkg x
  else match memOf x with
    | none =>
      match b.readPhys a.part x r.len with
      | (.error (_, c), b) => (.bad stMemUe c, b)
      | (.ok l, b) => (.served l, b)
    | some k => b.tierReq a r x k true fun b =>
        match b.readPhys a.part x r.len with
        | (.error (_, c), b) => (.bad stMemUe c, b)
        | (.ok l, b) => (.served (if a.die < 2 then layOver l (b.heldBytes a.die pkg x r.len) else l), b)

/-- A request tried (R332, R333, R341, R363). -/
def Block.tryReq (b : Block) (a : Access) (r : Req) : ReqRes × Block :=
  let writes := a.kind = .store ∨ a.kind = .copyOut
  let go (b : Block) (r : Req) (pkg x : Nat) : ReqRes × Block :=
    if writes then b.storeReq a r pkg x else b.loadReq a r pkg x
  match r.wait with
  | .port => (.wait r, b)
  | .fill => (.wait r, b)
  | .reply _ => (.wait r, b)
  | .go =>
    if a.kind = .store ∧ b.storeAhead a then (.wait r, b)
    else
      let pkg := r.addr / 2 ^ 50
      match r.phys with
      | some x => go b r pkg x
      | none =>
        match b.destOf a.part r.addr with
        | .bad st c => (.bad st c, b)
        | .aperture l => go b { r with phys := some l } pkg l
        | .tier l =>
          match b.resolve a r pkg l with
          | (.ok x, b) => go b { r with phys := some x } pkg x
          | (.error e, b) => (e, b)
        | .remote pkg l =>
          match regionOf l with
          | .tier =>
            match b.resolve a r pkg l with
            | (.ok x, b) => go b { r with phys := some x } pkg x
            | (.error e, b) => (e, b)
          | .unmapped => (.bad stAddr 0x7C, b)
          | _ => go b { r with phys := some l } pkg l

-- Whole accesses ------------------------------------------------------------------------------------------------------

/-- `l` with the bytes from `o` replaced. -/
def patch (l : List Byte) (o : Nat) (x : List Byte) : List Byte := l.take o ++ x ++ l.drop (o + x.length)

/-- The lowest-numbered failure of two (R384). -/
def worseReq (w : Option (Nat × Nat × Nat)) (o st c : Nat) : Option (Nat × Nat × Nat) :=
  match w with
  | some (p, s, k) => if o < p then some (o, st, c) else some (p, s, k)
  | none => some (o, st, c)

/-- An access tries its requests in order. A gather tries all of them; any other access gives up what follows a failure. -/
def Block.tryAll (b : Block) (a : Access) : List Req → List Req → Access × Block
  | [], left => ({ a with todo := left }, b)
  | r :: rest, left =>
    match b.tryReq a r with
    | (.served l, b) => b.tryAll { a with data := if l = [] then a.data else patch a.data r.off l } rest left
    | (.wait r, b) => b.tryAll a rest (left ++ [r])
    | (.split l, b) => b.tryAll a rest (left ++ l)
    | (.bad st c, b) =>
      let a := { a with bad := worseReq a.bad r.off st c }
      match a.kind with
      | .gather _ _ => b.tryAll a rest left
      | _ => ({ a with todo := left.filter fun q => match q.wait with | .reply _ => true | _ => false }, b)

/-- A range cut at blocks of `g` bytes; `fuel` bounds the blocks. -/
def cutBlocks (g a : Nat) : Nat → Nat → Nat → List Req
  | 0, _, _ => []
  | fuel + 1, n, off =>
    if n = 0 then []
    else
      let m := min n (g - (a + off) % g)
      { addr := a + off, len := m, off := off, phys := none, wait := .go, waited := false, paid := 0, wcSnap := [] } ::
        cutBlocks g a fuel (n - m) (off + m)

/-- The requests of an access: one for each 256-byte block it touches (R888). -/
def blockReqs (a n : Nat) : List Req := cutBlocks 256 a (n / 256 + 2) n 0

/-- The requests of a store: as of any access, but a block of which it covers a sector in part is cut at its 128-byte lines, since a
masked write carries one line (R375, R477). -/
def storeReqs (a n : Nat) : List Req :=
  (blockReqs a n).flatMap fun r =>
    if r.addr / 128 ≠ (r.addr + r.len - 1) / 128 ∧ (r.addr % 32 ≠ 0 ∨ r.len % 32 ≠ 0) then r.splitAt (128 - r.addr % 128) else [r]

/-- A register of a tile. -/
def Block.vreg (b : Block) (t r : Nat) : List Byte := Tab.get b.ms.vregs (t * 32 + r) (zeros 1024)
def Block.setVreg (b : Block) (t r : Nat) (l : List Byte) : Block :=
  { b with ms := { b.ms with vregs := Tab.put b.ms.vregs (t * 32 + r) (padTo 1024 l) } }

/-- An access put in the table. -/
def Block.addAccess (b : Block) (a : Access) : Block :=
  { b with ms := { b.ms with nextAcc := b.ms.nextAcc + 1, accs := b.ms.accs ++ [{ a with id := b.ms.nextAcc }] } }

def Block.dropAccess (b : Block) (id : Nat) : Block := { b with ms := { b.ms with accs := b.ms.accs.filter fun a => a.id ≠ id } }

-- COPY (R387 to R389) -------------------------------------------------------------------------------------------------

def cpSrc (d : List Byte) : Nat := dArg d 0x00 8
def cpDst (d : List Byte) : Nat := dArg d 0x08 8
def cpBytes (d : List Byte) : Nat := dArg d 0x10 8
def cpSrcHost (d : List Byte) : Bool := (dArg d 0x18 1).testBit 0
def cpDstHost (d : List Byte) : Bool := (dArg d 0x18 1).testBit 1

/-- BAD_COPY (R388). -/
def copyBad (d : List Byte) : Bool :=
  let n := cpBytes d
  (cpSrcHost d && cpDstHost d) || n == 0 || decide (2 ^ 36 < n) || bits (dArg d 0x18 1) 2 6 != 0 || dArg d 0x19 7 != 0 ||
    dWidth d != 0 ||
    (!cpSrcHost d && !cpDstHost d && decide (cpSrc d < cpDst d + n ∧ cpDst d < cpSrc d + n))

/-- The bytes of the next piece of a COPY: to the end of a 4 KiB page on both sides. -/
def copyPiece (d : List Byte) (pos : Nat) : Nat :=
  let left (a : Nat) : Nat := 4096 - (a + pos) % 4096
  min (cpBytes d - pos) (min (left (cpSrc d)) (left (cpDst d)))

/-- A COPY ends with a failure: RESULT is the offset of the first byte not written, divided by 64. -/
def Block.copyFail (b : Block) (j : Job) (status cause off : Nat) : Block :=
  let b := if status = stPoison then b.descViolation j.sq 0x20 cause j.index j.desc else b
  b.conclude j status cause ((j.next + off) / 64)

/-- The next piece of a COPY is read, or the COPY completes. `next` of its job is the number of bytes written. -/
def Block.copyRead (b : Block) (j : Job) : Block :=
  let d := j.desc
  if cpBytes d ≤ j.next then b.conclude j stDone 0 0
  else
    let n := copyPiece d j.next
    if cpSrcHost d then
      match b.startRead j.part (.data j.id) (cpSrc d + j.next) n with
      | some b => b
      | none => b.copyFail j stPoison 0x21 0
    else
      b.addAccess { id := 0, kind := .copyIn, who := .job j.id, part := j.part, die := 2, crit := dLatCrit d,
                    todo := blockReqs (cpSrc d + j.next) n, elems := [], data := zeros n, bad := none }

/-- `n` more bytes of a COPY have been written: it ends with the failure of its read, or goes on. -/
def Block.copyMoved (b : Block) (j : Job) (n : Nat) (bad : Option (Nat × Nat × Nat)) : Block :=
  let j' := { j with next := j.next + n }
  match bad with
  | some (_, st, c) => b.copyFail j' st c 0
  | none => (b.setJob j').copyRead j'

/-- The bytes of a piece are written; `bad` is a failure of its read that ends the COPY after them. -/
def Block.copyWrite (b : Block) (j : Job) (l : List Byte) (bad : Option (Nat × Nat × Nat)) : Block :=
  let d := j.desc
  let move (b : Block) : Block := b.copyMoved j l.length bad
  if l = [] then move b
  else if cpDstHost d then
    match b.startWrite j.part j.id (cpDst d + j.next) l bad with
    | .sent b => move b
    | .waiting b => b
    | .refused => b.copyFail j stPoison 0x24 0
  else
    b.addAccess { id := 0, kind := .copyOut, who := .job j.id, part := j.part, die := 2, crit := false,
                  todo := storeReqs (cpDst d + j.next) l.length, elems := [], data := l, bad := bad }

/-- The sectors of a gather, in the order of their first elements: each is read once (R383). -/
def gatherSectors (elems : List Nat) : List Nat := nub (elems.map fun e => e / 32)

/-- The elements of a gather packed in element order from its sectors (R384). -/
def gatherData (size : Nat) (elems : List Nat) (data : List Byte) : List Byte :=
  elems.flatMap fun e => slice data (32 * ((gatherSectors elems).idxOf (e / 32)) + e % 32) size

/-- The failed byte of an access lies in tile t's own memory. -/
def Block.ownTile (b : Block) (t : Nat) (a : Access) (o : Nat) : Bool :=
  let x := match a.kind with
    | .gather _ _ => 32 * (gatherSectors a.elems).getD (o / 32) 0
    | _ => a.elems.headD 0 + o
  x / 2 ^ 50 == b.pkg && regionOf (x % 2 ^ 50) == .tileMem t

/-- First Miller-view address of the memory window. -/
def windowBase : Nat := 0x1000000000000000

/-- M_ERR and M_ERR_ADDR record an access, and the core takes its access fault (R778, R781). -/
def Block.coreFault (b : Block) (c a status cause : Nat) : Block :=
  (((b.set .M_ERR_STATUS c status).set .M_ERR_CAUSE c cause).set .M_ERR_ADDR_ADDR c a).send (.coreFault c)

/-- An access with nothing left to serve ends: its data reach the tile or the Miller core, or its COPY goes on; a failure ends the task or
the COPY, or faults the core (R384, R389, R397, R781). What waited for a tile's stores may then go on (R379). -/
def Block.finishAccess (b : Block) (a : Access) : Block :=
  let b := b.dropAccess a.id
  match a.who with
  | .tile t =>
    match a.bad, a.kind with
    | some (o, st, c), _ =>
      let b := if c = 0xC0 ∧ b.ownTile t a o then b.setTile t { b.tile t with fault := true } else b
      (b.send (.tileStatus t st c)).taskEnd t st c
    | none, .load r => (b.setVreg t r (patch (b.vreg t r) 0 a.data)).send (.tileData t a.data)
    | none, .gather r size =>
      let l := gatherData size a.elems a.data
      (b.setVreg t r (patch (b.vreg t r) 0 l)).send (.tileData t l)
    | none, _ => b.tileFlushed t
  | .core c =>
    match a.bad with
    | some (_, st, k) => b.coreFault c (windowBase + a.elems.headD 0) st k
    | none => match a.kind with | .load _ => b.send (.coreData c a.data) | _ => b
  | .job id =>
    match b.job id with
    | none => b
    | some j =>
      match a.kind with
      | .copyIn =>
        match a.bad with
        | some (o, st, c) => b.copyWrite j (a.data.take o) (some (o, st, c))
        | none => b.copyWrite j a.data none
      | _ =>
        match a.bad with
        | some (o, st, c) => b.copyFail j st c o
        | none => let j := { j with next := j.next + a.data.length }
                  (b.setJob j).copyRead j

/-- An access run: its requests are tried, and it ends when none is left. -/
def Block.runAccess (b : Block) (id : Nat) : Block :=
  match b.ms.accs.find? fun a => a.id = id with
  | none => b
  | some a =>
    let (a, b) := b.tryAll a a.todo []
    if a.todo = [] then b.finishAccess a
    else { b with ms := { b.ms with accs := b.ms.accs.map fun e => if e.id = id then a else e } }

-- Flushes (R377 to R381, R889) ----------------------------------------------------------------------------------------

/-- A line's bytes written under a mask to physical memory: sectors whole or merged in tier F; the whole line, or a merged line, in
tier S, whose sectors not written whole are read first. Answers the cause of an abandoned merge, and how many merges were made. -/
def Block.writeMasked (b : Block) (line : Nat) (bytes : Tab Byte) : Option Nat × Nat × Block :=
  let base := line * 128
  let put (b : Block) (l : Tab Byte) : Block := { b with mem := l.foldl (fun m e => Mem.put 0 m (base + e.1) e.2) b.mem }
  let part (s : Nat) : Tab Byte := bytes.filter fun e => e.1 / 32 = s
  let whole := [0, 1, 2, 3].filter fun s => (part s).length = 32
  let some_ := [0, 1, 2, 3].filter fun s => 0 < (part s).length && decide ((part s).length < 32)
  let fresh (b : Block) : Block := whole.foldl (fun b s => b.setFault (line * 4 + s) SecFault.none) b
  match memOf base with
  | none => (none, 0, put b bytes)
  | some k =>
    if k < 2 then
      let (bad, lost, b) := b.mergeReads (some_.map fun s => line * 4 + s)
      let kept := bytes.filter fun e => !(lost.any fun x => x == (line * 4 + e.1 / 32) * 32)
      (bad, some_.length, fresh (put b kept))
    else if whole.length = 4 then (none, 0, fresh (put b bytes))
    else
      let (bad, _, b) := b.mergeReads (([0, 1, 2, 3].filter fun s => decide (s ∉ whole)).map fun s => line * 4 + s)
      (bad, 1, if bad.isSome then b else fresh (put b bytes))

/-- An entry leaves the buffer with the outcome of its flush: DONE frees it; any other status is that of the running tasks with bytes
in it, or, with none, event 0x10 of block 0x40. -/
def Block.endFlush (b : Block) (e : WcEntry) (status cause : Nat) : Block :=
  let b := { b with ms := { b.ms with wc := b.ms.wc.filter (· ≠ e) } }
  if status = stDone then e.tiles.foldl (fun b t => b.tileFlushed t) b
  else if e.tiles = [] then
    b.event 0x40 0x10 (leBytes 8 (e.line * 128) ++ [byteOf status, byteOf cause]) e.part
  else e.tiles.foldl (fun b t =>
    let x := b.tile t
    ((b.setTile t { x with releasing := none }).taskEnd t status cause).tileFlushed t) b

/-- The read-merge-writes that a line's bytes take: one for each sector of tier F written in part, one for a line of tier S (R390). -/
def lineMerges (line : Nat) (bytes : Tab Byte) : Nat :=
  let part (s : Nat) : Nat := (bytes.filter fun c => c.1 / 32 = s).length
  match memOf (line * 128) with
  | none => 0
  | some k =>
    if k < 2 then ([0, 1, 2, 3].filter fun s => 0 < part s && decide (part s < 32)).length
    else b2n ([0, 1, 2, 3].any fun s => decide (part s < 32))

/-- The flush of an entry for another package is sent: a line under its mask. -/
def Block.sendFlush (b : Block) (e : WcEntry) : Block :=
  match b.sendReq (lineMsg e.pkg e.part e.line e.bytes) { OutReq.new e.part with wc := some (e.die, e.line) } with
  | .ok b => { b with ms := { b.ms with wc := b.ms.wc.map fun y => if y = e then { e with sent := true } else y } }
  | .error (st, c) => b.endFlush e st c

-- Serving everything that waits ---------------------------------------------------------------------------------------

/-- The mapping of a unit's block as XLATE_RSP carries it in AUX: block size, tier, WAYS, FIRST, the block's place in its way cycle
and its index. -/
def xlateAux (r : Run) (u : Nat) : Nat :=
  let (base, size) := tcBlock r u
  let i := base - r.punit
  (if size = 256 then 2 else if size = 16 then 1 else 0) + r.tier * 4 + (if r.ways = 8 then 3 else if r.ways = 4 then 2 else r.ways - 1) * 8 +
    r.first * 32 + (i % r.ways) * 256 + (r.idx + i / r.ways) * 2048

/-- The run that an XLATE_RSP describes for a unit. -/
def xlateRun (aux u : Nat) : Run :=
  let size := 16 ^ bits aux 0 2
  let base := u / size * size
  let rel := bits aux 8 3
  { punit := base - rel, count := size + rel, tier := bits aux 2 1, ways := 2 ^ bits aux 3 2, first := bits aux 5 3,
    idx := bits aux 11 16, prefF := false }

/-- A physical address may be reached for a partition by a fabric request (R336, R342). -/
def Block.ownerCheck (b : Block) (p x : Nat) : Option Nat :=
  match regionOf x with
  | .tier =>
    match memOf x with
    | none => some 0x7C
    | some k =>
      if b.memCap k ≤ (x - memBase k) / unitBytes then some 0x7D
      else if b.unitOwner x = some p then none else some 0x77
  | .unmapped => some 0x7C
  | .tileMem t => if b.apertureOk p (.tileMem t) then none else some 0x78
  | .dieSram d k => if b.apertureOk p (.dieSram d k) then none else some 0x78
  | _ => some 0x78

/-- A request of another package served at its physical address: its response, or none while it must wait. -/
def Block.serveRemote (b : Block) (q : InReq) : Option FMsg × InReq × Block :=
  let f := q.msg
  let m := f.m
  let rsp (st c aux : Nat) (l : List Byte) : FMsg := response b.pkg f st c aux l
  if f.mtype = 5 then
    match findRun (b.runs m.part) (m.addr / unitBytes) with
    | some r => (some (rsp stDone 0 (xlateAux r (m.addr / unitBytes)) []), q, b)
    | none => (some (rsp stAddr 0x77 0 []), q, b)
  else match b.ownerCheck m.part m.addr with
    | some c => (some (rsp stAddr c 0 []), q, b)
    | none =>
      let mask := m.data.take 16
      let on (i : Nat) : Bool := ((mask.getD (i / 8) 0).toNat).testBit (i % 8)
      let masked : Tab Byte := ((List.range 128).filter on).map fun i => (i, m.data.getD (16 + i) 0)
      let act (b : Block) : FMsg × Block :=
        if f.mtype = 1 then
          match b.readPhys m.part m.addr m.len with
          | (.ok l, b) => (rsp stDone 0 0 l, b)
          | (.error (_, c), b) => (rsp stMemUe c 0 [], b)
        else if f.mtype = 2 then
          match b.writePhys m.addr m.data with
          | (none, b) => (rsp stDone 0 0 [], b)
          | (some c, b) => (rsp stMemUe c 0 [], b)
        else
          match b.writeMasked (m.addr / 128) masked with
          | (none, _, b) => (rsp stDone 0 0 [], b)
          | (some c, _, b) => (rsp stMemUe c 0 [], b)
      match memOf m.addr with
      | none => let (r, b) := act b
                (some r, q, b)
      | some k =>
        if 2 ≤ k ∧ ¬ b.on .TS_CHAN_IN_SERVICE (k - 2) then (some (rsp stMemUe 0x83 0 []), q, b)
        else match b.reach k with
          | (false, b) => (none, q, b)
          | (true, b) =>
           if b.sectorAhead q.seq q.range.1 q.range.2 then (none, q, b)
           else
            let n := if f.mtype = 1 then chargeBytes k m.addr m.len
              else if f.mtype = 2 then chargeWrite k m.addr m.len else chargeMasked k masked
            let (g, b) := b.charge m.part k (n - q.paid) (f.mtype == 1 && m.mflags.testBit 0 && !q.waited)
            let q := { q with paid := q.paid + g }
            if n ≤ q.paid then
              let (r, b) := act b
              (some r, q, b)
            else (none, { q with waited := true }, if q.waited then b else b.slWait m.part k none)

/-- A response returned to where its request came from: a HOST port, or by its route. -/
def Block.answer (b : Block) (port : Nat) (f : FMsg) : Block :=
  if b.portMode port = mdHost then b.enqueue port 0 f else b.reply f

/-- The flits of a served request are freed in their pool (R460, R461). -/
def Block.freeRx (b : Block) (q : InReq) : Block :=
  let x := b.port q.port
  b.setPort q.port { x with rxFreed := bumpAt x.rxFreed q.pool q.flits,
                            rxHeld := x.rxHeld.set q.pool (x.rxHeld.getD q.pool 0 - q.flits) }

/-- A request of another package tried: answered and gone, or left to wait. -/
def Block.runIn (b : Block) (seq : Nat) : Block :=
  match b.fab.inreqs.find? fun q => q.seq = seq with
  | none => b
  | some q =>
    match b.serveRemote q with
    | (some r, _, b) =>
      (({ b with fab := { b.fab with inreqs := b.fab.inreqs.filter fun x => x.seq ≠ seq } }).freeRx q).answer q.port r
    | (none, q, b) => { b with fab := { b.fab with inreqs := b.fab.inreqs.map fun x => if x.seq = seq then q else x } }

/-- An access or a request of another package that waits: its place in the order of arrival, its partition, and whether it is a
latency-critical read. -/
structure Work where
  seq : Nat
  part : Nat
  crit : Bool
  own : Bool
  deriving DecidableEq, Repr

/-- What waits, in order of arrival. -/
def Block.work (b : Block) : List Work :=
  let mine := b.ms.accs.map fun a => { seq := a.id, part := a.part, crit := a.crit && decide (a.kind ≠ .store ∧ a.kind ≠ .copyOut), own := true }
  let others := b.fab.inreqs.map fun q =>
    { seq := q.seq, part := q.msg.m.part, crit := q.msg.mtype == 1 && q.msg.m.mflags.testBit 0, own := false }
  sortBy (fun x y => decide (x.seq ≤ y.seq)) (mine ++ others)

/-- Bulk work round-robin by partition, from the one after `last` on, that of one partition in order of arrival (R417). -/
def roundRobin (last : Nat) (l : List Work) : List Work :=
  let turn (i : Nat) (w : Work) : Nat := ((l.take i).filter fun x => x.part == w.part).length * 8 + (w.part + 15 - last) % 8
  (sortBy (fun (x y : Nat × Work) => decide (x.1 ≤ y.1)) ((List.range l.length).zipWith (fun i w => (turn i w, w)) l)).map (·.2)

/-- Work tried in the order given. -/
def Block.runWork (b : Block) (l : List Work) : Block := l.foldl (fun b w => if w.own then b.runAccess w.seq else b.runIn w.seq) b

/-- Gathers enter their die's Spout port in order of issue while the elements outstanding there are at most 1,024 (R385). -/
def Block.admitPort (b : Block) (die : Nat) : Block :=
  let size (a : Access) : Nat := a.elems.length
  let mine := b.ms.accs.filter fun a => decide (a.die = die) && (match a.kind with | .gather _ _ => true | _ => false)
  let held (a : Access) : Bool := a.todo.any fun r => r.wait == .port
  let inside := ((mine.filter fun a => !held a).map size).sum
  let enter := (mine.filter held).foldl (fun (acc : Nat × List Nat × Bool) a =>
    if acc.2.2 && decide (acc.1 + size a ≤ 1024) then (acc.1 + size a, acc.2.1 ++ [a.id], true) else (acc.1, acc.2.1, false))
    (inside, [], true)
  { b with ms := { b.ms with accs := b.ms.accs.map fun a =>
      if a.id ∈ enter.2.1 then { a with todo := a.todo.map fun r => { r with wait := .go } } else a } }

/-- One pass over everything that waits: gathers enter their ports; latency-critical reads come first, then bulk work round-robin by
partition (R417); then the flushes to be sent. -/
def Block.servePass (b : Block) : Block :=
  let b := (b.admitPort 0).admitPort 1
  let bulk := roundRobin b.ms.lastBulk (b.work.filter fun w => !w.crit)
  let c := (b.runWork (b.work.filter fun w => w.crit)).runWork bulk
  let c := match (bulk.filter fun w => !(c.work.contains w)).getLast? with
    | some w => { c with ms := { c.ms with lastBulk := w.part } }
    | none => c
  (c.ms.wc.filter fun e => e.flushing && !e.sent && e.pkg != c.pkg).foldl (fun b e => b.sendFlush e) c

/-- Passes until nothing more moves. -/
def Block.serveN (b : Block) : Nat → Block
  | 0 => b
  | n + 1 =>
    let c := b.servePass
    if c.ms.accs = b.ms.accs ∧ c.ms.wc = b.ms.wc ∧ c.fab.inreqs = b.fab.inreqs then c else c.serveN n

/-- More passes than the longest COPY has pieces. -/
def servePasses : Nat := 2 ^ 26

def Block.serve (b : Block) : Block :=
  if b.ms.accs = [] ∧ b.fab.inreqs = [] ∧ b.ms.wc = [] then b else b.serveN servePasses

/-- What was held while a memory could not be reached is served, in the order of its arrival first (R102). -/
def Block.serveArrived (b : Block) : Block := (b.runWork b.work).serve

-- Commands ------------------------------------------------------------------------------------------------------------

/-- The context of an access by the task on a tile: its partition, and whether it is latency-critical. -/
def Block.tileAccess (b : Block) (t : Nat) : Option (Nat × Bool) :=
  match (b.tile t).task with
  | none => none
  | some (id, _) => if (b.tile t).ending.isSome then none else (b.job id).map fun j => (j.part, dLatCrit j.desc)

/-- LOAD (R373, R376): the task on a tile loads up to 1 KiB into a vector register. -/
def Block.load (b : Block) (t r a n : Nat) (strikes : List Strike) : Block :=
  match b.tileAccess t with
  | none => b
  | some (p, crit) =>
    let n := min n 1024
    ((b.strike strikes).addAccess { id := 0, kind := .load r, who := .tile t, part := p, die := tileDie t, crit := crit,
                                    todo := blockReqs a n, elems := [a], data := zeros n, bad := none }).serve

def execLoadTile (tile reg addr len : Nat) (strikes : List Strike) (s : State) := s.act (·.load tile reg addr len strikes)

/-- A store of a tile's task issued. -/
def Block.addStore (b : Block) (x : TileStore) : Block :=
  match b.tileAccess x.tile with
  | none => b
  | some (p, _) =>
    b.addAccess { id := 0, kind := .store, who := .tile x.tile, part := p, die := tileDie x.tile, crit := false,
                  todo := storeReqs x.addr x.data.length, elems := [x.addr], data := x.data, bad := none }

/-- STORE (R375, R380): the stores that tiles make in one ck_core cycle are applied in the order of their tiles, so that the
higher-numbered tile's comes last. -/
def Block.store (b : Block) (l : List TileStore) : Block :=
  ((sortBy (fun x y => decide (x.tile ≤ y.tile)) l).foldl (fun b x => b.addStore x) b).serve

def execStoreTile (tile addr : Nat) (data : List Byte) (s : State) (also : List TileStore := []) :=
  s.act (·.store ({ tile := tile, addr := addr, data := data } :: also))

/-- The requests of a gather: one for each sector. -/
def gatherReqs (l : List Nat) : List Req :=
  let secs := gatherSectors l
  (List.range secs.length).map fun i =>
    { addr := 32 * secs.getD i 0, len := 32, off := 32 * i, phys := none, wait := .port, waited := false, paid := 0, wcSnap := [] }

/-- SPOUT_GATHER (R382 to R385): 1 to 8 elements of 4, 8 or 16 bytes, naturally aligned. -/
def Block.gather (b : Block) (t r size : Nat) (l : List Nat) (strikes : List Strike) : Block :=
  if (size = 4 ∨ size = 8 ∨ size = 16) ∧ 1 ≤ l.length ∧ l.length ≤ 8 ∧ (l.all fun a => a % size == 0) then
    match b.tileAccess t with
    | none => b
    | some (p, crit) =>
      ((b.strike strikes).addAccess { id := 0, kind := .gather r size, who := .tile t, part := p, die := tileDie t, crit := crit,
                                      todo := gatherReqs l, elems := l, data := zeros (32 * (gatherSectors l).length), bad := none }).serve
  else b

def execSpoutGather (tile reg size : Nat) (addrs : List Nat) (strikes : List Strike) (s : State) :=
  s.act (·.gather tile reg size addrs strikes)

/-- The requests that wait for a fill get their answer: a run with which to go on, or a refusal. -/
def Block.answerFill (b : Block) (f : Fill) (r : Except (Nat × Nat) Run) : Block :=
  let b := { b with ms := { b.ms with fills := b.ms.fills.filter (· ≠ f) } }
  let hit (a : Access) (q : Req) : Bool :=
    decide (a.die = f.die ∧ a.part = f.part ∧ q.wait = .fill ∧ q.addr / 2 ^ 50 = f.pkg ∧ q.addr % 2 ^ 50 / unitBytes = f.unit)
  match r with
  | .ok run =>
    let b := if f.die < 2 then b.installTc f.die f.pkg f.part f.unit run else b
    let go (a : Access) (q : Req) : Req :=
      if hit a q then { q with wait := .go, phys := some (run.phys (q.addr % 2 ^ 50)) } else q
    let accs := b.ms.accs.map fun a => { a with todo := a.todo.map (go a) }
    ({ b with ms := { b.ms with accs := accs } }).serve
  | .error (st, c) =>
    let fail (a : Access) : Access :=
      match a.todo.find? (hit a) with
      | none => a
      | some q =>
        let left := a.todo.filter fun x => !hit a x
        let keep := match a.kind with
          | .gather _ _ => left
          | _ => left.filter fun x => match x.wait with | .reply _ => true | _ => false
        { a with todo := keep, bad := worseReq a.bad q.off st c }
    let accs := b.ms.accs.map fail
    ({ b with ms := { b.ms with accs := accs } }).serve

/-- TRANSLATION_FILL (R363, R364, R367): a fill from the local table is installed and its accesses go on; one that an invalidation
overtook is discarded and the lookup repeated. -/
def Block.translationFill (b : Block) (die p u : Nat) : Block :=
  match b.ms.fills.find? fun f => decide (f.die = die ∧ f.pkg = b.pkg ∧ f.part = p ∧ f.unit = u) with
  | none => b
  | some f =>
    match (if f.stale then findRun (b.runs p) u else f.found) with
    | some r => b.answerFill f (.ok r)
    | none => b.answerFill f (.error (stAddr, 0x77))

def execTranslationFill (die part unit : Nat) (s : State) := s.act (·.translationFill die part unit)

/-- TRANSLATION_ENTRY_EXPIRY (R365): the entry of a die that maps a unit is dropped, no later than 2^18 ck_core after its fill. -/
def execTranslationEntryExpiry (die pkg part unit : Nat) (s : State) :=
  s.act fun b => { b with ms := { b.ms with tc := b.ms.tc.filter fun e =>
    !(decide (e.die = die ∧ e.pkg = pkg ∧ e.part = part ∧ e.base ≤ unit ∧ unit < e.base + e.size)) } }

/-- WC_HOLD_EXPIRY (R377): an entry to which nothing has been stored for WC_HOLD ck_core starts to be flushed; WC_HOLD 0 is applied as 1.
DEDUCED: the cycles since its last store are counted at the die's present frequency, ACTUAL × 50 MHz; a count of the GMC is 1 ns (R41). -/
def Block.wcExpiry (b : Block) (die pkg line : Nat) : Block :=
  let idle (e : WcEntry) : Bool := decide (max 1 (b.get .WC_CTRL_WC_HOLD) * 20 ≤ (b.gmc - e.since) * (b.die die).lastCode)
  let wc := b.ms.wc.map fun e => if e.die = die ∧ e.pkg = pkg ∧ e.line = line ∧ idle e then { e with flushing := true } else e
  ({ b with ms := { b.ms with wc := wc } }).serve

def execWcHoldExpiry (die pkg line : Nat) (s : State) := s.act (·.wcExpiry die pkg line)

/-- The charge of an entry's flush taken on its partition's sluice, or what the sluice covers of it (R420, R421). The operations of the
tasks with bytes in an entry that waits are REGULATED (R425). -/
def Block.admitFlush (b : Block) (e : WcEntry) (k : Nat) : Bool × Block :=
  let n := chargeMasked k e.bytes
  let (g, b) := b.charge e.part k (n - e.paid) false
  if n ≤ e.paid + g then (true, b)
  else
    let b := { b with ms := { b.ms with wc := b.ms.wc.map fun y => if y = e then { y with paid := y.paid + g, waited := true } else y } }
    if e.waited then (false, b)
    else
      let ids := e.tiles.filterMap fun t => (b.tile t).task.map (·.1)
      (false, (b.slWait e.part k none).setJobs (b.hop.jobs.map fun (j : Job) => if j.id ∈ ids then { j with regulated := true } else j))

/-- FLUSH_ACK (R378, R381, R889): the flush of a local line reaches its destination. It is written and its place freed, or abandoned
with its status; while its partition's sluice does not cover its charge it waits. -/
def Block.flushAck (b : Block) (die line : Nat) (strikes : List Strike) : Block :=
  match b.wcFind die b.pkg line with
  | none => b
  | some e =>
    if !e.flushing then b
    else
      let b := b.strike strikes
      match memOf (line * 128) with
      | none => b
      | some k =>
        if 2 ≤ k ∧ ¬ b.on .TS_CHAN_IN_SERVICE (k - 2) then (b.endFlush e stMemUe 0x83).serve
        else if !b.memUp k then b
        else
          match b.admitFlush e k with
          | (false, b) => b
          | (true, b) =>
            match b.writeMasked line e.bytes with
            | (bad, n, b) =>
              let b := b.bump .WC_RMW_COUNT die n
              (b.endFlush e (if bad.isSome then stMemUe else stDone) (bad.getD 0)).serve

def execFlushAck (die line : Nat) (strikes : List Strike) (s : State) := s.act (·.flushAck die line strikes)

/-- TASK_END (R304, R379). -/
def execTaskEnd (tile status cause : Nat) (s : State) := s.act fun b => (b.taskSaysEnd tile status cause).serve

/-- COPY (R387 to R389). -/
def Block.copy (b : Block) (id : Nat) (strikes : List Strike) : Block :=
  match b.engineStart engMover (isOp 0x20) anyJob anyJob id with
  | none => b
  | some (j, b) =>
    if copyBad j.desc then b.violateJob j 0x79 else (((b.strike strikes).setJob { j with next := 0 }).copyRead { j with next := 0 }).serve

def execCopy (job : Nat) (strikes : List Strike) (s : State) := s.act (·.copy job strikes)

/-- INVALIDATE (R370 to R372): translation entries dropped on both dies, the partition's write-combining entries flushed; it completes
when none is left. -/
def invBad (d : List Byte) : Bool :=
  let a := dArg d 0x00 8
  let scope := dArg d 0x0C 1
  a % unitBytes != 0 || decide (2 ^ 60 ≤ a) || decide (524288 < dArg d 0x08 4) || scope == 0 || bits scope 2 6 != 0 ||
    dArg d 0x0D 19 != 0 || dWidth d != 0

def Block.invalidate (b : Block) (id : Nat) : Block :=
  match b.engineStart engTable onTables anyJob (isOp 0x21) id with
  | none => b
  | some (j, c) =>
    let d := j.desc
    let scope := dArg d 0x0C 1
    if invBad d then c.violateJob j 0x7B
    else
      let drop (b : Block) : Block :=
        if !scope.testBit 0 then b
        else if dArg d 0x08 4 = 0 then b.dropAllTrans j.part
        else b.dropTrans (dArg d 0x00 8 / 2 ^ 50) j.part (dArg d 0x00 8 % 2 ^ 50 / unitBytes) (dArg d 0x08 4)
      let flush (b : Block) : Block :=
        { b with ms := { b.ms with wc := b.ms.wc.map fun e => if e.part = j.part then { e with flushing := true } else e } }
      if scope.testBit 1 && b.ms.wc.any fun e => e.part == j.part then (flush (drop b)).serve
      else (drop c).conclude j stDone 0 0

def execInvalidate (job : Nat) (s : State) := s.act (·.invalidate job)

end Sys2Proof.Machine
end

