-- ==== Sys2Proof/Machine/EngMem.lean ====
section
/-! DEFINITION. Memory as the engines reach it: ranges read and written for a partition within one step, in local memory through the
translation caches and the sluices, and in other packages by requests whose answers the step's operands bring. -/

namespace Sys2Proof.Machine

/-- A failed access: status, cause, and the offset of the first byte not served. -/
structure Failed where
  status : Nat
  cause : Nat
  off : Nat
  deriving DecidableEq, Repr

/-- The bytes from `a` that lie in the same 2 MiB unit. -/
def inUnit (a n : Nat) : Nat := min n (unitBytes - a % unitBytes)

-- Other packages -------------------------------------------------------------------------------------------------------

/-- A request of an engine sent, and its answer: the next of the step's replies, or, when none came, the time-out of R479. -/
def Block.ask (b : Block) (f : FMsg) : Except (Nat × Nat) Reply × Block :=
  match b.sendReq f (OutReq.new f.m.part) with
  | .error e => (.error e, b)
  | .ok b =>
    let tag := (b.fab.nextTag - 1) % 2 ^ 32
    let b := { b with fab := { b.fab with reqs := b.fab.reqs.filter fun q => q.tag ≠ tag } }
    match b.fab.replies with
    | [] => (.error (stFabric, 0x90), { b with fab := { b.fab with late := b.fab.late ++ [tag] } })
    | r :: rest =>
      let b := { b with fab := { b.fab with replies := rest } }
      (if r.status = stDone then .ok r else .error (r.status, r.cause), b)

/-- The place in another package of a local address there: translated through a die's cache or by XLATE (R363). -/
def Block.locateAt (b : Block) (die p pkg l : Nat) : Except (Nat × Nat) Nat × Block :=
  match regionOf l with
  | .unmapped => (.error (stAddr, 0x7C), b)
  | .tier =>
    let u := l / unitBytes
    match (if die < 2 then b.cached die pkg p u else none) with
    | some e => (.ok (e.run.phys l), b)
    | none =>
      let b := if die < 2 then b.bump .TC_MISS_COUNT die else b
      match b.ask { mtype := 5, m := { Msg.empty with dest := pkg, part := p, addr := u * unitBytes } } with
      | (.error e, b) => (.error e, b)
      | (.ok r, b) =>
        let run := xlateRun r.aux u
        (.ok (run.phys l), if die < 2 then b.installTc die pkg p u run else b)
  | _ => (.ok l, b)

/-- A job's LAT_CRIT. -/
def Block.jobCrit (b : Block) (job : Option Nat) : Bool :=
  match job with
  | some id => match b.job id with | some j => dLatCrit j.desc | none => false
  | none => false

/-- At most 256 bytes of one block read in another package. -/
def Block.readAt (b : Block) (p : Nat) (crit : Bool) (pkg x n : Nat) : Except (Nat × Nat) (List Byte) × Block :=
  let lo := x / 32 * 32
  let hi := (x + n + 31) / 32 * 32
  match b.ask { mtype := 1, m := { Msg.empty with dest := pkg, part := p, mflags := b2n crit, len := hi - lo, addr := lo } } with
  | (.error e, b) => (.error e, b)
  | (.ok r, b) => (.ok (slice r.data (x - lo) n), b)

/-- A request of an engine that writes in another package. -/
def Block.askWrite (b : Block) (f : FMsg) : Option (Nat × Nat) × Block :=
  match b.ask f with
  | (.error e, b) => (some e, b)
  | (.ok _, b) => (none, b)

/-- Whole sectors of one block written in another package. -/
def Block.writeAt (b : Block) (p pkg x : Nat) (l : List Byte) : Option (Nat × Nat) × Block :=
  b.askWrite { mtype := 2, m := { Msg.empty with dest := pkg, part := p, addr := x, len := l.length, data := l } }

-- This package ---------------------------------------------------------------------------------------------------------

/-- The physical place of a local address on behalf of a partition, or a failure. -/
def Block.locate (b : Block) (die p l : Nat) : Except (Nat × Nat) Nat × Block :=
  match b.translateNow die p (l / unitBytes) with
  | (none, b) => (.error (stAddr, 0x77), b)
  | (some r, b) =>
    let x := r.phys l
    match memOf x with
    | some k => if k < 2 || b.on .TS_CHAN_IN_SERVICE (k - 2) then (.ok x, b) else (.error (stMemUe, 0x83), b)
    | none => (.ok x, b)

-- What stops an operation (R99, R418, R421, R422) -----------------------------------------------------------------------

/-- The operation that runs is stopped; what it does from here on counts for nothing. -/
def Block.stallEng (b : Block) (s : EngStall) : Block :=
  if b.ms.eng.stall.isSome then b else { b with ms := { b.ms with eng := { b.ms.eng with stall := some s } } }

def Block.engStalled (b : Block) : Bool := b.ms.eng.stall.isSome

/-- An access of a partition waits at its sluice on memory k. -/
def Block.sluiceQueue (b : Block) (p k : Nat) : Bool :=
  b.ms.accs.any fun a => a.part == p && a.todo.any fun r => r.waited && r.wait == .go && (r.phys.bind memOf) == some k

/-- Bytes of an operation's traffic asked of a sluice: what it has been admitted before counts; for the rest the level must do, and the
partition's waiting accesses come first (R421, R422). An operation that only looks is not charged. -/
def Block.engCharge (b : Block) (p k n : Nat) (crit : Bool) : Block :=
  let e := b.ms.eng
  if e.peek || e.stall.isSome then b
  else
    let i := slIx p k
    let used := Tab.get e.used i 0
    let had := max used (Tab.get e.due.paid i 0)
    let need := used + n - had
    let crit := crit && e.due.at_ != some (i, used)
    let (g, b) := if need ≠ 0 ∧ !crit ∧ b.sluiceQueue p k then (0, b) else b.charge p k need crit
    let due := { e.due with paid := Tab.put e.due.paid i (had + g) }
    if g = need then { b with ms := { b.ms with eng := { e with due := due, used := Tab.put e.used i (used + n) } } }
    else { b with ms := { b.ms with eng := { e with due := { due with at_ := some (i, used) }, stall := some (.sluice i used) } } }

/-- An operation's access to `n` bytes of local physical memory, charged `c` bytes, may be made now, or stops it: its memory cannot be
reached, an earlier access to its sectors waits, or its sluice does not cover it. -/
def Block.engAdmit (b : Block) (p x n c : Nat) (crit : Bool) : Block :=
  match memOf x with
  | none => b
  | some k =>
    match b.reach k with
    | (false, _) => b.stallEng (.unreachable k)
    | (true, b) => if b.sectorAhead b.ms.nextAcc x n then b.stallEng .busy else b.engCharge p k c crit

/-- What stands for the outcome of an access that has stopped its operation: it is never seen. -/
def Failed.stopped : Failed := { status := 0, cause := 0, off := 0 }

/-- The sluice charge of a read or of a write of local physical memory. -/
def readCharge (x n : Nat) : Nat := match memOf x with | some k => chargeBytes k x n | none => 0
def writeCharge (x n : Nat) : Nat := match memOf x with | some k => chargeWrite k x n | none => 0

/-- The bytes from `a` that lie in the same aperture: die-shared SRAM is granted in blocks of 256 KiB (R340). -/
def inAperture (a n : Nat) : Nat := min n (0x40000 - a % 0x40000)

/-- The first piece of a range read: how many bytes it has, and the bytes or a failure with the offset of its first bad byte. -/
def Block.readPiece (b : Block) (die p : Nat) (job : Option Nat) (a n : Nat) : Nat × Except Failed (List Byte) × Block :=
  let here (b : Block) (x m : Nat) : Nat × Except Failed (List Byte) × Block :=
    let b := b.engAdmit p x m (readCharge x m) (b.jobCrit job)
    if b.engStalled then (m, .error Failed.stopped, b)
    else match b.readPhys p x m with
      | (.error (s, c), b) => (m, .error { status := stMemUe, cause := c, off := s - x }, b)
      | (.ok l, b) => (m, .ok l, b)
  let failed (st c : Nat) : Except Failed (List Byte) := .error { status := st, cause := c, off := 0 }
  match b.destOf p a with
  | .bad st c => (n, failed st c, b)
  | .aperture l => here b l (inAperture a n)
  | .tier l =>
    match b.locate die p l with
    | (.error (st, c), b) => (n, failed st c, b)
    | (.ok x, b) => here b x (inUnit a n)
  | .remote pkg l =>
    let m := min n (256 - l % 256)
    match b.locateAt die p pkg l with
    | (.error (st, c), b) => (n, failed st c, b)
    | (.ok x, b) =>
      match b.readAt p (b.jobCrit job) pkg x m with
      | (.error (st, c), b) => (n, failed st c, b)
      | (.ok l, b) => (m, .ok l, b)

/-- `n` bytes read piece by piece; `fuel` bounds the pieces, `off` counts the bytes already read. -/
def Block.engReadN (b : Block) (die p : Nat) (job : Option Nat) : Nat → Nat → Nat → Nat → Except Failed (List Byte) × Block
  | 0, _, _, _ => (.ok [], b)
  | fuel + 1, a, n, off =>
    if b.engStalled then (.error Failed.stopped, b)
    else if n = 0 then (.ok [], b)
    else
      match b.readPiece die p job a n with
      | (_, .error f, b) => (.error { f with off := off + f.off }, b)
      | (m, .ok l, b) =>
        match b.engReadN die p job fuel (a + m) (n - m) (off + m) with
        | (.ok l', b) => (.ok (l ++ l'), b)
        | e => e

/-- `n` bytes read for a partition on behalf of a job. -/
def Block.engRead (b : Block) (die p : Nat) (job : Option Nat) (a n : Nat) : Except Failed (List Byte) × Block :=
  b.engReadN die p job (n / 256 + 2) a n 0

-- Stores of an engine (R375, R377, R381, R889) --------------------------------------------------------------------------

/-- A store of an engine on a grind die enters the die's write-combining buffer where it covers a sector in part or its line has an entry
(R375): how many bytes the next piece of the store at physical address x has, and whether it enters the buffer. -/
def Block.storePiece (b : Block) (die pkg x n : Nat) : Nat × Bool :=
  let m := min n (128 - x % 128)
  let whole (x m : Nat) : Bool := x % 32 == 0 && m % 32 == 0
  if 2 ≤ die ∨ (memOf x).isNone then (n, false)
  else if !whole x m || (b.wcFind die pkg (x / 128)).isSome then (m, true)
  else
    let ends := (b.ms.wc.filter fun e => decide (e.die = die ∧ e.pkg = pkg ∧ x < e.line * 128)).map fun e => e.line * 128 - x
    let last := if whole x n then n else (x + n) / 128 * 128 - x
    (ends.foldl min last, false)

/-- The bytes of an engine's store in one line go through the buffer: with those of the line's entry they are flushed before the operation
goes on, and the entry is gone. The operation stops while the entry is being flushed, or while no place is free for a new one. -/
def Block.storeLine (b : Block) (die p pkg x : Nat) (l : List Byte) : Option Failed × Block :=
  let line := x / 128
  let old := b.wcFind die pkg line
  let bytes := wcMerge (match old with | some e => e.bytes | none => []) (x % 128) l
  let full := old.isNone && decide (64 ≤ (b.ms.wc.filter fun e => e.die = die).length)
  if (old.map (·.flushing)) = some true then (some Failed.stopped, b.stallEng .busy)
  else if full then (some Failed.stopped, b.stallEng (.full die))
  else
    let done (b : Block) (r : Option (Nat × Nat)) : Option Failed × Block :=
      let (st, c) := r.getD (stDone, 0)
      let b := match old with | some e => b.endFlush e st c | none => b
      (r.map fun e => { status := e.1, cause := e.2, off := 0 }, b)
    if pkg = b.pkg then
      let b := b.engAdmit p (line * 128) 128 (match memOf x with | some k => chargeMasked k bytes | none => 0) false
      if b.engStalled then (some Failed.stopped, b)
      else
        let (bad, n, b) := b.writeMasked line bytes
        done (b.bump .WC_RMW_COUNT die n) (bad.map fun c => (stMemUe, c))
    else
      let (bad, b) := b.askWrite (lineMsg pkg p line bytes)
      let merged := match bad with | none => true | some (st, c) => st == stMemUe && c != 0x83
      done (if merged then b.bump .WC_RMW_COUNT die (lineMerges line bytes) else b) bad

/-- The first piece of a range written: how many bytes it takes, and a failure. -/
def Block.writePiece (b : Block) (die p : Nat) (a : Nat) (l : List Byte) : Nat × Option Failed × Block :=
  let n := l.length
  let failed (st c : Nat) : Option Failed := some { status := st, cause := c, off := 0 }
  let here (b : Block) (x m : Nat) : Nat × Option Failed × Block :=
    let b := b.engAdmit p x m (writeCharge x m) false
    if b.engStalled then (m, some Failed.stopped, b)
    else match b.writePhys x (l.take m) with
      | (some c, b) => (m, failed stMemUe c, b)
      | (none, b) => (m, none, b)
  match b.destOf p a with
  | .bad st c => (n, failed st c, b)
  | .aperture x => here b x (inAperture a n)
  | .tier t =>
    match b.locate die p t with
    | (.error (st, c), b) => (n, failed st c, b)
    | (.ok x, b) =>
      match b.storePiece die b.pkg x (inUnit a n) with
      | (m, false) => here b x m
      | (m, true) =>
        let (r, b) := b.storeLine die p b.pkg x (l.take m)
        (m, r, b)
  | .remote pkg t =>
    match b.locateAt die p pkg t with
    | (.error (st, c), b) => (n, failed st c, b)
    | (.ok x, b) =>
      let m := min n (256 - x % 256)
      let k := min n (128 - x % 128)
      match b.storePiece die pkg x m with
      | (m, true) =>
        let (r, b) := b.storeLine die p pkg x (l.take m)
        (m, r, b)
      | (m, false) =>
        let (m, f) :=
          if x % 32 = 0 ∧ m % 32 = 0 then (m, none)
          else if x % 32 = 0 ∧ 32 ≤ k then (k / 32 * 32, none)
          else (k, some (lineMsg pkg p (x / 128) (wcMerge [] (x % 128) (l.take k))))
        match (match f with | none => b.writeAt p pkg x (l.take m) | some f => b.askWrite f) with
        | (some (st, c), b) => (m, failed st c, b)
        | (none, b) => (m, none, b)

/-- Bytes written piece by piece. -/
def Block.engWriteN (b : Block) (die p : Nat) : Nat → Nat → List Byte → Nat → Option Failed × Block
  | 0, _, _, _ => (none, b)
  | fuel + 1, a, l, off =>
    if b.engStalled then (some Failed.stopped, b)
    else if l = [] then (none, b)
    else
      match b.writePiece die p a l with
      | (_, some f, b) => (some { f with off := off + f.off }, b)
      | (m, none, b) => b.engWriteN die p fuel (a + m) (l.drop m) (off + m)

/-- Bytes written for a partition. -/
def Block.engWrite (b : Block) (die p : Nat) (a : Nat) (l : List Byte) : Option Failed × Block :=
  b.engWriteN die p (l.length / 32 + 2) a l 0

-- Operations as a whole ---------------------------------------------------------------------------------------------------

/-- An operation that could not run as a whole: `b` before it, `c` where it stopped. Nothing of it stays but what made it stop: the package
woken, the buffer's oldest entry flushed (R377), or what its sluices have admitted, its wait there counted once (R425). -/
def Block.engHeld (b c : Block) (agent : Nat) : EngStall → Block
  | .unreachable k => (b.reach k).2
  | .busy => b
  | .full die => (b.flushOldest die).serve
  | .sluice i at_ =>
    let again := (Tab.get b.ms.dues agent EngDue.none).at_ == some (i, at_)
    let b := { b with
      ms := { b.ms with sluices := c.ms.sluices, dues := Tab.put b.ms.dues agent c.ms.eng.due }
      pwr := { b.pwr with pairSleep := c.pwr.pairSleep, pairLast := c.pwr.pairLast } }
    if again then b else b.slWait (i / 10) (i % 10) (agentJob agent)

/-- The block as an operation of an agent starts on it. -/
def Block.began (b : Block) (agent : Nat) : Block :=
  { b with ms := { b.ms with eng := { EngRun.none with due := Tab.get b.ms.dues agent EngDue.none } } }

/-- The block after an operation that has run whole. -/
def Block.ended (c : Block) (agent : Nat) : Block :=
  { c with ms := { c.ms with eng := EngRun.none, dues := if c.ms.eng.used = [] then c.ms.dues else Tab.del c.ms.dues agent } }

/-- An operation with accesses of its own is run, as a whole or not at all: what it answers, if it ran, and the block. DEDUCED: an operation
whose accesses must wait does nothing before they can all be made; it is then taken up again, and what its sluices have admitted
counts. -/
def Block.attempt {α : Type} (b : Block) (agent : Nat) (f : Block → α × Block) : Option α × Block :=
  let (x, c) := f (b.began agent)
  match c.ms.eng.stall with
  | none => (some x, c.ended agent)
  | some s => (none, b.engHeld c agent s)

/-- An operation that changes the block, run as a whole. -/
def Block.whole (b : Block) (agent : Nat) (f : Block → Block) : Block := (b.attempt agent fun b => ((), f b)).2

/-- Look-ups of an operation that are not charged: what they answer, and the block with nothing of them but why the operation stops. -/
def Block.peek {α : Type} (b : Block) (f : Block → α × Block) : α × Block :=
  let (x, c) := f { b with ms := { b.ms with eng := { b.ms.eng with peek := true } } }
  (x, { b with ms := { b.ms with eng := { b.ms.eng with stall := c.ms.eng.stall } } })

-- Sequences of accesses ------------------------------------------------------------------------------------------------

/-- A sequence of accesses of an engine, ended by the first failure. -/
abbrev EngM (α : Type) := ExceptT Failed (StateM Block) α

/-- An access as one step of a sequence. -/
def engM {α : Type} (f : Block → Except Failed α × Block) : EngM α := ExceptT.mk f

/-- A change of the block as one step of a sequence. -/
def modM (f : Block → Block) : EngM Unit := ExceptT.mk fun b => (.ok (), f b)

/-- A failure raised by an engine itself. -/
def failM {α : Type} (status cause : Nat) : EngM α := ExceptT.mk fun b => (.error { status := status, cause := cause, off := 0 }, b)

/-- Who an engine's accesses are made for: the die, the partition and the job. -/
structure Who where
  die : Nat
  part : Nat
  job : Nat
  deriving DecidableEq, Repr

def readM (w : Who) (a n : Nat) : EngM (List Byte) :=
  engM fun b => if n = 0 then (.ok [], b) else b.engRead w.die w.part (some w.job) a n

def writeM (w : Who) (a : Nat) (l : List Byte) : EngM Unit :=
  engM fun b => match b.engWrite w.die w.part a l with
    | (none, b) => (.ok (), b)
    | (some f, b) => (.error f, b)

/-- A sequence run on a block. -/
def EngM.go {α : Type} (m : EngM α) (b : Block) : Except Failed α × Block := ExceptT.run m b

-- Time within a step ---------------------------------------------------------------------------------------------------

/-- The count that an engine's replica of the GMC reads at its k-th reading within the step: the step's operand lists the counts; the
last one stands for those that follow. -/
def Block.clockAt (b : Block) (clock : List Nat) (k : Nat) : Nat := max b.gmc (clock.getD k (clock.getLastD b.gmc))

/-- The DEADLINE of a job has passed at an engine's k-th test. -/
def Block.deadlineAt (b : Block) (j : Job) (clock : List Nat) (k : Nat) : Bool :=
  dDeadline j.desc != 0 && decide (dDeadline j.desc ≤ b.clockAt clock k)

/-- A step that sends requests to other packages, with their answers in order. -/
def Block.withReplies (b : Block) (l : List Reply) (f : Block → Block) : Block :=
  let c := f { b with fab := { b.fab with replies := l } }
  { c with fab := { c.fab with replies := [] } }

/-- A command's operation, with the bit errors that strike in it and the answers of other packages. -/
def Block.runOp (b : Block) (agent : Nat) (strikes : List Strike) (replies : List Reply) (f : Block → Block) : Block :=
  (b.strike strikes).withReplies replies (·.whole agent f)

/-- The block on which such an operation runs. -/
def Block.given (b : Block) (agent : Nat) (strikes : List Strike) (replies : List Reply) : Block :=
  let c := b.strike strikes
  ({ c with fab := { c.fab with replies := replies } }).began agent

/-- The block that such an operation leaves when it has run whole. -/
def Block.replied (b : Block) (agent : Nat) : Block :=
  let c := b.ended agent
  { c with fab := { c.fab with replies := [] } }

end Sys2Proof.Machine
end

