-- ==== Sys2Proof/Machine/Formats.lean ====
section
/-! DEFINITION. The eleven number formats (spec/12): encodings, rounding and saturation, exact arithmetic rounded once, the matrix
engine's and vector unit's order of accumulation, MXFP4 blocks and DF16. A floating-point value is held exactly, as a sign, a
magnitude m and an exponent e with value m × 2^e. -/

namespace Sys2Proof.Machine

/-- A value: NaN, an infinity, or ±m × 2^e. -/
inductive FVal where
  | nan
  | inf (neg : Bool)
  | fin (neg : Bool) (m : Nat) (e : Int)
  deriving DecidableEq, Repr

/-- A floating-point format (R592): exponent and mantissa bits, bias, infinities; `top` is its largest finite encoding without
sign, `nanEnc` its canonical NaN (R594), 0 for none. -/
structure Fmt where
  ebits : Nat
  mbits : Nat
  bias : Nat
  hasInf : Bool
  top : Nat
  nanEnc : Nat
  deriving DecidableEq, Repr

def fp64 : Fmt := ⟨11, 52, 1023, true, 0x7FEFFFFFFFFFFFFF, 0x7FF8000000000000⟩
def fp32 : Fmt := ⟨8, 23, 127, true, 0x7F7FFFFF, 0x7FC00000⟩
def bf16 : Fmt := ⟨8, 7, 127, true, 0x7F7F, 0x7FC0⟩
def fp16 : Fmt := ⟨5, 10, 15, true, 0x7BFF, 0x7E00⟩
def e4m3 : Fmt := ⟨4, 3, 7, false, 0x7E, 0x7F⟩
def e5m2 : Fmt := ⟨5, 2, 15, true, 0x7B, 0x7E⟩
def e2m1 : Fmt := ⟨2, 1, 1, false, 7, 0⟩

/-- Bits of an encoding. -/
def Fmt.width (f : Fmt) : Nat := 1 + f.ebits + f.mbits

/-- The encoding of an infinity without sign. -/
def Fmt.infEnc (f : Fmt) : Nat := (2 ^ f.ebits - 1) * 2 ^ f.mbits

/-- The value an encoding stands for (R592, R595, R596). -/
def Fmt.dec (f : Fmt) (v : Nat) : FVal :=
  let neg := v.testBit (f.width - 1)
  let mag := v % 2 ^ (f.width - 1)
  if f.top < mag then (if f.hasInf && mag == f.infEnc then .inf neg else .nan)
  else
    let ex := mag / 2 ^ f.mbits
    let mant := mag % 2 ^ f.mbits
    let qmin : Int := 1 - (f.bias : Int) - (f.mbits : Int)
    if ex = 0 then .fin neg mant qmin else .fin neg (mant + 2 ^ f.mbits) (qmin + (ex : Int) - 1)

/-- Rounding modes (R606). `sr u` is stochastic rounding with the drawn word u (R611). -/
inductive RMode where
  | rne | rtz | rdn | rup
  | sr (u : Nat)
  deriving DecidableEq, Repr

/-- A magnitude lo + rem / 2^s rounds up to lo + 1. -/
def roundsUp (mode : RMode) (neg : Bool) (lo rem s : Nat) : Bool :=
  match mode with
  | .rne => decide (2 ^ s < 2 * rem) || (decide (2 * rem = 2 ^ s) && lo % 2 == 1)
  | .rtz => false
  | .rdn => neg && rem != 0
  | .rup => !neg && rem != 0
  | .sr u => decide (u < rem * 2 ^ 32 / 2 ^ s)

/-- The overflow result of a format (R608): by mode without SAT, the largest finite value with it. -/
def Fmt.overflow (f : Fmt) (mode : RMode) (sat neg : Bool) : Nat :=
  let sgn := b2n neg * 2 ^ (f.width - 1)
  if sat then sgn + f.top
  else if !f.hasInf then (if f.nanEnc = 0 then sgn + f.top else f.nanEnc)
  else match mode with
    | .rtz => sgn + f.top
    | .rdn => if neg then sgn + f.infEnc else f.top
    | .rup => if neg then sgn + f.top else f.infEnc
    | _ => sgn + f.infEnc

/-- A value encoded in a format: rounded once in a mode, with SAT as given (R594, R606 to R609). -/
def Fmt.enc (f : Fmt) (v : FVal) (mode : RMode := .rne) (sat : Bool := false) : Nat :=
  match v with
  | .nan => f.nanEnc
  | .inf neg =>
    let sgn := b2n neg * 2 ^ (f.width - 1)
    if sat then sgn + f.top else if f.hasInf then sgn + f.infEnc else if f.nanEnc = 0 then sgn + f.top else f.nanEnc
  | .fin neg m e =>
    let sgn := b2n neg * 2 ^ (f.width - 1)
    if m = 0 then sgn
    else
      let qmin : Int := 1 - (f.bias : Int) - (f.mbits : Int)
      let q : Int := max ((m.log2 : Int) + e - (f.mbits : Int)) qmin
      let mant :=
        if q ≤ e then m * 2 ^ (e - q).toNat
        else
          let s := (q - e).toNat
          let lo := m / 2 ^ s
          let rem := m % 2 ^ s
          if roundsUp mode neg lo rem s then lo + 1 else lo
      let r := (q - qmin).toNat * 2 ^ f.mbits + mant
      if f.top < r then f.overflow mode sat neg else sgn + r

-- Exact arithmetic -----------------------------------------------------------------------------------------------------

/-- A signed integer times 2^e as a value; `negZero` gives the sign of a zero. -/
def fvOf (i : Int) (e : Int) (negZero : Bool := false) : FVal :=
  if i = 0 then .fin negZero 0 0 else .fin (decide (i < 0)) i.natAbs e

/-- The signed magnitude of a finite value. -/
def fvInt (neg : Bool) (m : Nat) : Int := if neg then -(m : Int) else (m : Int)

def FVal.neg : FVal → FVal
  | .nan => .nan
  | .inf s => .inf !s
  | .fin s m e => .fin (!s) m e

def FVal.abs : FVal → FVal
  | .nan => .nan
  | .inf _ => .inf false
  | .fin _ m e => .fin false m e

/-- The exact sum. A zero sum of unlike signs is +0, or −0 when rounding down. -/
def FVal.add (x y : FVal) (down : Bool := false) : FVal :=
  match x, y with
  | .nan, _ => .nan
  | _, .nan => .nan
  | .inf s, .inf t => if s = t then .inf s else .nan
  | .inf s, _ => .inf s
  | _, .inf t => .inf t
  | .fin s m e, .fin t n f =>
    if m = 0 ∧ n = 0 then .fin (if s = t then s else down) 0 0
    else
      let q := min e f
      fvOf (fvInt s (m * 2 ^ (e - q).toNat) + fvInt t (n * 2 ^ (f - q).toNat)) q down

/-- The exact sum with the sign of zero of the nearest modes. -/
def FVal.plus (x y : FVal) : FVal := x.add y

def FVal.sub (x y : FVal) (down : Bool := false) : FVal := x.add y.neg down

/-- The exact product. -/
def FVal.mul (x y : FVal) : FVal :=
  match x, y with
  | .nan, _ => .nan
  | _, .nan => .nan
  | .inf s, .inf t => .inf (s != t)
  | .inf s, .fin t n _ => if n = 0 then .nan else .inf (s != t)
  | .fin s m _, .inf t => if m = 0 then .nan else .inf (s != t)
  | .fin s m e, .fin t n f => .fin (s != t) (m * n) (e + f)

/-- A quotient carried to at least `p` bits, its last bit set when it is inexact, so that rounding to fewer bits is exact. -/
def FVal.divTo (p : Nat) (x y : FVal) : FVal :=
  match x, y with
  | .nan, _ => .nan
  | _, .nan => .nan
  | .inf _, .inf _ => .nan
  | .inf s, .fin t _ _ => .inf (s != t)
  | .fin s _ _, .inf t => .fin (s != t) 0 0
  | .fin s m e, .fin t n f =>
    if n = 0 then (if m = 0 then .nan else .inf (s != t))
    else if m = 0 then .fin (s != t) 0 0
    else
      let k := p + n.log2 + 2
      let num := m * 2 ^ k
      .fin (s != t) (2 * (num / n) + (if num % n = 0 then 0 else 1)) (e - f - (k : Int) - 1)

/-- The integer square root by bits: the largest r with r² ≤ v, built from bit k - 1 down. -/
def isqrtN (v : Nat) : Nat → Nat → Nat
  | 0, r => r
  | k + 1, r => let c := r + 2 ^ k; if c * c ≤ v then isqrtN v k c else isqrtN v k r

def isqrt (v : Nat) : Nat := isqrtN v (v.log2 / 2 + 1) 0

/-- A square root carried to at least `p` bits, its last bit set when it is inexact. -/
def FVal.sqrtTo (p : Nat) (x : FVal) : FVal :=
  match x with
  | .nan => .nan
  | .inf s => if s then .nan else .inf false
  | .fin s m e =>
    if m = 0 then .fin s 0 0
    else if s then .nan
    else
      let odd := e % 2 ≠ 0
      let m := if odd then 2 * m else m
      let e := if odd then e - 1 else e
      let k := p + 2
      let v := m * 2 ^ (2 * k)
      let r := isqrt v
      .fin false (2 * r + (if r * r = v then 0 else 1)) (e / 2 - (k : Int) - 1)

/-- Order of two values, none when either is NaN. Zeros of either sign are equal. -/
def FVal.cmp (x y : FVal) : Option Ordering :=
  match x, y with
  | .nan, _ => none
  | _, .nan => none
  | .inf s, .inf t => some (if s = t then .eq else if s then .lt else .gt)
  | .inf s, _ => some (if s then .lt else .gt)
  | _, .inf t => some (if t then .gt else .lt)
  | .fin s m e, .fin t n f =>
    let q := min e f
    some (compare (fvInt s (m * 2 ^ (e - q).toNat)) (fvInt t (n * 2 ^ (f - q).toNat)))

def FVal.lt (x y : FVal) : Bool := x.cmp y == some .lt
def FVal.le (x y : FVal) : Bool := x.cmp y == some .lt || x.cmp y == some .eq
def FVal.isNan (x : FVal) : Bool := x == .nan
def FVal.isNeg : FVal → Bool
  | .nan => false
  | .inf s => s
  | .fin s _ _ => s
def FVal.isZero : FVal → Bool
  | .fin _ m _ => m == 0
  | _ => false
def FVal.isFinite : FVal → Bool
  | .fin _ _ _ => true
  | _ => false

/-- IEEE 754-2019 minimum and maximum: NaN when either is NaN, −0 below +0 (R515). -/
def FVal.min (x y : FVal) : FVal :=
  match x.cmp y with
  | none => .nan
  | some .lt => x
  | some .gt => y
  | some .eq => if x.isNeg then x else y

def FVal.max (x y : FVal) : FVal :=
  match x.cmp y with
  | none => .nan
  | some .gt => x
  | some .lt => y
  | some .eq => if x.isNeg then y else x

/-- A natural number, and an integer, as a value. -/
def fvNat (n : Nat) : FVal := .fin false n 0
def fvFromInt (i : Int) : FVal := fvOf i 0

/-- A value rounded to a format and read back. -/
def Fmt.rnd (f : Fmt) (v : FVal) (mode : RMode := .rne) : FVal := f.dec (f.enc v mode)

-- Operations on encodings, rounded once --------------------------------------------------------------------------------

def Fmt.add (f : Fmt) (x y : Nat) (mode : RMode := .rne) : Nat :=
  f.enc ((f.dec x).add (f.dec y) (mode == .rdn)) mode
def Fmt.sub (f : Fmt) (x y : Nat) (mode : RMode := .rne) : Nat :=
  f.enc ((f.dec x).sub (f.dec y) (mode == .rdn)) mode
def Fmt.mul (f : Fmt) (x y : Nat) (mode : RMode := .rne) : Nat := f.enc ((f.dec x).mul (f.dec y)) mode
def Fmt.div (f : Fmt) (x y : Nat) (mode : RMode := .rne) : Nat :=
  f.enc (FVal.divTo (f.mbits + 40) (f.dec x) (f.dec y)) mode
def Fmt.sqrt (f : Fmt) (x : Nat) (mode : RMode := .rne) : Nat := f.enc (FVal.sqrtTo (f.mbits + 40) (f.dec x)) mode
def Fmt.fma (f : Fmt) (x y z : Nat) (mode : RMode := .rne) : Nat :=
  f.enc (((f.dec x).mul (f.dec y)).add (f.dec z) (mode == .rdn)) mode
def Fmt.min (f : Fmt) (x y : Nat) : Nat := f.enc ((f.dec x).min (f.dec y))
def Fmt.max (f : Fmt) (x y : Nat) : Nat := f.enc ((f.dec x).max (f.dec y))

/-- A value rounded to an integer. -/
def FVal.toInt (v : FVal) (mode : RMode) : Option Int :=
  match v with
  | .nan => none
  | .inf _ => none
  | .fin s m e =>
    if 0 ≤ e then some (fvInt s (m * 2 ^ e.toNat))
    else
      let k := (-e).toNat
      let lo := m / 2 ^ k
      some (fvInt s (if roundsUp mode s lo (m % 2 ^ k) k then lo + 1 else lo))

/-- Conversion to a w-bit signed integer (R608, R610): saturating, NaN to 0. -/
def toIntSat (w : Nat) (v : FVal) (mode : RMode) : Nat :=
  let hi : Int := 2 ^ (w - 1) - 1
  let lo : Int := -(2 ^ (w - 1))
  match v with
  | .nan => 0
  | .inf s => toW w (if s then lo else hi)
  | .fin _ _ _ => toW w (Max.max lo (Min.min hi ((v.toInt mode).getD 0)))

-- Stochastic rounding (R611) -------------------------------------------------------------------------------------------

/-- A value that the format represents exactly draws nothing. -/
def Fmt.exact (f : Fmt) (v : FVal) : Bool :=
  match v with
  | .fin _ _ _ => decide ((f.dec (f.enc v .rtz)).cmp v = some .eq)
  | _ => true

-- MXFP4 (R598 to R600) -------------------------------------------------------------------------------------------------

/-- Element i of a block with its scale. -/
def mxElem (scale : Nat) (blk : List Byte) (i : Nat) : FVal :=
  let v := (blk.getD (i / 2) 0).toNat
  let v := if i % 2 = 0 then v % 16 else v / 16
  if scale = 0xFF then .nan
  else match e2m1.dec v with
    | .fin s m e => .fin s m (e + (scale : Int) - 127)
    | x => x

/-- 32 values as one block: the scale and the 16 bytes; element i is rounded in `mode i`. -/
def mxPack (l : List FVal) (mode : Nat → RMode) : Nat × List Byte :=
  let pack (es : List Nat) : List Byte := (List.range 16).map fun i => byteOf (es.getD (2 * i) 0 + 16 * es.getD (2 * i + 1) 0)
  if l.any fun v => !v.isFinite then (0xFF, zeros 16)
  else
    let amax := l.foldl (fun (a : FVal) (v : FVal) => a.max v.abs) (FVal.fin false 0 0)
    match amax with
    | .fin _ 0 _ => (0, pack (l.map fun v => b2n v.isNeg * 8))
    | .fin _ m e =>
      let ex : Int := Max.max (-127) (Min.min 127 ((m.log2 : Int) + e - 2))
      (((ex + 127).toNat), pack ((List.range l.length).map fun i => match l.getD i .nan with
        | .fin s n f => e2m1.enc (.fin s n (f - ex)) (mode i) true
        | _ => 0))
    | _ => (0xFF, zeros 16)

-- DF16 (R601 to R605) --------------------------------------------------------------------------------------------------

/-- A DF16 encoding as a signed number of 2^-10 voxel edges. -/
def dfInt (v : Nat) : Int := fvInt (v.testBit 15) (v % 2 ^ 15)

/-- A signed number of 2^-10 voxel edges as DF16: saturating, every zero 0x0000. -/
def dfOf (i : Int) : Nat :=
  let m := Min.min i.natAbs 32767
  if m = 0 then 0 else (if i < 0 then 0x8000 else 0) + m

def dfAdd (x y : Nat) : Nat := dfOf (dfInt x + dfInt y)
def dfSub (x y : Nat) : Nat := dfOf (dfInt x - dfInt y)
def dfMin (x y : Nat) : Nat := dfOf (Min.min (dfInt x) (dfInt y))
def dfMax (x y : Nat) : Nat := dfOf (Max.max (dfInt x) (dfInt y))

/-- Conversion to DF16 (R603): NaN is the deepest penetration. -/
def dfFrom (v : FVal) (mode : RMode) : Nat :=
  match v with
  | .nan => 0xFFFF
  | .inf s => if s then 0xFFFF else 0x7FFF
  | .fin s m e => dfOf (((FVal.fin s m (e + 10)).toInt mode).getD 0)

/-- Conversion from DF16 (R604), exact. -/
def dfVal (v : Nat) : FVal := fvOf (dfInt v) (-10)

-- Orders of accumulation (R614 to R618) --------------------------------------------------------------------------------

/-- A list cut into groups of n. -/
def groupsOf {α : Type} (n : Nat) : Nat → List α → List (List α)
  | 0, _ => []
  | fuel + 1, l => if l.isEmpty then [] else l.take n :: groupsOf n fuel (l.drop n)

/-- The exact sum of a group of products. -/
def groupSum : List FVal → FVal
  | [] => .fin false 0 0
  | x :: r => r.foldl FVal.plus x

/-- A dot product: groups of G products summed exactly, each group sum rounded to the accumulator format, and added to the
accumulator in order (R614, R615). -/
def dotGroups (acc : Fmt) (g : Nat) (start : Nat) (prods : List FVal) : Nat :=
  (groupsOf g prods.length prods).foldl (fun a p => acc.add a (acc.enc (groupSum p))) start

/-- An FP64 dot product: one fused multiply-add for each step (R615). -/
def dotFma (start : Nat) (l : List (Nat × Nat)) : Nat := l.foldl (fun a p => fp64.fma p.1 p.2 a) start

/-- An INT8 dot product: INT32 with wrap-around (R617). -/
def dotInt8 (start : Nat) (l : List (Nat × Nat)) : Nat :=
  l.foldl (fun a p => toW 32 (sext 32 a + sext 8 p.1 * sext 8 p.2)) start

/-- A cross-lane reduction: element i with element i + n/2, then the lower half again (R618); `fuel` halvings. -/
def laneReduce {α : Type} (op : α → α → α) : Nat → List α → List α
  | 0, l => l
  | k + 1, l =>
    let h := l.length / 2
    if h = 0 then l else laneReduce op k (List.zipWith op (l.take h) (l.drop h))

end Sys2Proof.Machine
end

