-- ==== Sys2Proof/Machine/Bolter.lean ====
section
/-! DEFINITION. The Bolter (spec/13): the key order, the SELECT descriptor, and the Bolter instructions of tasks. -/

namespace Sys2Proof.Machine

-- Keys (R631 to R633, R637) --------------------------------------------------------------------------------------------

/-- Bytes of a key, by KTYPE. -/
def keySize (ty : Nat) : Nat := [8, 4, 2, 2, 1, 1, 4, 2, 1, 2].getD ty 1

/-- The float format of a KTYPE. -/
def keyFmt (ty : Nat) : Option Fmt :=
  match ty with
  | 0 => some fp64 | 1 => some fp32 | 2 => some bf16 | 3 => some fp16 | 4 => some e4m3 | 5 => some e5m2 | _ => none

/-- The integer of an integer or DF16 key. -/
def keyInt (ty v : Nat) : Int := if ty = 9 then dfInt v else sext (8 * keySize ty) v

def opMin : Nat := 1
def opMax : Nat := 2
def opNearest : Nat := 3

/-- What a key is ordered by: its value, or for NEAREST its distance to Q, computed in FP64 with RNE for float keys and exactly for
integer and DF16 keys. -/
def keyOrd (op ty q v : Nat) : FVal :=
  match keyFmt ty with
  | some f =>
    if op = opNearest then (fp64.rnd ((f.dec v).sub (fp64.dec q))).abs else f.dec v
  | none =>
    if op = opNearest then fvFromInt ((keyInt ty v - sext 64 q).natAbs : Int) else fvFromInt (keyInt ty v)

/-- A key: its order value, its rank among equals, its element index and its bits. -/
structure Key where
  ord : FVal
  rank : Nat
  idx : Nat
  bits : Nat
  deriving DecidableEq, Repr

/-- One key comes before another: by OP; equal keys by the free rank, then by index. -/
def Key.before (op : Nat) (x y : Key) : Bool :=
  match x.ord.cmp y.ord with
  | some .lt => op != opMax
  | some .gt => op == opMax
  | _ => decide (x.rank < y.rank ∨ (x.rank = y.rank ∧ x.idx ≤ y.idx))

/-- Two sorted lists merged; `fuel` is their total length. -/
def mergeKeys (op : Nat) : Nat → List Key → List Key → List Key
  | 0, _, _ => []
  | _, [], l => l
  | _, l, [] => l
  | n + 1, x :: xs, y :: ys =>
    if x.before op y then x :: mergeKeys op n xs (y :: ys) else y :: mergeKeys op n (x :: xs) ys

/-- Neighbouring sorted lists merged in pairs. -/
def mergePairs (op : Nat) : List (List Key) → List (List Key)
  | a :: b :: r => mergeKeys op (a.length + b.length) a b :: mergePairs op r
  | l => l

/-- Rounds of merging until one list is left. -/
def mergeAll (op : Nat) : Nat → List (List Key) → List Key
  | 0, l => l.flatten
  | n + 1, l => match l with
    | [] => []
    | [x] => x
    | l => mergeAll op n (mergePairs op l)

/-- Keys in the unit's order. -/
def sortKeys (op : Nat) (l : List Key) : List Key := mergeAll op 32 (l.map fun k => [k])

/-- The keys of a list of bits that are not dropped, with their indices; equal keys are ranked by a free function of what R633 names. -/
def liveKeys (k op ty q width : Nat) (l : List Nat) (idx : List Nat) : List Key :=
  ((List.zip l idx).map fun (e : Nat × Nat) =>
    Key.mk (keyOrd op ty q e.1) (Config.tieRank l k op ty q width e.2) e.2 e.1).filter fun e => !e.ord.isNan

/-- Numbers of n bytes. -/
def keysOf (n : Nat) : Nat → List Byte → List Nat
  | 0, _ => []
  | k + 1, l => ofLe (l.take n) :: keysOf n k (l.drop n)

-- The descriptor (R634 to R636) ----------------------------------------------------------------------------------------

def seParams (d : List Byte) : Nat := dArg d 0x00 8
def seRows (d : List Byte) : Nat := dArg d 0x08 4
def seK (d : List Byte) : Nat := dArg d 0x0C 4
def seOp (d : List Byte) : Nat := dArg d 0x10 1
def seType (d : List Byte) : Nat := dArg d 0x11 1
def seDie (d : List Byte) : Nat := bits (dArg d 0x12 1) 0 2

/-- The select block. -/
structure SelBlk where
  keys : Nat
  stride : Nat
  len : Nat
  q : Nat
  outKeys : Nat
  outIdx : Nat
  outPay : Nat
  outInfo : Nat
  payBase : Nat
  payRow : Nat
  payStride : Nat
  pay : Nat
  reserved : Nat
  deriving DecidableEq, Repr

def selBlk (l : List Byte) : SelBlk :=
  { keys := fieldAt l 0x00 8, stride := fieldAt l 0x08 8, len := fieldAt l 0x10 4, q := fieldAt l 0x18 8,
    outKeys := fieldAt l 0x20 8, outIdx := fieldAt l 0x28 8, outPay := fieldAt l 0x30 8, outInfo := fieldAt l 0x38 8,
    payBase := fieldAt l 0x40 8, payRow := fieldAt l 0x48 8, payStride := fieldAt l 0x50 4, pay := fieldAt l 0x54 1,
    reserved := fieldAt l 0x14 4 + fieldAt l 0x55 43 }

/-- The faults of the ARGS, with the cause of the first. -/
def Block.selArgsBad (b : Block) (p : Nat) (d : List Byte) : Option Nat :=
  if seRows d = 0 ∨ 65536 < seRows d ∨ seK d = 0 ∨ 65536 < seK d ∨ seOp d = 0 ∨ 3 < seOp d ∨ 9 < seType d ∨
      bits (dArg d 0x12 1) 2 6 ≠ 0 ∨ dArg d 0x13 13 ≠ 0 ∨ seDie d = 3 ∨
      (seDie d ≠ 0 ∧ (b.partTiles p).all (fun t => !dieAllows (seDie d) t)) then some 0xC8
  else if seParams d % 64 ≠ 0 then some 0xC9
  else none

/-- The faults of the select block, with the cause of the first. -/
def selBlkBad (d : List Byte) (s : SelBlk) : Option Nat :=
  let z := keySize (seType d)
  let g := min s.pay 16
  if s.len = 0 ∨ 2 ^ 24 < s.len ∨ s.stride < s.len * z ∨ ¬ s.pay ∈ [0, 4, 8, 16, 32, 48, 64] ∨
      (s.pay = 0 ∧ (s.outPay ≠ 0 ∨ s.payBase ≠ 0)) ∨ s.reserved ≠ 0 ∨ s.len < dWidth d then some 0xC8
  else if s.keys % z ≠ 0 ∨ s.stride % z ≠ 0 ∨ s.outKeys % z ≠ 0 ∨ s.outIdx % 4 ≠ 0 ∨ s.outInfo % 8 ≠ 0 ∨
      (g ≠ 0 ∧ (s.payBase % g ≠ 0 ∨ s.outPay % g ≠ 0 ∨ s.payRow % g ≠ 0 ∨ s.payStride % g ≠ 0)) then some 0xC9
  else if seOp d ≠ opNearest then (if s.q ≠ 0 then some 0xCA else none)
  else if (keyFmt (seType d)).isSome then (if (fp64.dec s.q).isFinite then none else some 0xCA)
  else if 2 ^ 62 ≤ (sext 64 s.q).natAbs then some 0xCA
  else none

-- Running a SELECT (R638 to R649) --------------------------------------------------------------------------------------

/-- The tiles on which a SELECT of partition p may start now: FREE, on an allowed die that takes work, returned before the job. -/
def Block.selTiles (b : Block) (j : Job) : List Nat :=
  (b.partTiles j.part).filter fun t =>
    dieAllows (seDie j.desc) t && b.tileState t == tFree && b.dieReady (tileDie t) && decide ((b.tile t).since ≤ j.id)

/-- Statistics of one row on a unit. -/
def Block.boltStats (b : Block) (t keys nans passes : Nat) : Block :=
  if b.on .BOLT_CTRL_STAT_EN t then
    (((b.bump .BOLT_KEYS_COUNT t keys).bump .BOLT_NAN_COUNT t nans).bump .BOLT_PASSES_COUNT t passes)
  else b

/-- The payload of an element gathered through the Spout port, in parts of at most 16 bytes (R646). -/
def Block.gatherPay (b : Block) (die : Nat) (j : Job) (a n : Nat) : Except Failed (List Byte) × Block :=
  if n = 0 then (.ok [], b) else b.engRead die j.part (some j.id) a n

/-- The payloads of the chosen elements of a row. -/
def Block.gatherAll (b : Block) (die : Nat) (j : Job) (base stride n : Nat) : List Nat → Except Failed (List Byte) × Block
  | [] => (.ok [], b)
  | i :: r =>
    match b.gatherPay die j (base + i * stride) n with
    | (.error f, b) => (.error f, b)
    | (.ok l, b) =>
      match b.gatherAll die j base stride n r with
      | (.ok l', b) => (.ok (l ++ l'), b)
      | e => e

/-- Writes in order until one fails. -/
def Block.writeAll (b : Block) (die : Nat) (j : Job) : List (Nat × List Byte) → Option Failed × Block
  | [] => (none, b)
  | (a, l) :: r =>
    match b.engWrite die j.part a l with
    | (some f, b) => (some f, b)
    | (none, b) => b.writeAll die j r

/-- A range of this package's memory put back as it stood in `old`, with the errors it carried; `fuel` bounds the units. -/
def Block.putBack (b : Block) (p : Nat) (old : Block) : Nat → Nat → Nat → Block
  | 0, _, _ => b
  | fuel + 1, a, n =>
    if n = 0 then b
    else
      let m := inUnit a n
      let x := match b.destOf p a with
        | .tier l => (findRun (b.runs p) (l / unitBytes)).map fun r => r.phys l
        | .aperture l => some l
        | _ => none
      let b := match x with
        | some x => (old.faultySectors x m).foldl (fun (b : Block) s => b.setFault s (old.fault s)) (b.writeMem x (old.readMem x m))
        | none => b
      b.putBack p old fuel (a + m) (n - m)

/-- One row read, selected and written on unit `t`, or its failure (R640 to R646); the outputs of a row that fails are left as found
(R649). -/
def Block.selRow (b : Block) (j : Job) (s : SelBlk) (tiles : List Nat) (r : Nat) : Option Failed × Block :=
  let d := j.desc
  let z := keySize (seType d)
  let k := seK d
  let w := max 1 (dWidth d)
  let t0 := tiles.headD 0
  let die := tileDie t0
  match b.engRead die j.part (some j.id) (s.keys + r * s.stride) (s.len * z) with
  | (.error f, b) => (some f, b)
  | (.ok l, b) =>
    let vals := keysOf z s.len l
    let live := liveKeys k (seOp d) (seType d) s.q (dWidth d) vals (List.range s.len)
    let best := (sortKeys (seOp d) live).take k
    let found := best.length
    let nans := s.len - live.length
    match b.gatherAll die j (s.payBase + r * s.payRow) s.payStride s.pay (best.map (·.idx)) with
    | (.error f, b) => (some f, b)
    | (.ok pay, b) =>
      let keys := best.flatMap (fun e => leBytes z e.bits) ++ List.replicate ((k - found) * z) 0xFF
      let idx := best.flatMap (fun e => leBytes 4 e.idx) ++ List.replicate ((k - found) * 4) 0xFF
      let info := leBytes 4 found ++ leBytes 4 nans
      let outs := [(s.outKeys + r * k * z, keys), (s.outIdx + r * k * 4, idx)] ++
        (if s.pay = 0 then [] else [(s.outPay + r * k * s.pay, pay ++ zeros ((k - found) * s.pay))]) ++ [(s.outInfo + 8 * r, info)]
      let old := b
      match b.writeAll die j outs with
      | (some f, b) => (some f, outs.foldl (fun b o => b.putBack j.part old (o.2.length / unitBytes + 2) o.1 o.2.length) b)
      | (none, b) =>
        let passes := ceilDiv k 256
        let seg := ceilDiv s.len w
        let b := (List.range w).foldl (fun b i =>
          let n := min seg (s.len - i * seg)
          let dropped := ((vals.drop (i * seg)).take n).filter fun v => (keyOrd (seOp d) (seType d) s.q v).isNan
          b.boltStats (tiles.getD (i % tiles.length) t0) (n * passes) dropped.length passes) b
        (none, if b.on .BOLT_CTRL_STAT_EN t0 then b.bump .BOLT_ROWS_COUNT t0 else b)

/-- Rows in ascending order, until one fails or the DEADLINE has passed: rows written, and the status and cause (R647 to R649). -/
def Block.selRows (b : Block) (j : Job) (s : SelBlk) (tiles clock : List Nat) : Nat → Nat → Nat × Nat × Nat × Block
  | 0, r => (r, stDone, 0, b)
  | n + 1, r =>
    if b.deadlineAt j clock r then (r, stDeadline, 0, b)
    else match b.selRow j s tiles r with
      | (some f, b) => (r, f.status, f.cause, b)
      | (none, b) => b.selRows j s tiles clock n (r + 1)

/-- The SELECT that starts now: one with units to run on, or with bad ARGS. -/
def Block.selStart (b : Block) (id : Nat) : Option (Job × Block) × Block :=
  b.engineGo engBolter (isOp 0x40) (fun j => (b.selArgsBad j.part j.desc).isSome || !(b.selTiles j).isEmpty) anyJob id

/-- The tiles whose units a SELECT runs on. -/
def Block.selUsed (b : Block) (j : Job) : List Nat := (b.selTiles j).take (max 1 (dWidth j.desc))

/-- Their dies have work. -/
def Block.selWorks (b : Block) (j : Job) : Block := (nub ((b.selUsed j).map tileDie)).foldl (fun b k => b.dieWorks k) b

/-- SELECT (R634 to R649). -/
def Block.select (b : Block) (id : Nat) (clock : List Nat) : Block :=
  match b.selStart id with
  | (none, b) => b
  | (some (j, b), _) =>
    let d := j.desc
    match b.selArgsBad j.part d with
    | some c => b.violateJob j c
    | none =>
      let used := b.selUsed j
      let b := b.selWorks j
      match b.engRead (tileDie (used.headD 0)) j.part (some j.id) (seParams d) 128 with
      | (.error f, b) => b.conclude j f.status f.cause 0
      | (.ok l, b) =>
        let s := selBlk l
        match selBlkBad d s with
        | some c => b.violateJob j c
        | none =>
          let (rows, st, c, b) := b.selRows j s used clock (seRows d) 0
          b.conclude j st c rows

def execSelect (job : Nat) (clock : List Nat) (strikes : List Strike) (replies : List Reply) (s : State) :=
  s.act (·.runOp (jobAgent job) strikes replies (·.select job clock))

-- The instructions (R651) ----------------------------------------------------------------------------------------------

/-- Keys of a block held in a register: 1 KiB, with keys of 8 bits in blocks of 512 (R630). -/
def blockKeys (ty : Nat) : Nat := if keySize ty = 8 then 128 else if keySize ty = 4 then 256 else 512

/-- The index registers of a block: one, or two for a block of 512. -/
def Block.idxRegs (b : Block) (t r ty : Nat) : List Byte :=
  if blockKeys ty = 512 then b.vreg t r ++ b.vreg t ((r + 1) % 32) else b.vreg t r

def Block.setIdxRegs (b : Block) (t r ty : Nat) (l : List Byte) : Block :=
  let n := 4 * blockKeys ty
  if blockKeys ty = 512 then (b.setVreg t r (l.take 1024)).setVreg t ((r + 1) % 32) (l.drop 1024)
  else b.setVreg t r (patch (b.vreg t r) 0 (l.take n))

/-- The keys of a register pair that are not dropped. An index of all ones marks an empty slot. -/
def Block.pairKeys (b : Block) (t kr ir op ty q : Nat) : List Key :=
  let n := blockKeys ty
  let vals := keysOf (keySize ty) n (b.vreg t kr)
  let idx := keysOf 4 n (b.idxRegs t ir ty)
  (liveKeys n op ty q 1 vals idx).filter fun e => e.idx != 0xFFFFFFFF

/-- Keys written to a register pair, the slots beyond them holding all ones (as R645 fills a list). -/
def Block.setPair (b : Block) (t kr ir ty : Nat) (l : List Key) : Block :=
  let n := blockKeys ty
  let z := keySize ty
  let keys := (l.take n).flatMap (fun e => leBytes z e.bits)
  let idx := (l.take n).flatMap (fun e => leBytes 4 e.idx)
  let b := b.setVreg t kr (patch (b.vreg t kr) 0 (keys ++ List.replicate (n * z - keys.length) 0xFF))
  b.setIdxRegs t ir ty (idx ++ List.replicate (n * 4 - idx.length) 0xFF)

/-- An operand a Bolter instruction may have: KTYPE and OP of the tables, registers that exist, a task on the tile. -/
def Block.boltOk (b : Block) (t : Nat) (regs : List Nat) (op ty : Nat) : Bool :=
  (b.tile t).task.isSome && regs.all (fun r => decide (r < 32)) && decide (1 ≤ op ∧ op ≤ 3 ∧ ty ≤ 9)

/-- BSORT: a key register sorted together with its index register. -/
def Block.bsort (b : Block) (t kr ir op ty q : Nat) : Block :=
  if b.boltOk t [kr, ir] op ty then
    let l := b.pairKeys t kr ir op ty q
    (b.setPair t kr ir ty (sortKeys op l)).boltStats t (blockKeys ty) (blockKeys ty - l.length) 0
  else b

def execBsort (tile keys idx op ktype q : Nat) (s : State) := s.act (·.bsort tile keys idx op ktype q)

/-- BMERGE: two sorted pairs merged, the better half kept in the first. -/
def Block.bmerge (b : Block) (t kr ir kr2 ir2 op ty q : Nat) : Block :=
  if b.boltOk t [kr, ir, kr2, ir2] op ty then
    let x := b.pairKeys t kr ir op ty q
    let y := b.pairKeys t kr2 ir2 op ty q
    b.setPair t kr ir ty (mergeKeys op (x.length + y.length) x y)
  else b

def execBmerge (tile keysA idxA keysB idxB op ktype q : Nat) (s : State) := s.act (·.bmerge tile keysA idxA keysB idxB op ktype q)

/-- BDROP: the keys that R632 drops are removed from a register; the number removed goes back to the task. -/
def Block.bdrop (b : Block) (t kr ir op ty q : Nat) : Block :=
  if b.boltOk t [kr, ir] op ty then
    let l := b.pairKeys t kr ir op ty q
    let n := blockKeys ty - l.length
    ((b.setPair t kr ir ty l).boltStats t 0 n 0).send (.tileData t (leBytes 4 n))
  else b

def execBdrop (tile keys idx op ktype q : Nat) (s : State) := s.act (·.bdrop tile keys idx op ktype q)

end Sys2Proof.Machine
end

