-- ==== Sys2Proof/Machine/Collective.lean ====
section
/-! DEFINITION. The collective engine (spec/10, Collectives): groups and their trees, the COLLECTIVE descriptor, the chunk protocol up
to rank 0 and down again in fixed order, acknowledgements, aborts and time-outs. -/

namespace Sys2Proof.Machine

-- Groups (R504 to R507) ------------------------------------------------------------------------------------------------

/-- Member packages of a group, in ascending order: rank k is the k-th. -/
def Block.members (b : Block) (g : Nat) : List Nat := bitList (b.get .GRP_MEMBERS_BITMAP g) 1024

/-- The rank of a package in a group. -/
def Block.rankOf (b : Block) (g p : Nat) : Option Nat := (b.members g).idxOf? p

/-- This package's rank. -/
def Block.myRank (b : Block) (g : Nat) : Nat := (b.rankOf g b.pkg).getD 0

/-- Fanout as configured. -/
def Block.fanout (b : Block) (g : Nat) : Nat := b.get .GRP_CFG_FANOUT g

/-- Parent and children of a rank (R505). -/
def treeParent (k r : Nat) : Nat := (r - 1) / k
def treeChildren (k m r : Nat) : List Nat := ((List.range k).map fun i => k * r + 1 + i).filter (· < m)

/-- The group digest (R507): CRC-32 over the member bitmap, the fanout and the partition. -/
def Block.digest (b : Block) (g : Nat) : Nat :=
  crc32 (leBytes 128 (b.get .GRP_MEMBERS_BITMAP g) ++ [byteOf (b.fanout g), byteOf (b.get .GRP_CFG_PART g)])

-- The descriptor (R508, R509) ------------------------------------------------------------------------------------------

def coSrc (d : List Byte) : Nat := dArg d 0x00 8
def coDst (d : List Byte) : Nat := dArg d 0x08 8
def coCount (d : List Byte) : Nat := dArg d 0x10 4
def coGroup (d : List Byte) : Nat := dArg d 0x14 2
def coKind (d : List Byte) : Nat := dArg d 0x16 1
def coType (d : List Byte) : Nat := dArg d 0x17 1
def coRed (d : List Byte) : Nat := dArg d 0x18 1
def coRoot (d : List Byte) : Nat := dArg d 0x1A 2
def coSeq (d : List Byte) : Nat := dArg d 0x1C 4

def ckAllReduce : Nat := 1
def ckReduceScatter : Nat := 2
def ckAllGather : Nat := 3
def ckBroadcast : Nat := 4
def ckBarrier : Nat := 5

/-- A kind that reduces. -/
def coReduces (kind : Nat) : Bool := kind == ckAllReduce || kind == ckReduceScatter

/-- BAD_COLL (R509) in a group of m members. -/
def collBad (d : List Byte) (m : Nat) : Bool :=
  let k := coKind d
  k == 0 || decide (5 < k) || decide (8 < coType d) || decide (63 < coGroup d) || decide (2 < coRed d) ||
    (!coReduces k && coRed d != 0) || dArg d 0x19 1 != 0 || dWidth d != 0 || (k != ckBarrier && coCount d == 0) ||
    ((k == ckReduceScatter || k == ckAllGather) && (m == 0 || coCount d % m != 0)) ||
    (k == ckBroadcast && decide (m ≤ coRoot d)) || (k != ckBroadcast && coRoot d != 0)

-- Elements and accumulators (R513 to R515) -----------------------------------------------------------------------------

/-- Bytes of an element, by DTYPE. -/
def elemSize (ty : Nat) : Nat := [8, 4, 2, 2, 1, 1, 4, 2, 1].getD ty 1

/-- The float format of a DTYPE; none for an integer. -/
def elemFmt (ty : Nat) : Option Fmt :=
  match ty with
  | 0 => some fp64 | 1 => some fp32 | 2 => some bf16 | 3 => some fp16 | 4 => some e4m3 | 5 => some e5m2 | _ => none

/-- Bytes of an accumulator: FP64 for FP64, otherwise FP32 or INT32. -/
def accSize (ty : Nat) : Nat := if ty = 0 then 8 else 4
def accFmt (ty : Nat) : Fmt := if ty = 0 then fp64 else fp32

/-- An element in accumulator format. -/
def toAcc (ty v : Nat) : Nat :=
  match elemFmt ty with
  | some f => (accFmt ty).enc (f.dec v)
  | none => toW 32 (sext (8 * elemSize ty) v)

/-- One combination acc ⊕ child (R512, R515). -/
def combine (ty red a c : Nat) : Nat :=
  match elemFmt ty with
  | some _ =>
    let f := accFmt ty
    if red = 0 then f.add a c else if red = 1 then f.min a c else f.max a c
  | none =>
    let x := sext 32 a
    let y := sext 32 c
    if red = 0 then toW 32 (x + y) else toW 32 (if red = 1 then Min.min x y else Max.max x y)

/-- The final accumulator as an element (R514): nearest even; INT16 and INT8 saturate, INT32 wraps. -/
def fromAcc (ty v : Nat) : Nat :=
  match elemFmt ty with
  | some f => f.enc ((accFmt ty).dec v)
  | none =>
    let w := 8 * elemSize ty
    if w = 32 then v
    else toW w (Max.max (-(2 ^ (w - 1))) (Min.min (2 ^ (w - 1) - 1) (sext 32 v)))

/-- Numbers of n bytes each. -/
def unpackN (n : Nat) : Nat → List Byte → List Nat
  | 0, _ => []
  | k + 1, l => ofLe (l.take n) :: unpackN n k (l.drop n)

def unpack (n : Nat) (l : List Byte) : List Nat := unpackN n (l.length / n) l
def pack (n : Nat) (l : List Nat) : List Byte := l.flatMap (leBytes n)

-- Chunks (R517) --------------------------------------------------------------------------------------------------------

/-- Bytes of the whole vector, and of chunk c, in element format; a barrier has one chunk of one zero byte. -/
def collBytes (d : List Byte) : Nat := if coKind d = ckBarrier then 1 else coCount d * elemSize (coType d)
def collChunks (d : List Byte) : Nat := ceilDiv (collBytes d) 4096
def chunkLen (d : List Byte) (c : Nat) : Nat := min 4096 (collBytes d - 4096 * c)

/-- The part of chunk c that lies in a byte range of the vector: start within the chunk, and length. -/
def chunkPart (d : List Byte) (c lo n : Nat) : Nat × Nat :=
  let a := max lo (4096 * c)
  let z := min (lo + n) (4096 * c + chunkLen d c)
  (a - 4096 * c, z - a)

/-- This member's contribution to chunk c: its own elements in accumulator format where the kind reduces; otherwise the bytes it
holds of the vector, zero elsewhere. -/
def Block.contribution (b : Block) (j : Job) (c : Nat) : Except Failed (List Byte) × Block :=
  let d := j.desc
  let kind := coKind d
  let n := chunkLen d c
  let rank := b.myRank (coGroup d)
  let m := (b.members (coGroup d)).length
  if kind = ckBarrier then (.ok [0], b)
  else if coReduces kind then
    match b.engRead 2 j.part (some j.id) (coSrc d + 4096 * c) n with
    | (.ok l, b) => (.ok (pack (accSize (coType d)) ((unpack (elemSize (coType d)) l).map (toAcc (coType d)))), b)
    | e => e
  else
    let own := if kind = ckBroadcast then (if rank = coRoot d then (0, collBytes d) else (0, 0))
      else (rank * (collBytes d / m), collBytes d / m)
    let (o, k) := chunkPart d c own.1 own.2
    if k = 0 ∨ own.2 = 0 then (.ok (zeros n), b)
    else match b.engRead 2 j.part (some j.id) (coSrc d + (4096 * c + o - own.1)) k with
      | (.ok l, b) => (.ok (zeros o ++ l ++ zeros (n - o - k)), b)
      | e => e

/-- A child's chunk combined into the accumulator: by REDOP, or laid over where the kind does not reduce. -/
def collMerge (d : List Byte) (acc child : List Byte) : List Byte :=
  if coReduces (coKind d) then
    let n := accSize (coType d)
    pack n (List.zipWith (combine (coType d) (coRed d)) (unpack n acc) (unpack n child))
  else List.zipWith (fun x y => x ||| y) acc child

/-- Rank 0's conversion of a finished chunk to element format. -/
def collFinal (d : List Byte) (acc : List Byte) : List Byte :=
  if coReduces (coKind d) then pack (elemSize (coType d)) ((unpack (accSize (coType d)) acc).map (fromAcc (coType d))) else acc

/-- A chunk of the result stored at this member: all of it, or the part of its slice. -/
def Block.storeChunk (b : Block) (j : Job) (c : Nat) (l : List Byte) : Option Failed × Block :=
  let d := j.desc
  if coKind d = ckBarrier then (none, b)
  else if coKind d = ckReduceScatter then
    let m := (b.members (coGroup d)).length
    let n := collBytes d / m
    let lo := b.myRank (coGroup d) * n
    let (o, k) := chunkPart d c lo n
    if k = 0 then (none, b) else b.engWrite 2 j.part (coDst d + (4096 * c + o - lo)) (slice l o k)
  else b.engWrite 2 j.part (coDst d + 4096 * c) l

-- Messages -------------------------------------------------------------------------------------------------------------

/-- The header words a COLL message shares (R477): GROUP and SEQ in ADDR; CHUNK, KIND, DTYPE and REDOP in AUX; COUNT in RTAG. -/
def collMsg (b : Block) (ty : Nat) (d : List Byte) (dst c : Nat) (data : List Byte) (len : Nat) : FMsg :=
  { mtype := ty,
    m := { Msg.empty with dest := (b.members (coGroup d)).getD dst 0, src := b.pkg, part := b.get .GRP_CFG_PART (coGroup d),
                          rtag := coCount d, addr := coGroup d + coSeq d * 2 ^ 16,
                          aux := c + coKind d * 2 ^ 32 + coType d * 2 ^ 40 + coRed d * 2 ^ 48, len := len, data := data } }

/-- A collective message sent on VC2; it is lost where it has no way. -/
def Block.sendColl (b : Block) (f : FMsg) : Block := (b.sendVc 2 f).getD b

def msgGroup (m : Msg) : Nat := bits m.addr 0 16
def msgSeq (m : Msg) : Nat := bits m.addr 16 32
def msgChunk (m : Msg) : Nat := bits m.aux 0 32

-- Running operations ---------------------------------------------------------------------------------------------------

def Block.coll (b : Block) (g : Nat) : Option CollOp := b.fab.colls.find? fun o => o.group = g
def Block.setColl (b : Block) (o : CollOp) : Block :=
  let l := b.fab.colls.map fun x => if x.group = o.group then o else x
  { b with fab := { b.fab with colls := l } }

/-- The members of a tree edge that take part in an upward pass of this operation: every child, or the one on the way from ROOT for
a BROADCAST. `up` is false for a member that sends nothing up. -/
def Block.upChildren (b : Block) (d : List Byte) : List Nat :=
  let g := coGroup d
  let k := b.fanout g
  let r := b.myRank g
  let cs := treeChildren k (b.members g).length r
  if coKind d = ckBroadcast then cs.filter fun c => onWay k 1024 (coRoot d) c else cs
where
  /-- Rank c lies on the way from rank r up to rank 0. -/
  onWay (k : Nat) : Nat → Nat → Nat → Bool
    | 0, _, _ => false
    | n + 1, r, c => r == c || (r != 0 && onWay k n (treeParent k r) c)

def Block.sendsUp (b : Block) (d : List Byte) : Bool :=
  let g := coGroup d
  coKind d != ckBroadcast || Block.upChildren.onWay (b.fanout g) 1024 (coRoot d) (b.myRank g)

/-- The operation of a group ends here: the next SEQ is expected, chunks kept for it are dropped. -/
def Block.closeColl (b : Block) (g seq : Nat) : Block :=
  let colls := b.fab.colls.filter fun o => o.group ≠ g
  let inn := b.fab.collIn.filter fun c => !(decide (c.group = g ∧ c.seq = seq))
  let down := b.fab.collDown.filter fun m => !(decide (msgGroup m = g ∧ msgSeq m = seq))
  { b with fab := { b.fab with colls := colls, collIn := inn, collDown := down, nextSeq := Tab.put b.fab.nextSeq g ((seq + 1) % 2 ^ 32) } }

/-- COLL_ABORT to the parent and the children, but one rank. -/
def Block.sendAborts (b : Block) (g seq cause : Nat) (but : Option Nat) : Block :=
  let k := b.fanout g
  let r := b.myRank g
  let near := (if r = 0 then [] else [treeParent k r]) ++ treeChildren k (b.members g).length r
  (near.filter fun x => some x ≠ but).foldl (fun b x =>
    b.sendColl { mtype := 0x23, m := { Msg.empty with dest := (b.members g).getD x 0, src := b.pkg, part := b.get .GRP_CFG_PART g,
                                                      addr := g + seq * 2 ^ 16, aux := cause } }) b

/-- An operation ends with a status and tells its neighbours (R520, R521). -/
def Block.failColl (b : Block) (o : CollOp) (status cause : Nat) (but : Option Nat) : Block :=
  let b := (b.sendAborts o.group o.seq cause but).closeColl o.group o.seq
  match b.job o.job with
  | some j => b.endJob j status cause 0
  | none => b

/-- Room to send another chunk to a member: fewer than two unacknowledged (R518). -/
def collRoom (o : CollOp) (rank : Nat) : Bool := decide ((Tab.get o.unacked rank []).length < 2)

def noteSent (o : CollOp) (rank c : Nat) : CollOp :=
  { o with unacked := Tab.put o.unacked rank (Tab.get o.unacked rank [] ++ [c]) }

/-- Chunks waiting to go down, sent as far as their receivers have room. -/
def Block.sendDown (b : Block) (j : Job) (o : CollOp) : Block × CollOp :=
  let step (acc : Block × CollOp × List (Nat × List Nat × List Byte)) (e : Nat × List Nat × List Byte) :
      Block × CollOp × List (Nat × List Nat × List Byte) :=
    let (b, o, left) := acc
    let ready := e.2.1.filter (collRoom o)
    let b := ready.foldl (fun b r => b.sendColl (collMsg b 0x22 j.desc r e.1 e.2.2 e.2.2.length)) b
    let o := ready.foldl (fun o r => noteSent o r e.1) o
    let rest := e.2.1.filter fun r => r ∉ ready
    (b, o, if rest = [] then left else left ++ [(e.1, rest, e.2.2)])
  let (b, o', left) := o.toSend.foldl step (b, o, [])
  (b, { o' with toSend := left })

/-- A finished chunk stored here and queued for the children. -/
def Block.landChunk (b : Block) (j : Job) (o : CollOp) (c : Nat) (l : List Byte) : Except Failed CollOp × Block :=
  match b.storeChunk j c l with
  | (some f, b) => (.error f, b)
  | (none, b) =>
    let g := o.group
    let kids := treeChildren (b.fanout g) (b.members g).length (b.myRank g)
    (.ok { o with got := o.got + 1, toSend := if kids = [] then o.toSend else o.toSend ++ [(c, kids, l)] }, b)

/-- The child message for the running chunk, if it has come. -/
def Block.childChunk (b : Block) (o : CollOp) (rank : Nat) : Option CollIn :=
  b.fab.collIn.find? fun c => decide (c.group = o.group ∧ c.seq = o.seq ∧ c.rank = rank ∧ msgChunk c.msg.m = o.chunk)

/-- A COLL_UP agrees with this member's operation and group (R507, R520). -/
def Block.collAgrees (b : Block) (d : List Byte) (f : FMsg) : Bool :=
  bits f.m.aux 32 8 == coKind d && bits f.m.aux 40 8 == coType d && bits f.m.aux 48 8 == coRed d && f.m.rtag == coCount d &&
    fieldAt f.m.data f.m.len 4 == b.digest (coGroup d)

/-- One move of an operation's upward pass: a contribution read, a child combined, a finished chunk sent up or turned round at rank 0.
`none` when it must wait. -/
def Block.collMove (b : Block) (j : Job) (o : CollOp) : Option (Except (Nat × Nat) CollOp) × Block :=
  let d := j.desc
  let g := o.group
  if collChunks d ≤ o.chunk then (none, b)
  else if o.acc = [] then
    if b.held then (none, b)
    else match b.contribution j o.chunk with
      | (.ok l, b) => (some (.ok { o with acc := l, child := 0 }), b)
      | (.error f, b) => (some (.error (f.status, f.cause)), b)
  else
    let kids := b.upChildren d
    match kids[o.child]? with
    | some r =>
      match b.childChunk o r with
      | none => (none, b)
      | some c =>
        if !b.collAgrees d c.msg then (some (.error (stFabric, 0x92)), b)
        else
          let inn := b.fab.collIn.filter (· ≠ c)
          let b := { b with fab := { b.fab with collIn := inn } }
          let b := b.sendColl (collMsg b 0x24 d r o.chunk [] 0)
          (some (.ok { o with acc := collMerge d o.acc (c.msg.m.data.take c.msg.m.len), child := o.child + 1 }), b)
    | none =>
      if b.myRank g = 0 then
        match b.landChunk j o o.chunk (collFinal d o.acc) with
        | (.ok o, b) => (some (.ok { o with chunk := o.chunk + 1, acc := [], child := 0 }), b)
        | (.error f, b) => (some (.error (f.status, f.cause)), b)
      else if !b.sendsUp d then (some (.ok { o with chunk := o.chunk + 1, acc := [], child := 0 }), b)
      else
        let p := treeParent (b.fanout g) (b.myRank g)
        if collRoom o p then
          let b := b.sendColl (collMsg b 0x21 d p o.chunk (o.acc ++ leBytes 4 (b.digest g)) o.acc.length)
          (some (.ok { noteSent o p o.chunk with chunk := o.chunk + 1, acc := [], child := 0 }), b)
        else (none, b)

/-- A COLL_DOWN chunk that has come for an operation (R514): stored, acknowledged and queued for the children; `none` when none has
come. -/
def Block.collLand (b : Block) (j : Job) (o : CollOp) : Option (Except (Nat × Nat) CollOp) × Block :=
  match b.fab.collDown.find? fun m => decide (msgGroup m = o.group ∧ msgSeq m = o.seq) with
  | none => (none, b)
  | some m =>
    match b.landChunk j o (msgChunk m) (m.data.take m.len) with
    | (.error f, b) => (some (.error (f.status, f.cause)), b)
    | (.ok o, b) =>
      let b := { b with fab := { b.fab with collDown := b.fab.collDown.erase m } }
      (some (.ok o), b.sendColl (collMsg b 0x24 j.desc (treeParent (b.fanout o.group) (b.myRank o.group)) (msgChunk m) [] 0))

/-- An operation advanced as far as it can go: chunks that came down first, then its upward pass. It completes when every chunk has been
reduced, stored, forwarded and acknowledged; while its memory cannot serve it, it waits (R102, R421). -/
def Block.collRun (b : Block) (g : Nat) : Nat → Block
  | 0 => b
  | n + 1 =>
    match b.coll g with
    | none => b
    | some o =>
      match b.job o.job with
      | none => b.closeColl g o.seq
      | some j =>
        let (b, o) := b.sendDown j o
        let b := b.setColl o
        let move (b : Block) : Option (Except (Nat × Nat) CollOp) × Block :=
          match b.collLand j o with
          | (none, b) => b.collMove j o
          | x => x
        match b.attempt (jobAgent j.id) move with
        | (none, b) => b
        | (some (some (.ok o')), b) => (b.setColl { o' with since := b.gmc }).collRun g n
        | (some (some (.error (st, c))), b) => b.failColl o st c none
        | (some none, b) =>
          if collChunks j.desc ≤ o.chunk ∧ collChunks j.desc ≤ o.got ∧ o.toSend = [] ∧ o.unacked.all (fun e => e.2 = []) then
            (b.closeColl g o.seq).conclude j stDone 0 0
          else b

/-- More moves than the longest vector has: 2^32 elements of eight bytes in chunks, with every child of each. -/
def collFuel : Nat := 2 ^ 27

def Block.collStep (b : Block) (g : Nat) : Block := b.collRun g collFuel

/-- Every running collective tried again. -/
def Block.collAll (b : Block) : Block := (b.fab.colls.map (·.group)).foldl (fun b g => b.collStep g) b

/-- The COLLECTIVE of a KIND that the hub engines start next, in a group without a running operation; a KIND that no row has counts with
ALL_REDUCE. -/
def Block.collStart (b : Block) (kind id : Nat) : Option (Job × Block) :=
  b.engineStart engCollective (fun j => isOp 0x60 j && (b.coll (coGroup j.desc)).isNone) anyJob
    (fun j => coKind j.desc == kind || (kind == 1 && (coKind j.desc == 0 || decide (5 < coKind j.desc)))) id

/-- A COLLECTIVE starts (R509 to R511, R523). -/
def Block.collective (b : Block) (kind id : Nat) : Block :=
  match b.collStart kind id with
  | none => b
  | some (j, b) =>
    let d := j.desc
    let g := coGroup d
    let m := (b.members g).length
    if collBad d m then b.violateJob j 0x9A
    else if !b.on .GRP_CFG_EN g || b.get .GRP_CFG_PART g != j.part then b.violateJob j 0x9B
    else
      match b.fab.aborts.find? fun a => a.1 = g ∧ a.2.1 = coSeq d with
      | some a =>
        let rest := b.fab.aborts.filter (· ≠ a)
        ({ b with fab := { b.fab with aborts := rest, nextSeq := Tab.put b.fab.nextSeq g ((coSeq d + 1) % 2 ^ 32) } }).endJob j
          stFabric a.2.2 0
      | none =>
        let k := b.fanout g
        let r := b.myRank g
        let near := (if r = 0 then [] else [treeParent k r]) ++ treeChildren k m r
        if near.any fun x => (b.injectAt ((b.members g).getD x 0)).isNone then b.conclude j stFenced 0x98 0
        else
          let o : CollOp := { group := g, job := j.id, seq := coSeq d, chunk := 0, down := 0, got := 0, acc := [], child := 0,
                              unacked := [], toSend := [], since := b.gmc }
          ({ b with fab := { b.fab with colls := b.fab.colls ++ [o] } }).collStep g

def execAllReduce (job : Nat) (s : State) := s.act (·.collective ckAllReduce job)
def execReduceScatter (job : Nat) (s : State) := s.act (·.collective ckReduceScatter job)
def execAllGather (job : Nat) (s : State) := s.act (·.collective ckAllGather job)
def execBroadcast (job : Nat) (s : State) := s.act (·.collective ckBroadcast job)
def execBarrier (job : Nat) (s : State) := s.act (·.collective ckBarrier job)

-- Received messages ----------------------------------------------------------------------------------------------------

/-- COLL_UP (R512, R518, R519): the chunk waits in its group's buffer and the operation goes on. -/
def Block.collUp (b : Block) (m : Msg) : Block :=
  let g := msgGroup m
  match b.rankOf g m.src with
  | none => b
  | some r =>
    let c : CollIn := { group := g, seq := msgSeq m, rank := r, msg := { mtype := 0x21, m := m } }
    ({ b with fab := { b.fab with collIn := b.fab.collIn ++ [c] } }).collStep g

/-- COLL_DOWN (R514): the chunk of a running operation is stored, acknowledged and passed to the children. -/
def Block.collDown (b : Block) (m : Msg) : Block :=
  match b.coll (msgGroup m) with
  | none => b
  | some o =>
    if o.seq ≠ msgSeq m then b
    else ({ b with fab := { b.fab with collDown := b.fab.collDown ++ [m] } }).collStep (msgGroup m)

/-- COLL_ACK (R518): room for a further chunk; false when it matches no outstanding chunk. -/
def Block.collAck (b : Block) (m : Msg) : Bool × Block :=
  let g := msgGroup m
  match b.coll g, b.rankOf g m.src with
  | some o, some r =>
    if o.seq = msgSeq m ∧ msgChunk m ∈ Tab.get o.unacked r [] then
      let l := (Tab.get o.unacked r []).erase (msgChunk m)
      (true, (b.setColl { o with unacked := Tab.put o.unacked r l, since := b.gmc }).collStep g)
    else (false, b)
  | _, _ => (false, b)

/-- COLL_ABORT (R520 to R523): the operation ends with the abort's cause; one not yet submitted ends so at submission. -/
def Block.collAbort (b : Block) (m : Msg) : Block :=
  let g := msgGroup m
  let seq := msgSeq m
  let cause := bits m.aux 0 8
  let sender := b.rankOf g m.src
  match b.coll g with
  | some o => if o.seq = seq then b.failColl o stFabric cause sender else note b g seq cause sender
  | none => note b g seq cause sender
where
  /-- An abort kept for a SEQ still to be submitted, and passed on. -/
  note (b : Block) (g seq cause : Nat) (sender : Option Nat) : Block :=
    let next := Tab.get b.fab.nextSeq g 0
    let ahead := decide ((seq + 2 ^ 32 - next) % 2 ^ 32 < 2 ^ 31)
    if ahead && !(b.fab.aborts.any fun a => decide (a.1 = g ∧ a.2.1 = seq)) then
      ({ b with fab := { b.fab with aborts := b.fab.aborts ++ [(g, seq, cause)] } }).sendAborts g seq cause sender
    else b

/-- An operation waits for another member: an acknowledgement, the next child's chunk, or a chunk from above (R521). -/
def Block.collWaits (b : Block) (j : Job) (o : CollOp) : Bool :=
  o.unacked.any (fun e => e.2 != []) || (o.acc != [] && (match (b.upChildren j.desc)[o.child]? with
    | some r => (b.childChunk o r).isNone
    | none => false)) ||
    decide (collChunks j.desc ≤ o.chunk ∧ o.got < collChunks j.desc)

/-- COLL_TIMEOUT (R521): an operation that has waited for another member for more than COLL_TIMEOUT ticks, no hold being in force. -/
def Block.collTimeout (b : Block) (g : Nat) : Block :=
  match b.coll g with
  | some o =>
    match b.job o.job with
    | some j =>
      if b.get .FAB_CTRL_COLL_TIMEOUT < b.ticksFrom o.since ∧ b.held = false ∧ b.collWaits j o = true then b.failColl o stFabric 0x93 none
      else b
    | none => b
  | none => b

/-- A hold, local or of the fabric, is about to come into force: the count is kept where none was. -/
def Block.holdBegins (b : Block) : Block := if b.held then b else { b with fab := { b.fab with holdFrom := b.gmc } }

/-- No hold is in force any more: the time under it does not count as waiting (R521), and collectives go on (R526). -/
def Block.holdEnds (b : Block) : Block :=
  if b.held then b
  else
    let colls := b.fab.colls.map fun o => { o with since := o.since + (b.gmc - max o.since b.fab.holdFrom) }
    ({ b with fab := { b.fab with colls := colls } }).collAll

def execCollTimeout (group : Nat) (s : State) := s.act (·.collTimeout group)

end Sys2Proof.Machine
end

