-- ==== Sys2Proof/Machine/Reals.lean ====
section
/-! DEFINITION. Exact rational arithmetic for the rules that state real-number formulas (spec/16): values of encodings, rounding to a
format once, square roots and the sine and cosine to far more bits than any format holds. -/

namespace Sys2Proof.Machine

/-- A finite value as a rational; zero for NaN and infinities. -/
def FVal.rat : FVal → Rat
  | .fin s m e => if 0 ≤ e then (((fvInt s m) * 2 ^ e.toNat : Int) : Rat) else mkRat (fvInt s m) (2 ^ (-e).toNat)
  | _ => 0

/-- The value of an FP32 encoding. -/
def f32Rat (v : Nat) : Rat := (fp32.dec v).rat

/-- A rational as a value, exact for rounding to any format of at most 64 bits. -/
def ratVal (r : Rat) : FVal := FVal.divTo 160 (fvFromInt r.num) (fvNat r.den)

/-- A rational rounded once to a format. -/
def Fmt.ofRat (f : Fmt) (r : Rat) (mode : RMode := .rne) : Nat := f.enc (ratVal r) mode

/-- Bits kept beyond the point where a square root, a sine or a cosine is not rational. -/
def realBits : Nat := 256

/-- A square root, rounded up at 2^-256. -/
def ratSqrt (r : Rat) : Rat :=
  if r ≤ 0 then 0
  else
    let v := r.num.toNat * r.den * 4 ^ realBits
    let s := isqrt v
    mkRat (if s * s = v then (s : Int) else (s : Int) + 1) (r.den * 2 ^ realBits)

/-- Sine and cosine of a small fixed-point number of p fraction bits by their series: the running term, its index, the sums. -/
def seriesN (p : Nat) (x : Int) : Nat → Nat → Int → Int × Int → Int × Int
  | 0, _, _, acc => acc
  | fuel + 1, k, term, (s, c) =>
    let neg := k / 2 % 2 == 1
    let t := if neg then -term else term
    let acc := if k % 2 = 0 then (s, c + t) else (s + t, c)
    seriesN p x fuel (k + 1) (term * x / 2 ^ p / ((k : Int) + 1)) acc

/-- Angle doubled n times. -/
def doubleN (p : Nat) : Nat → Int × Int → Int × Int
  | 0, sc => sc
  | n + 1, (s, c) => doubleN p n (2 * s * c / 2 ^ p, (2 : Int) ^ p - 2 * s * s / 2 ^ p)

/-- The sine and cosine of an angle, correct to well beyond 2^-128. -/
def ratSinCos (x : Rat) : Rat × Rat :=
  let n := (x.num.natAbs / x.den).log2 + 9
  let p := realBits + 4 * n
  let fx : Int := (x * ((2 ^ p : Nat) : Rat)).floor / 2 ^ n
  let (s, c) := doubleN p n (seriesN p fx 48 0 (2 ^ p) (0, 0))
  (mkRat s (2 ^ p), mkRat c (2 ^ p))

-- Points and frames ----------------------------------------------------------------------------------------------------

/-- A point or vector. -/
structure V3 where
  x : Rat
  y : Rat
  z : Rat
  deriving DecidableEq, Repr

def V3.add (a b : V3) : V3 := ⟨a.x + b.x, a.y + b.y, a.z + b.z⟩
def V3.sub (a b : V3) : V3 := ⟨a.x - b.x, a.y - b.y, a.z - b.z⟩
def V3.scale (k : Rat) (a : V3) : V3 := ⟨k * a.x, k * a.y, k * a.z⟩
def V3.dot (a b : V3) : Rat := a.x * b.x + a.y * b.y + a.z * b.z
def V3.cross (a b : V3) : V3 := ⟨a.y * b.z - a.z * b.y, a.z * b.x - a.x * b.z, a.x * b.y - a.y * b.x⟩
def V3.norm (a : V3) : Rat := ratSqrt (a.dot a)

/-- A frame: its origin and the images of the three axes. -/
structure Pose where
  o : V3
  ex : V3
  ey : V3
  ez : V3
  deriving DecidableEq, Repr

def Pose.dir (p : Pose) (v : V3) : V3 := (V3.scale v.x p.ex).add ((V3.scale v.y p.ey).add (V3.scale v.z p.ez))
def Pose.at (p : Pose) (v : V3) : V3 := p.o.add (p.dir v)

/-- The rotation of a unit quaternion (w, x, y, z), as the images of the axes. -/
def quatAxes (w x y z : Rat) : V3 × V3 × V3 :=
  (⟨1 - 2 * (y * y + z * z), 2 * (x * y + w * z), 2 * (x * z - w * y)⟩,
   ⟨2 * (x * y - w * z), 1 - 2 * (x * x + z * z), 2 * (y * z + w * x)⟩,
   ⟨2 * (x * z + w * y), 2 * (y * z - w * x), 1 - 2 * (x * x + y * y)⟩)

/-- A frame given in another by a position and a quaternion. -/
def Pose.place (p : Pose) (pos : V3) (q : Rat × Rat × Rat × Rat) : Pose :=
  let (a, b, c) := quatAxes q.1 q.2.1 q.2.2.1 q.2.2.2
  { o := p.at pos, ex := p.dir a, ey := p.dir b, ez := p.dir c }

/-- A frame turned about its z axis. -/
def Pose.turn (p : Pose) (angle : Rat) : Pose :=
  let (s, c) := ratSinCos angle
  { p with ex := p.dir ⟨c, s, 0⟩, ey := p.dir ⟨-s, c, 0⟩ }

/-- A frame moved along its z axis. -/
def Pose.slide (p : Pose) (d : Rat) : Pose := { p with o := p.at ⟨0, 0, d⟩ }

def Pose.world : Pose := ⟨⟨0, 0, 0⟩, ⟨1, 0, 0⟩, ⟨0, 1, 0⟩, ⟨0, 0, 1⟩⟩

end Sys2Proof.Machine
end

