-- ==== Sys2Proof/Machine/World.lean ====
section
/-! DEFINITION. The world model (spec/15): voxel geometry and the signed distance, the layout of an epoch, WORLD_UPDATE with BUILD,
SLICES, SWAP and REFRESH, change tracking, and the world-node caches. -/

namespace Sys2Proof.Machine

-- Geometry (R690 to R697) ----------------------------------------------------------------------------------------------

/-- A brick's number: BX + 2^12 BY + 2^24 BZ, so that numbers ascend as (BZ, BY, BX). -/
def brickKey (x y z : Nat) : Nat := x + y * 2 ^ 12 + z * 2 ^ 24
def keyX (k : Nat) : Nat := k % 2 ^ 12
def keyY (k : Nat) : Nat := k / 2 ^ 12 % 2 ^ 12
def keyZ (k : Nat) : Nat := k / 2 ^ 24

/-- The present occupancy of an epoch: voxels along an axis, OUTSIDE_OCCUPIED, and the 512 bits of each brick that has a voxel
occupied (R692). -/
structure Occ where
  n : Nat
  out : Bool
  bricks : Tab Nat
  deriving DecidableEq, Repr

/-- A voxel is occupied (R696). -/
def Occ.at (o : Occ) (x y z : Int) : Bool :=
  let inside (v : Int) : Bool := decide (0 ≤ v ∧ v < (o.n : Int))
  if inside x && inside y && inside z then
    let i := x.toNat
    let j := y.toNat
    let k := z.toNat
    (Tab.get o.bricks (brickKey (i / 8) (j / 8) (k / 8)) 0).testBit (i % 8 + 8 * (j % 8) + 64 * (k % 8))
  else o.out

/-- The coordinates of the occupied voxels within the cube. -/
def Occ.voxels (o : Occ) : List (Nat × Nat × Nat) :=
  o.bricks.flatMap fun e => (bitList e.2 512).map fun i =>
    (8 * keyX e.1 + i % 8, 8 * keyY e.1 + i / 8 % 8, 8 * keyZ e.1 + i / 64)

/-- One axis's part of S for a difference k: (2|k| - 1)², zero for none. -/
def axisS (k : Nat) : Nat := if k = 0 then 0 else (2 * k - 1) * (2 * k - 1)

/-- The gap between an interval lo..hi of voxels and a voxel u, in voxels. -/
def gapTo (lo hi u : Int) : Nat := if u < lo then (lo - u).toNat else if hi < u then (u - hi).toNat else 0

/-- A box of voxels, its corners included. -/
structure VBox where
  lo : Int × Int × Int
  hi : Int × Int × Int
  deriving DecidableEq, Repr

def VBox.voxel (x y z : Int) : VBox := ⟨(x, y, z), (x, y, z)⟩

/-- The least S from a box inside the cube to a voxel outside it. -/
def outsideS (n : Nat) (v : VBox) : Nat :=
  let d (lo hi : Int) : Nat := min (lo + 1).toNat ((n : Int) - hi).toNat
  let k := min (d v.lo.1 v.hi.1) (min (d v.lo.2.1 v.hi.2.1) (d v.lo.2.2 v.hi.2.2))
  axisS k

/-- Beyond every S that a distance of 32,767 does not hide: 512 × √4096 = 32,768. -/
def farS : Nat := 4096

/-- The least S from a box of free voxels to an occupied voxel. -/
def Occ.nearOcc (o : Occ) (vox : List (Nat × Nat × Nat)) (v : VBox) : Nat :=
  let inside := vox.foldl (fun best u =>
    min best (axisS (gapTo v.lo.1 v.hi.1 u.1) + axisS (gapTo v.lo.2.1 v.hi.2.1 u.2.1) + axisS (gapTo v.lo.2.2 v.hi.2.2 u.2.2))) farS
  if o.out then min inside (outsideS o.n v) else inside

/-- Axis differences in the order 0, 1, -1, ..., 32, -32. -/
def diffs : List Int := (0 : Int) :: (List.range 32).flatMap fun (i : Nat) => [(i : Int) + 1, -((i : Int) + 1)]

/-- The least S from an occupied voxel to a free one. -/
def Occ.nearFree (o : Occ) (x y z : Int) : Nat :=
  diffs.foldl (fun best dx =>
    let sx := axisS dx.natAbs
    if best ≤ sx then best
    else diffs.foldl (fun best dy =>
      let sxy := sx + axisS dy.natAbs
      if best ≤ sxy then best
      else diffs.foldl (fun best dz =>
        let s := sxy + axisS dz.natAbs
        if best ≤ s then best else if o.at (x + dx) (y + dy) (z + dz) then best else s) best) best) farS

/-- m of R697, rounded down for a free voxel and up for an occupied one. -/
def distM (up : Bool) (s : Nat) : Nat :=
  let v := 262144 * s
  let r := isqrt v
  min 32767 (if up && r * r != v then r + 1 else r)

/-- The distance value of a voxel, as DF16. -/
def Occ.dist (o : Occ) (vox : List (Nat × Nat × Nat)) (x y z : Int) : Nat :=
  if o.at x y z then 0x8000 + distM true (o.nearFree x y z) else distM false (o.nearOcc vox (VBox.voxel x y z))

/-- The least distance value over the voxels of a box inside the cube (R703). -/
def Occ.boxDist (o : Occ) (vox : List (Nat × Nat × Nat)) (v : VBox) : Nat :=
  let within (u : Nat × Nat × Nat) : Bool :=
    decide (v.lo.1 ≤ u.1 ∧ u.1 ≤ v.hi.1 ∧ v.lo.2.1 ≤ u.2.1 ∧ u.2.1 ≤ v.hi.2.1 ∧ v.lo.2.2 ≤ u.2.2 ∧ u.2.2 ≤ v.hi.2.2)
  match vox.filter within with
  | [] => distM false (o.nearOcc vox v)
  | l => 0x8000 + l.foldl (fun m u => max m (distM true (o.nearFree u.1 u.2.1 u.2.2))) 0

-- The header (R699) ----------------------------------------------------------------------------------------------------

def hDepth (h : List Byte) : Nat := fieldAt h 0x04 1
def hSlices (h : List Byte) : Nat := fieldAt h 0x05 1
def hBand (h : List Byte) : Nat := fieldAt h 0x06 1
def hOut (h : List Byte) : Bool := (fieldAt h 0x07 1).testBit 0
def hVoxel (h : List Byte) : Nat := fieldAt h 0x08 4
def hSliceNs (h : List Byte) : Nat := fieldAt h 0x0C 4
def hOrigin (h : List Byte) (axis : Nat) : Int := sext 32 (fieldAt h (0x10 + 4 * axis) 4)
def hT0 (h : List Byte) : Nat := fieldAt h 0x20 8
def hPrev (h : List Byte) : Nat := fieldAt h 0x28 8
def hNodes (h : List Byte) : Nat := fieldAt h 0x30 8
def hBricks (h : List Byte) : Nat := fieldAt h 0x38 8
def hSliceBase (h : List Byte) : Nat := fieldAt h 0x40 8
def hChanges (h : List Byte) : Nat := fieldAt h 0x48 8
/-- NODE_CAP, BRICK_CAP, SLICE_CAP, CHANGE_CAP. -/
def hCap (h : List Byte) (i : Nat) : Nat := fieldAt h (0x50 + 4 * i) 4
def hState (h : List Byte) : Nat := fieldAt h 0x60 1
def hWorld (h : List Byte) : Nat := fieldAt h 0x61 1
def hFlags (h : List Byte) : Nat := fieldAt h 0x62 1
def hEpoch (h : List Byte) : Nat := fieldAt h 0x64 4
/-- NODE_USED, BRICK_USED, SLICE_USED, CHANGE_USED. -/
def hUsed (h : List Byte) (i : Nat) : Nat := fieldAt h (0x68 + 4 * i) 4
/-- Voxels along an axis. -/
def hSize (h : List Byte) : Nat := 8 * 2 ^ hDepth h

def eEmpty : Nat := 0
def eOpen : Nat := 1
def eCurrent : Nat := 2
def eRetired : Nat := 3
def eFailed : Nat := 4

/-- The regions of an epoch whose header lies at `a`. -/
def epochRegions (h : List Byte) (a : Nat) : List (Nat × Nat) :=
  ([(a, 128), (hNodes h, 64 * hCap h 0), (hBricks h, 1088 * hCap h 1), (hSliceBase h, 64 * hCap h 2),
    (hChanges h, 8 * hCap h 3)]).filter fun r => r.2 != 0

/-- A header field outside R699, a region misaligned or overlapping another (BAD_WORLD). -/
def headerBad (h : List Byte) (a : Nat) : Bool :=
  let rs := epochRegions h a
  let idx := List.range rs.length
  h.take 4 != [0x57, 0x52, 0x4C, 0x44] || hDepth h == 0 || decide (12 < hDepth h) || decide (32 < hSlices h) || decide (2 < hBand h) ||
    bits (fieldAt h 0x07 1) 1 7 != 0 || decide (hVoxel h < 2000) || decide (64000 < hVoxel h) ||
    (if hSlices h = 0 then hSliceNs h != 0 else decide (hSliceNs h < 5000000 ∨ 200000000 < hSliceNs h)) || fieldAt h 0x1C 4 != 0 ||
    hCap h 0 == 0 || hCap h 1 == 0 ||
    [hNodes h, hBricks h, hSliceBase h, hChanges h].any (fun x => x % 64 != 0) ||
    idx.any fun i => idx.any fun j =>
      let x := rs.getD i (0, 0)
      let y := rs.getD j (0, 0)
      decide (i < j ∧ x.1 < y.1 + y.2 ∧ y.1 < x.1 + x.2)

/-- Every unit of a range is placed in tier F for the partition (R698). -/
def Block.inTierF (b : Block) (p a n : Nat) : Bool :=
  match b.destOf p a with
  | .tier l =>
    let u := l / unitBytes
    (List.range ((l + n - 1) / unitBytes - u + 1)).all fun i =>
      match findRun (b.runs p) (u + i) with | some r => r.tier == 0 | none => false
  | _ => false

-- The world-node caches (R725 to R728) ---------------------------------------------------------------------------------

/-- Lines of a node cache. -/
def ncLines : Nat := 32768

def Block.ncHit (b : Block) (die p x : Nat) : Option NodeLine :=
  b.ms.nodes.find? fun n => decide (n.die = die ∧ n.part = p ∧ n.phys = x)

/-- A line put in a die's cache; a full cache gives up a line that no rule names, which a free value picks. -/
def Block.ncFill (b : Block) (die p x : Nat) (l : List Byte) : Block :=
  let n : NodeLine := { die := die, part := p, phys := x, bytes := l }
  let mine := b.ms.nodes.filter fun m => m.die = die
  if mine.length < ncLines then { b with ms := { b.ms with nodes := b.ms.nodes ++ [n] } }
  else
    let v := mine.getD (b.freeVal 15) n
    { b.took with ms := { b.ms with nodes := b.ms.nodes.filter (· ≠ v) ++ [n] } }

/-- The lines of a partition that lie in a physical range dropped on both dies. -/
def Block.ncDropPhys (b : Block) (p x n : Nat) : Block :=
  let nodes := b.ms.nodes.filter fun m => !(decide (m.part = p ∧ x < m.phys + 64 ∧ m.phys < x + n))
  { b with ms := { b.ms with nodes := nodes } }

/-- The lines of a range of partition addresses dropped on both dies, unit by unit. -/
def Block.ncDropN (b : Block) (p : Nat) : Nat → Nat → Nat → Block
  | 0, _, _ => b
  | fuel + 1, a, n =>
    if n = 0 then b
    else
      let m := inUnit a n
      let l := a % 2 ^ 50
      let b := match findRun (b.runs p) (l / unitBytes) with
        | some r => b.ncDropPhys p (r.phys l) m
        | none => b
      b.ncDropN p fuel (a + m) (n - m)

def Block.ncDrop (b : Block) (p : Nat) (rs : List (Nat × Nat)) : Block :=
  rs.foldl (fun b r => b.ncDropN p (r.2 / unitBytes + 2) r.1 r.2) b

/-- One 64-byte line of an epoch read through a die's node cache; a miss is charged to the partition (R726). -/
def Block.ncLine (b : Block) (w : Who) (a : Nat) : Except Failed (List Byte) × Block :=
  match b.destOf w.part a with
  | .tier l =>
    match b.locate w.die w.part l with
    | (.error (st, c), b) => (.error { status := st, cause := c, off := 0 }, b)
    | (.ok x, b) =>
      let stat := b.on .NC_CTRL_STAT_EN w.die
      match b.ncHit w.die w.part x with
      | some n => (.ok n.bytes, if stat then b.bump .NC_HIT_COUNT w.die else b)
      | none =>
        let b := if stat then b.bump .NC_MISS_COUNT w.die else b
        let b := b.engAdmit w.part x 64 (readCharge x 64) (b.jobCrit (some w.job))
        if b.engStalled then (.error Failed.stopped, b)
        else match b.readPhys w.part x 64 with
          | (.error (_, c), b) => (.error { status := stMemUe, cause := c, off := 0 }, b)
          | (.ok bytes, b) => (.ok bytes, b.ncFill w.die w.part x bytes)
  | _ => b.engRead w.die w.part (some w.job) a 64

/-- `n` bytes of an epoch, line by line. -/
def ncRead (w : Who) (a n : Nat) : EngM (List Byte) := do
  let lo := a / 64 * 64
  let lines := (a + n + 63) / 64 - a / 64
  let mut l : List (List Byte) := []
  for i in [0:lines] do
    let x ← engM fun b => b.ncLine w (lo + 64 * i)
    l := l ++ [x]
  return slice l.flatten (a - lo) n

/-- NODE_CACHE_LINE_EXPIRY (R725). -/
def execNodeCacheLineExpiry (die phys : Nat) (s : State) :=
  s.act fun b =>
    let nodes := b.ms.nodes.filter fun n => !(decide (n.die = die ∧ n.phys = phys / 64 * 64))
    { b with ms := { b.ms with nodes := nodes } }

-- Records (R710, R711) -------------------------------------------------------------------------------------------------

/-- What a brick holds: its present occupancy and its slice bricks by slice number. -/
structure Brick where
  occ : Nat
  slices : Tab Nat
  deriving DecidableEq, Repr

def Brick.empty : Brick := { occ := 0, slices := [] }

/-- Two descriptions of one brick merged by OR. -/
def Brick.or (x y : Brick) : Brick :=
  { occ := x.occ ||| y.occ, slices := y.slices.foldl (fun t e => Tab.put t e.1 (Tab.get t e.1 0 ||| e.2)) x.slices }

/-- The slice bricks of a mask, in ascending slice number, from bytes. -/
def slicesOf (mask : Nat) (l : List Byte) : Tab Nat :=
  let ss := (bitList mask 32).map (· + 1)
  (List.range ss.length).map fun i => (ss.getD i 0, ofLe (slice l (64 * i) 64))

/-- Records end to end; none when one is malformed. `only` is set under SLICES. -/
def parseRecords (h : List Byte) (only : Bool) : Nat → List Byte → Option (List (Nat × Brick))
  | 0, l => if l = [] then some [] else none
  | fuel + 1, l =>
    if l = [] then some []
    else
      let x := fieldAt l 0 2
      let y := fieldAt l 2 2
      let z := fieldAt l 4 2
      let mask := fieldAt l 8 4
      let n := 128 + 64 * popCount mask 32
      let lim := 2 ^ hDepth h
      let occ := ofLe (slice l 0x40 64)
      if l.length < n ∨ lim ≤ x ∨ lim ≤ y ∨ lim ≤ z ∨ 2 ^ hSlices h ≤ mask ∨ fieldAt l 6 2 ≠ 0 ∨ fieldAt l 0x0C 52 ≠ 0 ∨
          (only = true ∧ occ ≠ 0) then none
      else (parseRecords h only fuel (l.drop n)).map fun r =>
        (brickKey x y z, { occ := occ, slices := slicesOf mask (l.drop 128) }) :: r

/-- Bricks merged with those already there. -/
def mergeBricks (t : Tab Brick) (l : List (Nat × Brick)) : Tab Brick :=
  l.foldl (fun t e => Tab.put t e.1 ((Tab.get t e.1 Brick.empty).or e.2)) t

-- Leaves and nodes (R701 to R707) --------------------------------------------------------------------------------------

/-- A leaf: its brick with non-zero slice bricks only, its distance brick, and CHANGED_AT. -/
structure Leaf where
  key : Nat
  brick : Brick
  dist : List Byte
  changed : Nat
  deriving DecidableEq, Repr

def Leaf.mask (l : Leaf) : Nat := l.brick.slices.foldl (fun m e => setBit m (e.1 - 1)) 0

/-- The distance brick of a brick. -/
def distBrick (o : Occ) (vox : List (Nat × Nat × Nat)) (key : Nat) : List Byte :=
  (List.range 512).flatMap fun i =>
    leBytes 2 (o.dist vox (8 * keyX key + i % 8 : Nat) (8 * keyY key + i / 8 % 8 : Nat) (8 * keyZ key + i / 64 : Nat))

/-- The bricks within `band` of a brick, in every axis, inside the cube. -/
def bandOf (lim band key : Nat) : List Nat :=
  let span (v : Nat) : List Nat := (List.range (2 * band + 1)).filterMap fun i =>
    if band ≤ v + i ∧ v + i - band < lim then some (v + i - band) else none
  (span (keyZ key)).flatMap fun z => (span (keyY key)).flatMap fun y => (span (keyX key)).map fun x => brickKey x y z

/-- The bricks that have leaves (R706), with the non-zero slice bricks each stores. -/
def leafBricks (h : List Byte) (t : Tab Brick) : Tab Brick :=
  let t : Tab Brick := t.map fun e => (e.1, { e.2 with slices := e.2.slices.filter fun s => s.2 ≠ 0 })
  let own := t.filter fun e => e.2.occ ≠ 0 ∨ e.2.slices ≠ []
  let occ := t.filter fun e => e.2.occ ≠ 0
  let band := if hBand h = 0 then [] else occ.flatMap fun e => bandOf (2 ^ hDepth h) (hBand h) e.1
  band.foldl (fun t k => match Tab.find t k with | some _ => t | none => Tab.put t k Brick.empty) own

/-- The present occupancy of a set of bricks. -/
def occOf (h : List Byte) (t : Tab Brick) : Occ :=
  { n := hSize h, out := hOut h, bricks := (t.filter fun e => e.2.occ ≠ 0).map fun e => (e.1, e.2.occ) }

/-- A node while it is laid out: its level, its brick coordinates at that level, and the leaves below it. -/
structure Spot where
  level : Nat
  x : Nat
  y : Nat
  z : Nat
  leaves : List Leaf
  deriving DecidableEq, Repr

/-- Child c of a node, when it exists. -/
def Spot.child (d : Nat) (s : Spot) (c : Nat) : Option Spot :=
  let x := 2 * s.x + c % 2
  let y := 2 * s.y + c / 2 % 2
  let z := 2 * s.z + c / 4
  let k := d - s.level - 1
  let l := s.leaves.filter fun e => decide (keyX e.key / 2 ^ k = x ∧ keyY e.key / 2 ^ k = y ∧ keyZ e.key / 2 ^ k = z)
  if l = [] then none else some { level := s.level + 1, x := x, y := y, z := z, leaves := l }

/-- The existing children of a node, in ascending child number. -/
def Spot.children (d : Nat) (s : Spot) : List Spot := (List.range 8).filterMap (s.child d)

/-- The levels of the tree from level l on, each in the order of its parents. -/
def levels (d : Nat) : Nat → List Spot → List (List Spot)
  | 0, l => [l]
  | n + 1, l => l :: levels d n (l.flatMap (Spot.children d))

/-- The voxels of child c's region. -/
def childBox (d : Nat) (s : Spot) (c : Nat) : VBox :=
  let z := 8 * 2 ^ (d - s.level - 1)
  let lo (v b : Nat) : Int := ((2 * v + b) * z : Nat)
  let x := lo s.x (c % 2)
  let y := lo s.y (c / 2 % 2)
  let w := lo s.z (c / 4)
  ⟨(x, y, w), (x + z - 1, y + z - 1, w + z - 1)⟩

/-- The bytes of an interior node whose first child has index `base`. -/
def interiorBytes (d : Nat) (o : Occ) (vox : List (Nat × Nat × Nat)) (s : Spot) (base : Nat) : List Byte :=
  let kids := (List.range 8).map fun c => (s.child d c).isSome
  let mask := (List.range 8).foldl (fun m c => m + b2n (kids.getD c false) * 2 ^ c) 0
  let corner (v : Nat) : Nat := v * 2 ^ (d - s.level)
  let at_ := if mask = 0 then Config.emptyIndex base % 2 ^ 32 else base
  [1, byteOf s.level, byteOf mask, 0] ++ leBytes 2 (corner s.x) ++ leBytes 2 (corner s.y) ++ leBytes 2 (corner s.z) ++ [0, 0] ++
    leBytes 4 at_ ++ leBytes 4 (s.leaves.foldl (fun m e => max m e.changed) 0) ++ zeros 4 ++
    (List.range 8).flatMap (fun c => leBytes 2 (o.boxDist vox (childBox d s c))) ++ zeros 24

/-- The bytes of a leaf with its brick index and its first slice index. -/
def leafBytes (d : Nat) (e : Leaf) (brick first : Nat) : List Byte :=
  let at_ := if e.brick.slices = [] then Config.emptyIndex first % 2 ^ 32 else first
  [2, byteOf d, 0, 0] ++ leBytes 2 (keyX e.key) ++ leBytes 2 (keyY e.key) ++ leBytes 2 (keyZ e.key) ++ [0, 0] ++
    leBytes 4 e.mask ++ leBytes 4 brick ++ leBytes 4 at_ ++ leBytes 4 e.changed ++ zeros 36

/-- An epoch laid out: its node, brick and slice arrays. -/
structure Laid where
  nodes : List (List Byte)
  bricks : List (List Byte)
  slices : List (List Byte)
  deriving DecidableEq, Repr

/-- Interior nodes of one level, the first child of the first of them having index `base`. -/
def layLevel (d : Nat) (o : Occ) (vox : List (Nat × Nat × Nat)) (base : Nat) : List Spot → List (List Byte)
  | [] => []
  | s :: r => interiorBytes d o vox s base :: layLevel d o vox (base + (s.children d).length) r

/-- Interior levels in turn; `start` is the index of the first node of the next level. -/
def layInterior (d : Nat) (o : Occ) (vox : List (Nat × Nat × Nat)) : Nat → List (List Spot) → List (List Byte)
  | start, l :: next :: r => layLevel d o vox start l ++ layInterior d o vox (start + next.length) (next :: r)
  | _, _ => []

/-- Leaves with their indices. -/
def layLeaves (d : Nat) : Nat → Nat → List Leaf → List (List Byte)
  | _, _, [] => []
  | i, first, e :: r => leafBytes d e i first :: layLeaves d (i + 1) (first + e.brick.slices.length) r

/-- The whole layout (R707). -/
def layOut (h : List Byte) (o : Occ) (leaves : List Leaf) : Laid :=
  let d := hDepth h
  let ls := levels d d [{ level := 0, x := 0, y := 0, z := 0, leaves := leaves }]
  let vox := o.voxels
  let ordered := (ls.getLastD []).flatMap (·.leaves)
  { nodes := layInterior d o vox 1 ls ++ layLeaves d 0 0 ordered,
    bricks := ordered.map fun e => leBytes 64 e.brick.occ ++ e.dist,
    slices := ordered.flatMap fun e => e.brick.slices.map fun s => leBytes 64 s.2 }

-- Reading an epoch -----------------------------------------------------------------------------------------------------

/-- A structure field out of bounds (R730). -/
def badNode {α : Type} : EngM α := failM stEngine 0xE6

/-- The captured epoch: its header and whose reads they are. -/
structure Epoch where
  w : Who
  h : List Byte
  deriving DecidableEq, Repr

/-- The node of an index at a depth, checked. -/
def Epoch.node (e : Epoch) (ix depth : Nat) : EngM (List Byte) := do
  if hUsed e.h 0 ≤ ix then badNode
  let n ← ncRead e.w (hNodes e.h + 64 * ix) 64
  let ty := fieldAt n 0 1
  if (ty != 1 && ty != 2) || fieldAt n 1 1 != depth || (ty == 2) != (depth == hDepth e.h) then badNode
  return n

/-- Node index of child c of an interior node. -/
def childIx (n : List Byte) (c : Nat) : Nat := fieldAt n 0x0C 4 + popCount (fieldAt n 2 1) c
def hasChild (n : List Byte) (c : Nat) : Bool := (fieldAt n 2 1).testBit c

/-- The region of child c of a node at corner (x, y, z) meets a box of bricks; `k` levels lie below the child. -/
def childMeets (v : VBox) (k x y z c : Nat) : Bool :=
  let side (a b : Nat) (lo hi : Int) : Bool :=
    let l : Int := ((2 * a + b) * 2 ^ k : Nat)
    decide (l ≤ hi ∧ lo < l + 2 ^ k)
  side x (c % 2) v.lo.1 v.hi.1 && side y (c / 2 % 2) v.lo.2.1 v.hi.2.1 && side z (c / 4) v.lo.2.2 v.hi.2.2

/-- The nodes at depth `depth + fuel` whose regions meet a box of bricks, in depth-first order. -/
def Epoch.within (e : Epoch) (v : VBox) : Nat → Nat → Nat → Nat × Nat × Nat → EngM (List (List Byte))
  | 0, depth, ix, _ => do
    let n ← e.node ix depth
    return [n]
  | fuel + 1, depth, ix, (x, y, z) => do
    let n ← e.node ix depth
    let mut l : List (List Byte) := []
    for c in [0:8] do
      if hasChild n c && childMeets v (hDepth e.h - depth - 1) x y z c then
        let r ← e.within v fuel (depth + 1) (childIx n c) (2 * x + c % 2, 2 * y + c / 2 % 2, 2 * z + c / 4)
        l := l ++ r
    return l

def leafKey (n : List Byte) : Nat := brickKey (fieldAt n 4 2) (fieldAt n 6 2) (fieldAt n 8 2)
def leafMask (n : List Byte) : Nat := fieldAt n 0x0C 4

/-- A leaf with its brick and its slice bricks, its indices checked. -/
def Epoch.leaf (e : Epoch) (n : List Byte) : EngM Leaf := do
  let br := fieldAt n 0x10 4
  let first := fieldAt n 0x14 4
  let k := popCount (leafMask n) 32
  if hUsed e.h 1 ≤ br ∨ (k ≠ 0 ∧ hUsed e.h 2 < first + k) then badNode
  let body ← ncRead e.w (hBricks e.h + 1088 * br) 1088
  let sl ← ncRead e.w (hSliceBase e.h + 64 * first) (64 * k)
  return { key := leafKey n, brick := { occ := ofLe (body.take 64), slices := slicesOf (leafMask n) sl }, dist := body.drop 64,
           changed := fieldAt n 0x18 4 }

/-- The leaves of an epoch, read from its root down (R730). -/
def readLeaves (w : Who) (h : List Byte) : EngM (List Leaf) := do
  let e : Epoch := { w := w, h := h }
  let top : Int := (2 ^ hDepth h : Nat) - 1
  let l ← e.within ⟨(0, 0, 0), (top, top, top)⟩ (hDepth h) 0 0 (0, 0, 0)
  l.mapM e.leaf

-- Changes (R717 to R719) -----------------------------------------------------------------------------------------------

/-- The geometry of two headers differs (R718). -/
def geometryDiffers (h p : List Byte) : Bool :=
  hDepth h != hDepth p || hVoxel h != hVoxel p || (List.range 3).any (fun i => hOrigin h i != hOrigin p i) || hSlices h != hSlices p ||
    hSliceNs h != hSliceNs p || hOut h != hOut p

/-- A leaf in both epochs that changed. -/
def leafDiffers (x y : Leaf) : Bool := x.brick.occ != y.brick.occ || x.dist != y.dist || x.brick.slices != y.brick.slices

/-- The leaves with CHANGED_AT set, and the change entries: brick, kind. -/
def trackChanges (epoch : Nat) (all : Bool) (prev leaves : List Leaf) : List Leaf × List (Nat × Nat) :=
  let old (k : Nat) : Option Leaf := prev.find? fun e => e.key == k
  let mark (e : Leaf) : Leaf × Option Nat :=
    match old e.key with
    | none => ({ e with changed := epoch }, some 1)
    | some p =>
      if leafDiffers e p then ({ e with changed := epoch }, some 2)
      else ({ e with changed := if all then epoch else p.changed }, none)
  let marked := leaves.map mark
  let here := marked.filterMap fun m => m.2.map fun k => (m.1.key, k)
  let gone := (prev.filter fun p => !(leaves.any fun e => e.key == p.key)).map fun p => (p.key, 3)
  (marked.map (·.1), sortBy (fun x y => decide (x.1 ≤ y.1)) (here ++ gone))

def changeBytes (c : Nat × Nat) : List Byte :=
  leBytes 2 (keyX c.1) ++ leBytes 2 (keyY c.1) ++ leBytes 2 (keyZ c.1) ++ [byteOf c.2, 0]

-- WORLD_UPDATE (R708 to R716, R720 to R723) ----------------------------------------------------------------------------

def wuHeader (d : List Byte) : Nat := dArg d 0x00 8
def wuInput (d : List Byte) : Nat := dArg d 0x08 8
def wuLen (d : List Byte) : Nat := dArg d 0x10 8
def wuOp (d : List Byte) : Nat := dArg d 0x18 1
def wuWorld (d : List Byte) : Nat := dArg d 0x19 1
def wuDie (d : List Byte) : Nat := bits (dArg d 0x1A 1) 0 2

def opBuild : Nat := 1
def opSlices : Nat := 2
def opSwap : Nat := 3
def opRefresh : Nat := 4

/-- Instance of a world's registers. -/
def worldIx (p w : Nat) : Nat := p * 8 + w

/-- An ARGS field outside its listed values, or a non-zero reserved field or WIDTH. -/
def wuBad (d : List Byte) : Bool :=
  let op := wuOp d
  wuHeader d % 64 != 0 || wuInput d % 64 != 0 || wuLen d % 64 != 0 || (wuInput d == 0 && wuLen d != 0) || op == 0 || decide (4 < op) ||
    decide (7 < wuWorld d) || wuDie d == 3 || bits (dArg d 0x1A 1) 2 6 != 0 || dArg d 0x1B 5 != 0 || dWidth d != 0 ||
    ((op == opSwap || op == opRefresh) && (wuInput d != 0 || wuLen d != 0))

/-- WRONG_STATE or STALE_PREV for an operation on a header. -/
def Block.wuState (b : Block) (p : Nat) (d h : List Byte) : Option Nat :=
  let op := wuOp d
  let st := hState h
  let cur := b.get .WORLD_CUR_HEADER (worldIx p (wuWorld d))
  let mine := hWorld h == wuWorld d
  let ok := if op = opBuild then st == eEmpty || st == eRetired || st == eFailed
    else if op = opRefresh then st == eOpen || st == eCurrent else st == eOpen && mine
  if !ok then some 0xE2
  else if op = opBuild ∧ hPrev h ≠ 0 ∧ hPrev h ≠ cur then some 0xE3
  else if op = opSwap ∧ hPrev h ≠ cur then some 0xE3
  else none

/-- The violation of a WORLD_UPDATE, given the records' bytes. -/
def Block.wuFault (b : Block) (p : Nat) (d h recs : List Byte) : Option Nat :=
  let op := wuOp d
  if wuBad d || headerBad h (wuHeader d) then some 0xE0
  else if (op = opBuild ∨ op = opSlices) ∧ parseRecords h (op == opSlices) (recs.length / 64 + 1) recs = none then some 0xE1
  else match b.wuState p d h with
    | some c => some c
    | none => if (epochRegions h (wuHeader d)).all fun r => b.inTierF p r.1 r.2 then none else some 0xE4

/-- The header fields that the 4400 writes (offsets 0x60 to 0x7F). -/
def headerTail (state world flags epoch : Nat) (used : List Nat) (swap : Nat) : List Byte :=
  [byteOf state, byteOf world, byteOf flags, 0] ++ leBytes 4 epoch ++ used.flatMap (leBytes 4) ++ leBytes 8 swap

/-- A node of free contents whose reserved bytes are zero (R10, R701, R704). -/
def scrapNode (l : List Byte) : List Byte :=
  if fieldAt l 0 1 % 2 = 1 then
    [1, l.getD 1 0, l.getD 2 0, 0] ++ slice l 4 6 ++ [0, 0] ++ slice l 0x0C 8 ++ zeros 4 ++ slice l 0x18 16 ++ zeros 24
  else [2, l.getD 1 0, 0, 0] ++ slice l 4 6 ++ [0, 0] ++ slice l 0x0C 16 ++ zeros 36

/-- `k` entries of `n` bytes from `a`, each left as found or, as a free value has it, overwritten with a form of free bytes. -/
def scrapEntries (w : Who) (a n k : Nat) (form : List Byte → List Byte) : EngM Unit := do
  for i in [0:k] do
    let l ← engM fun b => let (l, b) := b.freeBytes (n + 1)
                          (.ok l, b)
    if fieldAt l 0 1 % 2 = 1 then writeM w (a + n * i) (form (l.drop 1))

/-- The regions after a stop in the middle of a layout: no rule gives what they hold. -/
def scrapM (w : Who) (h : List Byte) : EngM Unit := do
  scrapEntries w (hNodes h) 64 (hCap h 0) scrapNode
  scrapEntries w (hBricks h) 1088 (hCap h 1) id
  scrapEntries w (hSliceBase h) 64 (hCap h 2) id
  scrapEntries w (hChanges h) 8 (hCap h 3) fun l => l.take 7 ++ [0]

/-- An epoch built from bricks, tracked against PREV and written: 0, or the RESULT of a pool that is full (R712 to R719). -/
def layEpoch (w : Who) (d h : List Byte) (t : Tab Brick) : EngM Nat := do
  let a := wuHeader d
  let bricks := leafBricks h t
  let o := occOf h bricks
  let vox := o.voxels
  let leaves : List Leaf := bricks.map fun e => { key := e.1, brick := e.2, dist := distBrick o vox e.1, changed := 0 }
  let prevH ← if hPrev h = 0 then pure [] else ncRead w (hPrev h) 128
  let prev ← if hPrev h = 0 then pure [] else readLeaves w prevH
  let epoch := (if hPrev h = 0 then 1 else hEpoch prevH + 1) % 2 ^ 32
  let geom := hPrev h != 0 && geometryDiffers h prevH
  let (leaves, changes) := trackChanges epoch (geom || hPrev h == 0) prev leaves
  let laid := layOut h o leaves
  let full := if hCap h 0 < laid.nodes.length then 1 else if hCap h 1 < laid.bricks.length then 2
    else if hCap h 2 < laid.slices.length then 3 else 0
  if full ≠ 0 then
    scrapM w h
    writeM w (a + 0x60) [byteOf eFailed]
    modM fun b => b.event 0x80 0x03 [] w.part
    return full
  writeM w (hNodes h) laid.nodes.flatten
  writeM w (hBricks h) laid.bricks.flatten
  writeM w (hSliceBase h) laid.slices.flatten
  let kept := if geom then [] else changes.take (hCap h 3)
  writeM w (hChanges h) (kept.flatMap changeBytes)
  let full_ := geom || decide (hCap h 3 < changes.length)
  writeM w (a + 0x60) (headerTail eOpen (wuWorld d) (b2n full_ + 2 * b2n geom) epoch
    [laid.nodes.length, laid.bricks.length, laid.slices.length, kept.length] 0)
  return 0

/-- BUILD and SLICES on memory: the bricks an operation starts from, merged with its records, laid out, and the caches' lines of the
epoch dropped (R715). -/
def buildM (w : Who) (d h recs : List Byte) : EngM Nat := do
  let only := wuOp d == opSlices
  let rs := (parseRecords h only (recs.length / 64 + 1) recs).getD []
  let old ← if only then readLeaves w h else pure []
  let base : Tab Brick := old.foldl (fun t e => Tab.put t e.key e.brick) []
  let r ← layEpoch w d h (mergeBricks base rs)
  modM fun b => b.ncDrop w.part (epochRegions h (wuHeader d))
  return r

def ckWorld (d : List Byte) : Nat := dArg d 0x0C 1
def plWorld (d : List Byte) : Nat := dArg d 0x08 1

/-- The world that a CHECK or PLAN reads, as an instance of the world's registers. -/
def Job.worldIx (j : Job) : Option Nat :=
  if isOp 0x31 j then some (Machine.worldIx j.part (ckWorld j.desc))
  else if isOp 0x32 j then some (Machine.worldIx j.part (plWorld j.desc)) else none

/-- A CHECK or PLAN with its world's current epoch captured (R720); a capture already made stays. DEDUCED: an operation whose input Mark is
formed starts with it, since R774 puts the captured header there. -/
def Block.capture (b : Block) (j : Job) : Job :=
  match j.epoch, j.worldIx with
  | none, some i => { j with epoch := some (b.get .WORLD_CUR_HEADER i) }
  | _, _ => j

/-- The operations of a world that hold a captured epoch (R732): with `current`, the world's present epoch, else replaced ones. -/
def Block.worldUsers (b : Block) (current : Bool) (i : Nat) : Nat :=
  (b.hop.jobs.filter fun j => j.worldIx == some i && match j.epoch with
    | some h => h != 0 && (h == b.get .WORLD_CUR_HEADER i) == current
    | none => false).length

/-- An operation of a world still holds the epoch whose header lies at `h` (R721). -/
def Block.epochHeld (b : Block) (i h : Nat) : Bool := b.hop.jobs.any fun j => j.worldIx == some i && j.epoch == some h

/-- An earlier WORLD_UPDATE of the same world has not finished (R709). -/
def Block.worldWaits (b : Block) (j : Job) : Bool :=
  b.hop.jobs.any fun k => k.part == j.part && decide (k.id < j.id) && isOp 0x30 k && wuWorld k.desc == wuWorld j.desc &&
    !(wuOp k.desc == opSwap && (k.phase == .running || k.phase == .marking))

/-- A job that the Checker engines run: BUILD, SLICES, CHECK or PLAN (R302, R709). WORLD_UPDATE descriptors with an OP outside the
table come with BUILD and are refused there. -/
def Block.onCheckers (b : Block) (j : Job) : Bool :=
  isOp 0x31 j || isOp 0x32 j || (isOp 0x30 j && wuOp j.desc != opSwap && wuOp j.desc != opRefresh && !b.worldWaits j)

/-- The die whose engines a job of the Checkers uses first, among those its DIE allows that take work. -/
def Block.checkerDie (b : Block) (sel : Nat) : Option Nat :=
  [0, 1].find? fun k => (sel == 0 || sel == k + 1 || (sel == 3 && k == 0)) && b.dieReady k

/-- The die for a job of the Checkers: DIE of WORLD_UPDATE is as listed; DIE lies in byte 0x0D of
CHECK and in byte 0x09 of PLAN, and with both dies start on the first that takes work. -/
def Block.engDie (b : Block) (j : Job) : Option Nat :=
  let sel := bits (dArg j.desc (if isOp 0x31 j then 0x0D else 0x09) 1) 0 2
  if isOp 0x30 j then b.checkerDie (wuDie j.desc) else b.checkerDie (if sel = 3 then 0 else sel)

/-- The header, and the records of BUILD and SLICES. -/
def wuRead (w : Who) (d : List Byte) : EngM (List Byte × List Byte) := do
  if wuBad d then return ([], [])
  let h ← readM w (wuHeader d) 128
  if headerBad h (wuHeader d) then return (h, [])
  let recs ← readM w (wuInput d) (wuLen d)
  return (h, recs)

/-- BUILD or SLICES on a header and records that passed their checks: DONE, or FULL with the pool that was full. -/
def Block.runBuild (b : Block) (w : Who) (j : Job) (h recs : List Byte) : Block :=
  match (buildM w j.desc h recs).go b with
  | (.error f, b) => b.endJob j f.status f.cause 0
  | (.ok 0, b) => b.conclude j stDone 0 0
  | (.ok n, b) => b.conclude j stFull 0xE5 n

/-- The job of the Checkers that starts now, when it is one of those `want` names. -/
def Block.checkersStart (b : Block) (want : Job → Bool) (id : Nat) : Option (Job × Block) × Block :=
  b.engineGo engChecker b.onCheckers (fun j => (b.engDie j).isSome) want id

/-- The jobs that a BUILD or SLICES command names; an OP outside the table comes with BUILD. -/
def buildNames (op : Nat) (j : Job) : Bool :=
  isOp 0x30 j && (wuOp j.desc == op || (op == opBuild && (wuOp j.desc == 0 || decide (4 < wuOp j.desc))))

/-- BUILD and SLICES (R712 to R716). -/
def Block.build (b : Block) (op id : Nat) : Block :=
  match b.checkersStart (buildNames op) id with
  | (none, b) => b
  | (some (j, b), _) =>
    let die := (b.engDie j).getD 0
    let w : Who := { die := die, part := j.part, job := j.id }
    match (wuRead w j.desc).go (b.dieWorks die) with
    | (.error f, b) => b.conclude j f.status f.cause 0
    | (.ok (h, recs), b) =>
      match b.wuFault j.part j.desc h recs with
      | some c => b.violateJob j c
      | none => b.runBuild w j h recs

def execBuild (job : Nat) (strikes : List Strike) (replies : List Reply) (s : State) :=
  s.act (·.runOp (jobAgent job) strikes replies (·.build opBuild job))
def execSlices (job : Nat) (strikes : List Strike) (replies : List Reply) (s : State) :=
  s.act (·.runOp (jobAgent job) strikes replies (·.build opSlices job))

/-- The WORLD_UPDATE with a hub OP that starts now. -/
def Block.hubStart (b : Block) (op id : Nat) : Option (Job × Block) :=
  b.engineStart engWorld (fun j => isOp 0x30 j && (wuOp j.desc == opSwap || wuOp j.desc == opRefresh) && !b.worldWaits j) anyJob
    (fun j => wuOp j.desc == op) id

/-- A hub operation of WORLD_UPDATE starts: the job, its header read and checked. -/
def Block.hubWorld (b : Block) (op id : Nat) (act : Block → Job → List Byte → Block) : Block :=
  match b.hubStart op id with
  | none => b
  | some (j, b) =>
    let w : Who := { die := 2, part := j.part, job := j.id }
    match (wuRead w j.desc).go b with
    | (.error f, b) => b.conclude j f.status f.cause 0
    | (.ok (h, recs), b) =>
      match b.wuFault j.part j.desc h recs with
      | some c => b.violateJob j c
      | none => act b j h

/-- SWAP (R721): the epoch becomes CURRENT with event 0x01; the descriptor completes with SWAP_RETIRE. -/
def Block.swap (b : Block) (id : Nat) : Block :=
  b.hubWorld opSwap id fun b j _ =>
    let i := worldIx j.part (wuWorld j.desc)
    let w : Who := { die := 2, part := j.part, job := j.id }
    let act : EngM Unit := do
      writeM w (wuHeader j.desc + 0x60) [byteOf eCurrent]
      writeM w (wuHeader j.desc + 0x78) (leBytes 8 b.gmc)
    match act.go b with
    | (.error f, b) => b.conclude j f.status f.cause 0
    | (.ok _, b) =>
      let (h, b) := b.peek (·.engRead 2 j.part none (wuHeader j.desc) 128)
      let epoch := match h with | .ok l => hEpoch l | .error _ => 0
      let old := b.get .WORLD_EPOCH_EPOCH i
      let b := ((b.set .WORLD_CUR_HEADER i (wuHeader j.desc)).set .WORLD_EPOCH_EPOCH i epoch).bump .WORLD_SWAPS_COUNT i
      (b.setJob { j with next := old }).event 0x80 0x01 [] j.part

def execSwap (job : Nat) (strikes : List Strike) (s : State) := s.act (·.runOp (jobAgent job) strikes [] (·.swap job))

/-- SWAP_RETIRE (R721): once no operation holds the replaced epoch any more, it is marked RETIRED and the SWAP completes with the
replaced EPOCH; until then nothing happens. -/
def Block.swapRetire (b : Block) (id : Nat) : Block :=
  match b.job id with
  | none => b
  | some j =>
    if isOp 0x30 j && wuOp j.desc == opSwap && j.phase == .running then
      let w : Who := { die := 2, part := j.part, job := j.id }
      let i := Machine.worldIx j.part (wuWorld j.desc)
      let act : EngM Nat := do
        let h ← readM w (wuHeader j.desc) 128
        if hPrev h = 0 then return 0
        if b.epochHeld i (hPrev h) then return 1
        writeM w (hPrev h + 0x60) [byteOf eRetired]
        return 2
      match act.go b with
      | (.error f, b) => b.conclude j f.status f.cause 0
      | (.ok 0, b) => b.conclude j stDone 0 0
      | (.ok 1, _) => b
      | (.ok _, b) => (b.event 0x80 0x02 [] j.part).conclude j stDone 0 j.next
    else b

def execSwapRetire (job : Nat) (s : State) := s.act (·.runOp (jobAgent job) [] [] (·.swapRetire job))

/-- REFRESH (R728). -/
def Block.refresh (b : Block) (id : Nat) : Block :=
  b.hubWorld opRefresh id fun b j h => (b.ncDrop j.part (epochRegions h (wuHeader j.desc))).conclude j stDone 0 0

def execRefresh (job : Nat) (strikes : List Strike) (s : State) := s.act (·.runOp (jobAgent job) strikes [] (·.refresh job))

end Sys2Proof.Machine
end

