-- ==== Sys2Proof/Machine/Checker.lean ====
section
/-! DEFINITION. Collision checking (spec/16): the robot block, trajectories, the sweep rule, the sample test against an epoch, segment
and candidate records, local repair, and the CHECK command. -/

namespace Sys2Proof.Machine

-- The robot (R733, R734) -----------------------------------------------------------------------------------------------

/-- A joint: prismatic, POS, ROT, limits. -/
structure Joint where
  prism : Bool
  pos : V3
  rot : Rat × Rat × Rat × Rat
  qMin : Rat
  qMax : Rat
  vMax : Rat
  deriving DecidableEq, Repr

/-- A primitive: a sphere is a capsule with A = B. -/
structure Prim where
  link : Nat
  capsule : Bool
  a : V3
  b : V3
  radius : Rat
  deriving DecidableEq, Repr

structure Robot where
  bytes : List Byte
  basePos : V3
  baseRot : Rat × Rat × Rat × Rat
  joints : List Joint
  prims : List Prim
  deriving DecidableEq, Repr

def f32At (l : List Byte) (o : Nat) : Rat := f32Rat (fieldAt l o 4)
def v3At (l : List Byte) (o : Nat) : V3 := ⟨f32At l o, f32At l (o + 4), f32At l (o + 8)⟩
def quatAt (l : List Byte) (o : Nat) : Rat × Rat × Rat × Rat := (f32At l o, f32At l (o + 4), f32At l (o + 8), f32At l (o + 12))

/-- Every FP32 field of a list of offsets is finite. -/
def finiteAt (l : List Byte) (os : List Nat) : Bool := os.all fun o => (fp32.dec (fieldAt l o 4)).isFinite

/-- A quaternion's norm lies within 2^-20 of 1. -/
def unitQuat (q : Rat × Rat × Rat × Rat) : Bool :=
  let n := q.1 * q.1 + q.2.1 * q.2.1 + q.2.2.1 * q.2.2.1 + q.2.2.2 * q.2.2.2
  let e : Rat := mkRat 1 (2 ^ 20)
  decide ((1 - e) * (1 - e) ≤ n) && decide (n ≤ (1 + e) * (1 + e))

/-- Length of a robot block with these counts. -/
def robotLen (joints prims : Nat) : Nat := 64 + 64 * joints + 32 * prims

def jointBad (l : List Byte) : Bool :=
  let t := fieldAt l 0 1
  t == 0 || decide (2 < t) || fieldAt l 1 3 != 0 || fieldAt l 0x2C 20 != 0 ||
    !finiteAt l ((List.range 10).map fun i => 4 + 4 * i) || !unitQuat (quatAt l 0x10) || decide (f32At l 0x24 < f32At l 0x20) ||
    decide (f32At l 0x28 ≤ 0)

def primBad (joints : Nat) (l : List Byte) : Bool :=
  let k := fieldAt l 1 1
  decide (joints < fieldAt l 0 1) || k == 0 || decide (2 < k) || fieldAt l 2 2 != 0 || !finiteAt l ((List.range 7).map fun i => 4 + 4 * i) ||
    decide (f32At l 0x10 ≤ 0) || (k == 1 && fieldAt l 0x14 12 != 0)

/-- A robot block breaks R733 or R734. -/
def robotBad (l : List Byte) : Bool :=
  let nj := fieldAt l 4 1
  let np := fieldAt l 5 1
  let prim (i : Nat) : List Byte := slice l (64 + 64 * nj + 32 * i) 32
  let weight := (List.range np).foldl (fun s i => s + fieldAt (prim i) 1 1) 0
  l.take 4 != [0x52, 0x4F, 0x42, 0x54] || nj == 0 || decide (16 < nj) || np == 0 || decide (128 < np) || fieldAt l 6 2 != 0 ||
    fieldAt l 0x24 28 != 0 || !finiteAt l ((List.range 7).map fun i => 8 + 4 * i) || !unitQuat (quatAt l 0x14) ||
    (List.range nj).any (fun i => jointBad (slice l (64 + 64 * i) 64)) || (List.range np).any (fun i => primBad nj (prim i)) ||
    decide (256 < weight)

/-- A robot block read. -/
def robotOf (l : List Byte) : Robot :=
  let nj := fieldAt l 4 1
  let joint (i : Nat) : Joint :=
    let r := slice l (64 + 64 * i) 64
    ⟨fieldAt r 0 1 == 2, v3At r 4, quatAt r 0x10, f32At r 0x20, f32At r 0x24, f32At r 0x28⟩
  let prim (i : Nat) : Prim :=
    let r := slice l (64 + 64 * nj + 32 * i) 32
    let cap := fieldAt r 1 1 == 2
    ⟨fieldAt r 0 1, cap, v3At r 4, if cap then v3At r 0x14 else v3At r 4, f32At r 0x10⟩
  { bytes := l, basePos := v3At l 8, baseRot := quatAt l 0x14, joints := (List.range nj).map joint,
    prims := (List.range (fieldAt l 5 1)).map prim }

def Joint.none : Joint := ⟨false, ⟨0, 0, 0⟩, (1, 0, 0, 0), 0, 0, 1⟩
def Robot.joint (r : Robot) (i : Nat) : Joint := r.joints.getD i Joint.none

/-- Forward kinematics: the frame of each joint before its motion, and the frame of each link. -/
def Robot.frames (r : Robot) (q : List Rat) : List Pose × List Pose :=
  let base := Pose.world.place r.basePos r.baseRot
  let (js, ls, _) := r.joints.foldl (fun (acc : List Pose × List Pose × Pose) j =>
    let (js, ls, p) := acc
    let f := p.place j.pos j.rot
    let x := q.getD js.length 0
    let n := if j.prism then f.slide x else f.turn x
    (js ++ [f], ls ++ [n], n)) ([], [base], base)
  (js, ls)

-- Trajectories (R735, R736) --------------------------------------------------------------------------------------------

structure Knot where
  us : Nat
  q : List Nat
  qd : List Nat
  deriving DecidableEq, Repr

def Knot.none : Knot := ⟨0, [], []⟩

structure Traj where
  start : Nat
  knots : List Knot
  deriving DecidableEq, Repr

/-- Bytes of a knot record, and of a trajectory. -/
def knotLen (j : Nat) : Nat := ceilDiv (8 + 8 * j) 16 * 16
def trajLen (j k : Nat) : Nat := 16 + k * knotLen j

def trajOf (j k : Nat) (l : List Byte) : Traj :=
  let word (o n : Nat) : List Nat := (List.range n).map fun i => fieldAt l (o + 4 * i) 4
  { start := fieldAt l 0 8,
    knots := (List.range k).map fun i =>
      let o := 16 + i * knotLen j
      ⟨fieldAt l o 4, word (o + 8) j, word (o + 8 + 4 * j) j⟩ }

def trajBytes (j : Nat) (t : Traj) : List Byte :=
  leBytes 8 t.start ++ [byteOf j, byteOf t.knots.length] ++ zeros 6 ++ t.knots.flatMap fun k =>
    padTo (knotLen j) (leBytes 4 k.us ++ zeros 4 ++ k.q.flatMap (leBytes 4) ++ k.qd.flatMap (leBytes 4))

/-- A trajectory breaks R736. -/
def trajBad (j k : Nat) (l : List Byte) : Bool :=
  let ks := knotLen j
  let t := trajOf j k l
  let us (i : Nat) : Nat := (t.knots.getD i Knot.none).us
  fieldAt l 8 1 != j || fieldAt l 9 1 != k || fieldAt l 0x0A 6 != 0 || us 0 != 0 ||
    (List.range (k - 1)).any (fun i => decide (us (i + 1) ≤ us i)) ||
    (List.range k).any fun i =>
      let o := 16 + i * ks
      fieldAt l (o + 4) 4 != 0 || fieldAt l (o + 8 + 8 * j) (ks - 8 - 8 * j) != 0 ||
        !finiteAt l ((List.range (2 * j)).map fun x => o + 8 + 4 * x)

/-- A segment between two knots: duration in seconds, and the values of a joint at its ends. -/
structure Seg where
  h : Rat
  q0 : List Rat
  v0 : List Rat
  q1 : List Rat
  v1 : List Rat
  /-- Count of knot k and duration in counts. -/
  at_ : Nat
  len : Nat
  deriving DecidableEq, Repr

def Traj.seg (t : Traj) (k : Nat) : Seg :=
  let x := t.knots.getD k Knot.none
  let y := t.knots.getD (k + 1) Knot.none
  { h := mkRat (y.us - x.us : Nat) 1000000, q0 := x.q.map f32Rat, v0 := x.qd.map f32Rat, q1 := y.q.map f32Rat,
    v1 := y.qd.map f32Rat, at_ := t.start + 1000 * x.us, len := 1000 * (y.us - x.us) }

def h00 (u : Rat) : Rat := 2 * u * u * u - 3 * u * u + 1
def h10 (u : Rat) : Rat := u * u * u - 2 * u * u + u
def h01 (u : Rat) : Rat := 3 * u * u - 2 * u * u * u
def h11 (u : Rat) : Rat := u * u * u - u * u

/-- q_i(u), exactly. -/
def Seg.q (s : Seg) (i : Nat) (u : Rat) : Rat :=
  h00 u * s.q0.getD i 0 + h10 u * s.h * s.v0.getD i 0 + h01 u * s.q1.getD i 0 + h11 u * s.h * s.v1.getD i 0

/-- w_ik: the largest joint speed on the segment (R737). -/
def Seg.speed (s : Seg) (i : Nat) : Rat :=
  let q0 := s.q0.getD i 0
  let q1 := s.q1.getD i 0
  let v0 := s.v0.getD i 0
  let v1 := s.v1.getD i 0
  let a := 2 * q0 - 2 * q1 + s.h * v0 + s.h * v1
  let b := 3 * q1 - 3 * q0 - 2 * s.h * v0 - s.h * v1
  let ends := max v0.abs v1.abs
  if a = 0 then ends
  else
    let u := -b / (3 * a)
    if 0 < u ∧ u < 1 then max ends ((s.h * v0 - b * b / (3 * a)) / s.h).abs else ends

-- The sweep rule (R738 to R741) ----------------------------------------------------------------------------------------

/-- ρ_ib. -/
def Robot.rho (r : Robot) (p : Prim) (i : Nat) : Rat :=
  let mid := (r.joints.take p.link).drop (i + 1)
  let sum := mid.foldl (fun s j => s + j.pos.norm + (if j.prism then max j.qMin.abs j.qMax.abs else 0)) 0
  sum + max p.a.norm p.b.norm

/-- v_bk. -/
def Robot.bound (r : Robot) (s : Seg) (p : Prim) : Rat :=
  (List.range p.link).foldl (fun v i => v + (if (r.joint i).prism then s.speed i else s.speed i * r.rho p i)) 0

/-- E. -/
def Robot.fkBound (r : Robot) : Rat :=
  mkRat 1 (2 ^ 19) * (r.basePos.norm + r.prims.foldl (fun m p => if p.link = 0 then m else max m (r.rho p 0)) 0)

def um (n : Nat) : Rat := mkRat n 1000000

/-- n_k before it is limited to 16. -/
def Robot.subSteps (r : Robot) (voxel : Nat) (s : Seg) : Nat :=
  let v := r.prims.foldl (fun m p => max m (r.bound s p)) 0
  (v * s.h / (um voxel / 2)).ceil.toNat

/-- R_b, rounded up to FP32. -/
def Robot.inflated (r : Robot) (p : Prim) (bound : Rat) (h : Rat) (n margin : Nat) : Rat :=
  f32Rat (fp32.ofRat (p.radius + bound * h / (2 * (n : Rat)) + um margin + r.fkBound) .rup)

/-- One coordinate as the Checker's FP32 kinematics gives it: within E of its exact value, where no rule says. -/
def Robot.rounded (r : Robot) (q : List Nat) (coord : Nat) (x : Rat) : Rat :=
  let e := mkRat ((Config.fkError r.bytes q coord % (2 ^ 24 + 1) : Nat) - (2 ^ 23 : Int)) (2 ^ 23)
  f32Rat (fp32.ofRat (x + e * r.fkBound))

-- Reading an epoch (R730, R742) ----------------------------------------------------------------------------------------

/-- The leaf of a brick, or the CHILD_DIST of the deepest node that covers it; `fuel` levels from `depth`. -/
def Epoch.descend (e : Epoch) (x y z : Nat) : Nat → Nat → Nat → EngM (Except Nat (List Byte))
  | 0, depth, ix => do
    let n ← e.node ix depth
    return .ok n
  | fuel + 1, depth, ix => do
    let n ← e.node ix depth
    let c := bit1 x fuel + 2 * bit1 y fuel + 4 * bit1 z fuel
    if hasChild n c then e.descend x y z fuel (depth + 1) (childIx n c)
    else return .error (fieldAt n (0x18 + 2 * c) 2)

/-- A box of voxels cut to the cube, as bricks; none when it lies outside. -/
def Epoch.bricks (e : Epoch) (v : VBox) : Option VBox :=
  let top : Int := (hSize e.h : Int) - 1
  let cut (a b : Int) : Option (Int × Int) := if b < 0 ∨ top < a then none else some (max a 0 / 8, min b top / 8)
  match cut v.lo.1 v.hi.1, cut v.lo.2.1 v.hi.2.1, cut v.lo.2.2 v.hi.2.2 with
  | some x, some y, some z => some ⟨(x.1, y.1, z.1), (x.2, y.2, z.2)⟩
  | _, _, _ => none

/-- The leaves in a box of voxels. -/
def Epoch.leavesIn (e : Epoch) (v : VBox) : EngM (List (List Byte)) :=
  match e.bricks v with
  | none => pure []
  | some b => e.within b (hDepth e.h) 0 0 (0, 0, 0)

/-- A leaf's occupancy brick. -/
def Epoch.occupancy (e : Epoch) (n : List Byte) : EngM Nat := do
  let br := fieldAt n 0x10 4
  if hUsed e.h 1 ≤ br then badNode
  let l ← ncRead e.w (hBricks e.h + 1088 * br) 64
  return ofLe l

/-- A leaf's brick in slice s, zero when none is stored. -/
def Epoch.sliceBrick (e : Epoch) (n : List Byte) (s : Nat) : EngM Nat := do
  if (leafMask n).testBit (s - 1) then
    let ix := fieldAt n 0x14 4 + popCount (leafMask n) (s - 1)
    if hUsed e.h 2 ≤ ix then badNode
    let l ← ncRead e.w (hSliceBase e.h + 64 * ix) 64
    return ofLe l
  else return 0

/-- A voxel's distance value, as DF16 (R742; R696 and R697 outside the cube). -/
def Epoch.distance (e : Epoch) (x y z : Int) : EngM Nat := do
  let top : Int := hSize e.h
  let inside (v : Int) : Bool := decide (0 ≤ v ∧ v < top)
  if inside x && inside y && inside z then
    let i := x.toNat
    let j := y.toNat
    let k := z.toNat
    let r ← e.descend (i / 8) (j / 8) (k / 8) (hDepth e.h) 0 0
    match r with
    | .error d => return d
    | .ok n =>
      let br := fieldAt n 0x10 4
      if hUsed e.h 1 ≤ br then badNode
      let l ← ncRead e.w (hBricks e.h + 1088 * br + 64 + 2 * (i % 8 + 8 * (j % 8) + 64 * (k % 8))) 2
      return ofLe l
  else
    let near : VBox := ⟨(x - 34, y - 34, z - 34), (x + 34, y + 34, z + 34)⟩
    let leaves ← e.leavesIn near
    let mut t : Tab Nat := []
    for n in leaves do
      let o ← e.occupancy n
      t := Tab.put t (leafKey n) o
    let o : Occ := { n := hSize e.h, out := hOut e.h, bricks := t }
    return o.dist o.voxels x y z

/-- The voxel of a world point along an axis. -/
def Epoch.voxelOf (e : Epoch) (axis : Nat) (c : Rat) : Int := ((c * 1000000 - (hOrigin e.h axis : Rat)) / ((hVoxel e.h : Nat) : Rat)).floor

/-- The voxels whose closed cubes meet a closed interval of a world axis. -/
def Epoch.span (e : Epoch) (axis : Nat) (lo hi : Rat) : Int × Int :=
  let v (x : Rat) : Rat := (x * 1000000 - (hOrigin e.h axis : Rat)) / ((hVoxel e.h : Nat) : Rat)
  ((v lo).ceil - 1, (v hi).floor)

/-- The bits of a brick whose voxels lie in a box. -/
def brickHits (v : VBox) (key bits : Nat) : Bool :=
  (bitList bits 512).any fun i =>
    let x : Int := (8 * keyX key + i % 8 : Nat)
    let y : Int := (8 * keyY key + i / 8 % 8 : Nat)
    let z : Int := (8 * keyZ key + i / 64 : Nat)
    decide (v.lo.1 ≤ x ∧ x ≤ v.hi.1 ∧ v.lo.2.1 ≤ y ∧ y ≤ v.hi.2.1 ∧ v.lo.2.2 ≤ z ∧ z ≤ v.hi.2.2)

/-- A box reaches outside the cube. -/
def Epoch.leaves (e : Epoch) (v : VBox) : Bool :=
  let top : Int := hSize e.h
  decide (v.lo.1 < 0 ∨ v.lo.2.1 < 0 ∨ v.lo.2.2 < 0 ∨ top ≤ v.hi.1 ∨ top ≤ v.hi.2.1 ∨ top ≤ v.hi.2.2)

/-- The slices tested for counts a to b, and whether the horizon is passed (R741). -/
def Epoch.slices (e : Epoch) (a b : Nat) : List Nat × Bool :=
  let n := hSlices e.h
  let t := hT0 e.h
  let w := hSliceNs e.h
  let met := ((List.range n).map (· + 1)).filter fun s => decide (a ≤ t + s * w ∧ t + (s - 1) * w < b)
  let past := n != 0 && decide (t + n * w < b)
  (if past && !decide (n ∈ met) then met ++ [n] else met, past)

-- The sample test (R742 to R744, R748) ---------------------------------------------------------------------------------

/-- One sample's outcome. -/
structure Sample where
  g : Rat
  present : Bool
  slice : Bool
  box : VBox
  deriving DecidableEq, Repr

/-- A placed primitive: its midpoint and half axis as the Checker computes them. -/
structure PrimAt where
  mid : V3
  half : V3
  deriving DecidableEq, Repr

def Robot.placePrim (r : Robot) (q : List Nat) (links : List Pose) (ix : Nat) (p : Prim) : PrimAt :=
  let f := links.getD p.link Pose.world
  let m := f.at (V3.scale (1 / 2) (p.a.add p.b))
  let d := f.dir (V3.scale (1 / 2) (p.b.sub p.a))
  let c (k : Nat) (x : Rat) : Rat := r.rounded q (8 * ix + k) x
  { mid := ⟨c 0 m.x, c 1 m.y, c 2 m.z⟩,
    half := if p.capsule then ⟨c 3 d.x, c 4 d.y, c 5 d.z⟩ else ⟨0, 0, 0⟩ }

/-- Leaf bricks read in box tests counted. -/
def countBox (w : Who) : EngM Unit := modM fun b => if b.on .NC_CTRL_STAT_EN w.die then b.bump .CK_BOX_COUNT w.die else b

/-- A sample tested against the present and the slices given. -/
def Epoch.sample (e : Epoch) (p : Prim) (pl : PrimAt) (radius : Rat) (slices : List Nat) : EngM Sample := do
  let c := pl.mid
  let d ← e.distance (e.voxelOf 0 c.x) (e.voxelOf 1 c.y) (e.voxelOf 2 c.z)
  let edges := mkRat (dfInt d) 1024
  let half := V3.norm (V3.scale (1 / 2) (p.b.sub p.a))
  let g := (edges - mkRat 8662 10000) * um (hVoxel e.h) - half - radius
  let side (axis : Nat) (m h : Rat) : Int × Int := e.span axis (m - h.abs - radius) (m + h.abs + radius)
  let x := side 0 c.x pl.half.x
  let y := side 1 c.y pl.half.y
  let z := side 2 c.z pl.half.z
  let box : VBox := ⟨(x.1, y.1, z.1), (x.2, y.2, z.2)⟩
  let close := decide (g ≤ 0)
  let tested (n : List Byte) : Bool := slices.any fun s => (leafMask n).testBit (s - 1)
  let mut present := close && hOut e.h && e.leaves box
  let mut slice := false
  if close || slices != [] then
    let ls ← e.leavesIn box
    for n in ls do
      if close || tested n then
        countBox e.w
        let o ← e.occupancy n
        if close && brickHits box (leafKey n) o then present := true
        if tested n then
          for s in slices do
            if (leafMask n).testBit (s - 1) then
              let t ← e.sliceBrick n s
              if brickHits box (leafKey n) (o ||| t) then slice := true
  return { g := g, present := present, slice := slice, box := box }

/-- The joint gradient at a sample, one FP32 number for each of 16 joints (R748). -/
def Epoch.gradient (e : Epoch) (r : Robot) (q : List Nat) (joints : List Pose) (p : Prim) (c : V3) : EngM (List Nat) := do
  let x := e.voxelOf 0 c.x
  let y := e.voxelOf 1 c.y
  let z := e.voxelOf 2 c.z
  let diff (a b : Nat) : Rat := mkRat (dfInt a - dfInt b) 2048
  let x1 ← e.distance (x + 1) y z
  let x0 ← e.distance (x - 1) y z
  let y1 ← e.distance x (y + 1) z
  let y0 ← e.distance x (y - 1) z
  let z1 ← e.distance x y (z + 1)
  let z0 ← e.distance x y (z - 1)
  let d : V3 := ⟨diff x1 x0, diff y1 y0, diff z1 z0⟩
  let at_ (i k : Nat) (v : Rat) : Rat := r.rounded q (1024 + 8 * i + k) v
  return (List.range 16).map fun i =>
    if i < r.joints.length ∧ i < p.link then
      let f := joints.getD i Pose.world
      let axis : V3 := ⟨at_ i 0 f.ez.x, at_ i 1 f.ez.y, at_ i 2 f.ez.z⟩
      let o : V3 := ⟨at_ i 3 f.o.x, at_ i 4 f.o.y, at_ i 5 f.o.z⟩
      fp32.ofRat (d.dot (if (r.joint i).prism then axis else axis.cross (c.sub o)))
    else 0

-- Segments (R747, R754) ------------------------------------------------------------------------------------------------

/-- A segment's result, as its record holds it; `sub` and `hit` are the sub-step and primitive of its first contact. -/
structure SegRes where
  clear : Nat
  u : Nat
  prim : Nat
  subs : Nat
  contact : Bool
  slice : Bool
  capped : Bool
  horizon : Bool
  tested : Bool
  epoch : Nat
  box : List Nat
  first : Nat
  grad : List Nat
  sub : Option Nat
  hit : Option Nat
  deriving DecidableEq, Repr

def SegRes.untested : SegRes :=
  { clear := 0, u := 0, prim := 0, subs := 0, contact := false, slice := false, capped := false, horizon := false, tested := false,
    epoch := 0, box := List.replicate 6 0, first := 0, grad := List.replicate 16 0, sub := none, hit := none }

def SegRes.bytes (s : SegRes) : List Byte :=
  let fl := b2n s.contact + 2 * b2n s.slice + 4 * b2n s.capped + 8 * b2n s.horizon + 16 * b2n s.tested
  leBytes 4 s.clear ++ leBytes 4 s.u ++ [byteOf s.prim, byteOf s.subs, byteOf fl, 0] ++ leBytes 4 s.epoch ++
    s.box.flatMap (leBytes 2) ++ zeros 4 ++ leBytes 8 s.first ++ zeros 24 ++ s.grad.flatMap (leBytes 4)

/-- A record of an earlier check. Its contact sub-step is the one whose interval starts at FIRST_CONTACT. -/
def segOf (s : Seg) (l : List Byte) : SegRes :=
  let fl := fieldAt l 0x0A 1
  let n := fieldAt l 9 1
  let first := fieldAt l 0x20 8
  { clear := fieldAt l 0 4, u := fieldAt l 4 4, prim := fieldAt l 8 1, subs := n, contact := fl.testBit 0, slice := fl.testBit 1,
    capped := fl.testBit 2, horizon := fl.testBit 3, tested := fl.testBit 4, epoch := fieldAt l 0x0C 4,
    box := (List.range 6).map fun i => fieldAt l (0x10 + 2 * i) 2, first := first,
    grad := (List.range 16).map fun i => fieldAt l (0x40 + 4 * i) 4,
    sub := if n = 0 then none else (List.range n).find? fun j => s.at_ + j * s.len / n == first, hit := none }

/-- What a check is asked to do. -/
structure CheckJob where
  robot : Robot
  margin : Nat
  exitFirst : Bool
  ep : Epoch
  deriving DecidableEq, Repr

/-- A segment while its samples are tested: the least g with its u, joint values and primitive. -/
structure SegRun where
  best : Option (Rat × Rat × List Nat × Nat × V3)
  contact : Option (Nat × Nat × Nat)
  slice : Bool
  horizon : Bool
  box : Option VBox
  deriving DecidableEq, Repr

def VBox.join (a b : VBox) : VBox :=
  ⟨(min a.lo.1 b.lo.1, min a.lo.2.1 b.lo.2.1, min a.lo.2.2 b.lo.2.2), (max a.hi.1 b.hi.1, max a.hi.2.1 b.hi.2.1, max a.hi.2.2 b.hi.2.2)⟩

/-- A voxel coordinate as the brick coordinate a segment record holds. -/
def Epoch.brickCoord (e : Epoch) (v : Int) : Nat := (max 0 (min v ((hSize e.h : Int) - 1))).toNat / 8

/-- Sub-step j of n of a segment: every primitive in order. -/
def CheckJob.subStep (c : CheckJob) (s : Seg) (n j : Nat) (x : SegRun) : EngM SegRun := do
  let r := c.robot
  let u : Rat := mkRat (2 * j + 1 : Nat) (2 * n)
  let q := (List.range r.joints.length).map fun i => fp32.ofRat (s.q i u)
  let (_, links) := r.frames (q.map f32Rat)
  let a := s.at_ + j * s.len / n
  let b := s.at_ + ceilDiv ((j + 1) * s.len) n
  let (slices, past) := c.ep.slices a b
  let mut x := { x with horizon := x.horizon || past }
  for i in [0:r.prims.length] do
    let p := r.prims.getD i ⟨0, false, ⟨0, 0, 0⟩, ⟨0, 0, 0⟩, 0⟩
    let pl := r.placePrim q links i p
    let t ← c.ep.sample p pl (r.inflated p (r.bound s p) s.h n c.margin) slices
    modM fun b => if b.on .NC_CTRL_STAT_EN c.ep.w.die then b.bump .CK_SAMPLES_COUNT c.ep.w.die (1 + b2n p.capsule) else b
    let better := match x.best with | none => true | some y => decide (t.g < y.1)
    x := { best := if better then some (t.g, u, q, i, pl.mid) else x.best,
           contact := if x.contact.isNone && (t.present || t.slice) then some (a, j, i) else x.contact,
           slice := x.slice || t.slice, horizon := x.horizon,
           box := some (match x.box with | none => t.box | some y => y.join t.box) }
  return x

/-- Sub-steps in turn; with EXIT_FIRST none after the one with the first contact. -/
def CheckJob.subSteps (c : CheckJob) (s : Seg) (n : Nat) : Nat → SegRun → EngM SegRun
  | 0, x => pure x
  | left + 1, x =>
    if c.exitFirst && x.contact.isSome then pure x
    else do
      let x ← c.subStep s n (n - left - 1) x
      c.subSteps s n left x

/-- A segment tested. -/
def CheckJob.segment (c : CheckJob) (s : Seg) : EngM SegRes := do
  let r := c.robot
  let want := r.subSteps (hVoxel c.ep.h) s
  let n := min 16 (max 1 want)
  let x ← c.subSteps s n n { best := none, contact := none, slice := false, horizon := false, box := none }
  let (g, u, q, i, mid) := x.best.getD (0, 0, [], 0, ⟨0, 0, 0⟩)
  let (joints, _) := r.frames (q.map f32Rat)
  let p := r.prims.getD i ⟨0, false, ⟨0, 0, 0⟩, ⟨0, 0, 0⟩, 0⟩
  let grad ← c.ep.gradient r q joints p mid
  let box := x.box.getD (VBox.voxel 0 0 0)
  let k := c.ep.brickCoord
  return { clear := fp32.ofRat g, u := fp32.ofRat u, prim := i, subs := n, contact := x.contact.isSome, slice := x.slice,
           capped := decide (16 < want), horizon := x.horizon, tested := true, epoch := hEpoch c.ep.h,
           box := [k box.lo.1, k box.lo.2.1, k box.lo.2.2, k box.hi.1, k box.hi.2.1, k box.hi.2.2],
           first := (x.contact.map (·.1)).getD 0, grad := grad, sub := x.contact.map (·.2.1), hit := x.contact.map (·.2.2) }

-- Cost (R750) ----------------------------------------------------------------------------------------------------------

/-- One joint's part of the exact integral of the squared acceleration over a segment. -/
def Seg.smooth (s : Seg) (i : Nat) : Rat :=
  let d := s.q1.getD i 0 - s.q0.getD i 0
  let v0 := s.v0.getD i 0
  let v1 := s.v1.getD i 0
  4 / s.h * (v0 * v0 + v0 * v1 + v1 * v1) - 12 / (s.h * s.h) * d * (v0 + v1) + 12 / (s.h * s.h * s.h) * d * d

/-- Exact terms added in FP32, in order. -/
def f32Sum (l : List Rat) : Nat := l.foldl (fun a x => fp32.add a (fp32.ofRat x)) 0

/-- max(0, D_SAFE − c)². -/
def lack (dsafe c : Nat) : Rat :=
  let x := max 0 (f32Rat dsafe - f32Rat c)
  x * x

/-- The cost of a trajectory with the clearances of its tested segments, as FP32. -/
def costOf (wSmooth wClear dsafe : Nat) (j : Nat) (segs : List Seg) (clears : List Nat) : Nat :=
  let s := f32Sum (segs.flatMap fun g => (List.range j).map g.smooth)
  let c := f32Sum (clears.map (lack dsafe))
  fp32.add (fp32.mul wSmooth s) (fp32.mul wClear c)

-- Candidates (R745, R753, R760, R761) ----------------------------------------------------------------------------------

/-- A box of bricks of a segment record. -/
def boxOf (l : List Nat) : VBox :=
  let c (i : Nat) : Int := (l.getD i 0 : Nat)
  ⟨(c 0, c 1, c 2), (c 3, c 4, c 5)⟩

def boxHas (v : VBox) (key : Nat) : Bool :=
  let inn (x : Nat) (lo hi : Int) : Bool := decide (lo ≤ (x : Int) ∧ (x : Int) ≤ hi)
  inn (keyX key) v.lo.1 v.hi.1 && inn (keyY key) v.lo.2.1 v.hi.2.1 && inn (keyZ key) v.lo.2.2 v.hi.2.2

/-- The captured epoch's T0 differs from that of a record's epoch; an epoch other than PREV's has no T0 to compare, and counts as
different. -/
def Epoch.t0Moved (e : Epoch) (epoch : Nat) : EngM Bool := do
  if hPrev e.h = 0 then return true
  let p ← readM e.w (hPrev e.h) 128
  return hEpoch p != epoch || hT0 p != hT0 e.h

/-- A change entry names a brick of the box. -/
def Epoch.changed (e : Epoch) (v : VBox) : EngM Bool := do
  let l ← ncRead e.w (hChanges e.h) (8 * hUsed e.h 3)
  return (List.range (hUsed e.h 3)).any fun i =>
    boxHas v (brickKey (fieldAt l (8 * i) 2) (fieldAt l (8 * i + 2) 2) (fieldAt l (8 * i + 4) 2))

/-- A segment record must be re-tested (R760). -/
def Epoch.stale (e : Epoch) (r : SegRes) : EngM Bool := do
  let ep := hEpoch e.h
  if !r.tested || decide (ep ≤ r.epoch) || (hFlags e.h).testBit 1 then return true
  let v := boxOf r.box
  let inVox : VBox := ⟨(8 * v.lo.1, 8 * v.lo.2.1, 8 * v.lo.2.2), (8 * v.hi.1 + 7, 8 * v.hi.2.1 + 7, 8 * v.hi.2.2 + 7)⟩
  let moved ← e.t0Moved r.epoch
  let leaves ← e.leavesIn inVox
  if moved && leaves.any (fun n => leafMask n != 0) then return true
  if r.epoch + 1 = ep && !(hFlags e.h).testBit 0 then e.changed v
  else
    let upper ← match e.bricks inVox with
      | none => pure []
      | some b => e.within b (hDepth e.h - 1) 0 0 (0, 0, 0)
    return leaves.any (fun n => decide (r.epoch < fieldAt n 0x18 4)) || upper.any fun n => decide (r.epoch < fieldAt n 0x10 4)

/-- What a candidate came to. -/
structure CandRes where
  segs : List (Nat × SegRes)
  kept : Bool
  retests : Nat
  exited : Bool
  deriving DecidableEq, Repr

/-- The segments from `first` on, in order: tested, or kept under a repair; `old` are the records of the earlier check. -/
def CheckJob.segments (c : CheckJob) (t : Traj) (old : Option (Tab (List Byte))) : Nat → Nat → CandRes → EngM CandRes
  | 0, _, x => pure x
  | left + 1, k, x => do
    let s := t.seg k
    let (redo, prior) ← match old with
      | none => pure (true, SegRes.untested)
      | some o => do
        let r := segOf s (Tab.get o k [])
        let st ← c.ep.stale r
        pure (st, r)
    if !redo then
      let x := { x with segs := x.segs ++ [(k, prior)], kept := true }
      c.segments t old left (k + 1) x
    else if x.exited then
      c.segments t old left (k + 1) { x with segs := x.segs ++ [(k, SegRes.untested)] }
    else
      let r ← c.segment s
      let x := { x with segs := x.segs ++ [(k, r)], retests := x.retests + b2n old.isSome, exited := c.exitFirst && r.contact }
      c.segments t old left (k + 1) x

/-- The 32 bytes of a candidate record (R753). -/
def candBytes (verdict vflags seg sub prim first clear minSeg rechecked epoch cost : Nat) : List Byte :=
  [byteOf verdict, byteOf vflags, byteOf seg, byteOf sub, byteOf prim, 0, 0, 0] ++ leBytes 8 first ++ leBytes 4 clear ++
    [byteOf minSeg, byteOf rechecked, 0, 0] ++ leBytes 4 epoch ++ leBytes 4 cost

def f32NaN : Nat := 0x7FC00000

/-- A record without results: its MIN_CLEAR and MIN_SEG are free. -/
def emptyCand (verdict epoch : Nat) : EngM (List Byte) := do
  let l ← engM fun b => let (l, b) := b.freeBytes 5
                        (.ok l, b)
  return candBytes verdict 0 0xFF 0xFF 0xFF 0 (ofLe (l.take 4)) (ofLe (l.drop 4)) 0 epoch f32NaN

/-- The tested segment of least clearance. -/
def leastClear (l : List (Nat × SegRes)) : Option (Nat × SegRes) :=
  l.foldl (fun m x => if !x.2.tested then m else match m with
    | none => some x
    | some y => if (fp32.dec x.2.clear).lt (fp32.dec y.2.clear) then some x else m) none

/-- A candidate's record, formed from all its segments. -/
def CandRes.record (x : CandRes) (cost epoch : Nat) : EngM (List Byte) := do
  let hit := x.segs.find? fun e => e.2.contact
  let any (f : SegRes → Bool) : Bool := x.segs.any fun e => f e.2
  let vf := b2n (any (·.slice)) + 2 * b2n (any (·.capped)) + 4 * b2n (any (·.horizon)) + 8 * b2n x.kept + 16 * b2n x.exited
  let (sk, mc) := match leastClear x.segs with | some y => (y.1, y.2.clear) | none => (0, 0)
  match hit with
  | none => return candBytes 1 vf 0xFF 0xFF 0xFF 0 mc sk x.retests epoch cost
  | some (k, r) =>
    let l ← engM fun b => let (l, b) := b.freeBytes 2
                          (.ok l, b)
    let free (o : Option Nat) (i : Nat) : Nat := o.getD (l.getD i 0).toNat
    return candBytes 2 vf k (free r.sub 0) (free r.hit 1) r.first mc sk x.retests epoch f32NaN

-- The CHECK descriptor (R751, R752, R755 to R759) ----------------------------------------------------------------------

def ckParams (d : List Byte) : Nat := dArg d 0x00 8
def ckCount (d : List Byte) : Nat := dArg d 0x08 4
def ckFlags (d : List Byte) : Nat := dArg d 0x0D 1
def ckDie (d : List Byte) : Nat := bits (ckFlags d) 0 2
def ckExit (d : List Byte) : Bool := (ckFlags d).testBit 2
def ckSegOut (d : List Byte) : Bool := (ckFlags d).testBit 3
def ckRepair (d : List Byte) : Bool := (ckFlags d).testBit 4

/-- The check block. -/
def cbRobot (c : List Byte) : Nat := fieldAt c 0x00 8
def cbCands (c : List Byte) : Nat := fieldAt c 0x08 8
def cbStride (c : List Byte) : Nat := fieldAt c 0x10 4
def cbMargin (c : List Byte) : Nat := fieldAt c 0x14 4
def cbOutRec (c : List Byte) : Nat := fieldAt c 0x18 8
def cbOutCost (c : List Byte) : Nat := fieldAt c 0x20 8
def cbOutSeg (c : List Byte) : Nat := fieldAt c 0x28 8
def cbReport (c : List Byte) : Nat := fieldAt c 0x30 8
def cbKnots (c : List Byte) : Nat := fieldAt c 0x44 1
def cbFirst (c : List Byte) : Nat := fieldAt c 0x45 1

/-- A weight: FP32, finite, at least 0. -/
def weightBad (l : List Byte) (o : Nat) : Bool :=
  let v := fp32.dec (fieldAt l o 4)
  !v.isFinite || (v.isNeg && !v.isZero)

def ckArgsBad (d : List Byte) : Bool :=
  ckParams d % 64 != 0 || ckCount d == 0 || decide (65536 < ckCount d) || decide (7 < ckWorld d) || ckDie d == 3 ||
    bits (ckFlags d) 5 3 != 0 || dArg d 0x0E 18 != 0 || dWidth d != 0

def ckBlockBad (d c : List Byte) : Bool :=
  let seg := ckSegOut d || ckRepair d
  cbRobot c % 64 != 0 || cbCands c % 64 != 0 || cbStride c % 64 != 0 || decide (1000000 < cbMargin c) || cbOutRec c % 32 != 0 ||
    (seg && cbOutSeg c == 0) || (!seg && cbOutSeg c != 0) || cbReport c % 64 != 0 ||
    [0x38, 0x3C, 0x40].any (weightBad c) || decide (cbKnots c < 2) || decide (64 < cbKnots c) || decide (cbKnots c ≤ cbFirst c + 1) ||
    fieldAt c 0x46 58 != 0

/-- A robot block read and judged; none when it is bad. -/
def readRobot (w : Who) (a : Nat) : EngM (Option Robot) := do
  let h ← readM w a 64
  let nj := fieldAt h 4 1
  let np := fieldAt h 5 1
  if nj = 0 ∨ 16 < nj ∨ np = 0 ∨ 128 < np then return none
  let l ← readM w a (robotLen nj np)
  return if robotBad l then none else some (robotOf l)

/-- What a CHECK reads before it tests anything, or the cause of its violation. -/
structure CheckIn where
  c : List Byte
  job : CheckJob
  deriving DecidableEq, Repr

def readCheck (w : Who) (d : List Byte) (world : Nat) : EngM (Except Nat CheckIn) := do
  if ckArgsBad d then return .error 0xF0
  let c ← readM w (ckParams d) 128
  if ckBlockBad d c then return .error 0xF0
  let rob ← readRobot w (cbRobot c)
  match rob with
  | none => return .error 0xF1
  | some r =>
    if cbStride c < trajLen r.joints.length (cbKnots c) then return .error 0xF0
    if world = 0 then return .error 0xF2
    let h ← readM w world 128
    return .ok { c := c, job := { robot := r, margin := cbMargin c, exitFirst := ckExit d, ep := { w := w, h := h } } }

/-- A CHECK's running totals: candidates checked, CLEAR verdicts, the best with its cost. -/
structure CheckSum where
  checked : Nat
  clear : Nat
  best : Option (Nat × Nat)
  deriving DecidableEq, Repr

def CheckSum.add (s : CheckSum) (i : Nat) (clear : Bool) (cost : Nat) : CheckSum :=
  let best := if !clear then s.best else match s.best with
    | none => some (i, cost)
    | some y => if (fp32.dec cost).lt (fp32.dec y.2) then some (i, cost) else s.best
  { checked := s.checked + 1, clear := s.clear + b2n clear, best := best }

def statM (w : Who) (f : Fld) (k : Nat) : EngM Unit :=
  modM fun b => if k != 0 && b.on .NC_CTRL_STAT_EN w.die then b.bump f w.die k else b

/-- Candidate i checked and its outputs written (R757). -/
def CheckIn.candidate (x : CheckIn) (w : Who) (d : List Byte) (i : Nat) : EngM (Bool × Nat) := do
  let c := x.c
  let r := x.job.robot
  let nj := r.joints.length
  let nk := cbKnots c
  let ns := nk - 1
  let ep := hEpoch x.job.ep.h
  let l ← readM w (cbCands c + i * cbStride c) (trajLen nj nk)
  let segAt := cbOutSeg c + i * 128 * ns
  let first := cbFirst c
  let put (rec_ : List Byte) (cost : Nat) : EngM Unit := do
    writeM w (cbOutRec c + 32 * i) rec_
    if cbOutCost c ≠ 0 then writeM w (cbOutCost c + 4 * i) (leBytes 4 cost)
  statM w .CK_CANDS_COUNT 1
  if trajBad nj nk l then
    let rec_ ← emptyCand 3 ep
    put rec_ f32NaN
    if ckSegOut d && !ckRepair d then
      for k in [first:ns] do
        writeM w (segAt + 128 * k) SegRes.untested.bytes
    return (false, f32NaN)
  let t := trajOf nj nk l
  let old ← if ckRepair d then do
      let s ← readM w (segAt + 128 * first) (128 * (ns - first))
      pure (some ((List.range (ns - first)).map fun k => (first + k, slice s (128 * k) 128)))
    else pure none
  let res ← x.job.segments t old (ns - first) first { segs := [], kept := false, retests := 0, exited := false }
  let contact := res.segs.any fun e => e.2.contact
  let cost := if contact then f32NaN
    else costOf (fieldAt c 0x38 4) (fieldAt c 0x3C 4) (fieldAt c 0x40 4) nj ((List.range ns).map t.seg) (res.segs.map (·.2.clear))
  let rec_ ← res.record cost ep
  put rec_ cost
  if cbOutSeg c ≠ 0 then
    for e in res.segs do
      let kept := match old with | none => false | some _ => e.2.tested && e.2.epoch != ep
      if !kept then writeM w (segAt + 128 * e.1) e.2.bytes
  statM w .CK_CONTACTS_COUNT (b2n contact)
  statM w .CK_REPAIRED_COUNT res.retests
  return (!contact, cost)

/-- Candidates in ascending index, each preceded by its deadline test. -/
def CheckIn.run (x : CheckIn) (w : Who) (d : List Byte) (late : Nat → Bool) : Nat → Nat → CheckSum → EngM CheckSum
  | 0, _, s => pure s
  | left + 1, i, s =>
    if late i then pure s
    else do
      let r ← x.candidate w d i
      x.run w d late left (i + 1) (s.add i r.1 r.2)

/-- The records of the candidates a deadline kept from starting. -/
def CheckIn.unstarted (x : CheckIn) (w : Who) : Nat → Nat → EngM Unit
  | 0, _ => pure ()
  | left + 1, i => do
    let rec_ ← emptyCand 0 (hEpoch x.job.ep.h)
    writeM w (cbOutRec x.c + 32 * i) rec_
    if cbOutCost x.c ≠ 0 then writeM w (cbOutCost x.c + 4 * i) (leBytes 4 f32NaN)
    x.unstarted w left (i + 1)

/-- The report (R755); BEST_COST is free when no candidate is CLEAR. -/
def checkReport (s : CheckSum) (epoch start stop : Nat) : EngM (List Byte) := do
  let l ← engM fun b => if s.best.isSome then (.ok [], b) else let (l, b) := b.freeBytes 4
                                                               (.ok l, b)
  let (i, c) := s.best.getD (0xFFFFFFFF, ofLe l)
  return [0x43, 0x48, 0x45, 0x4B] ++ leBytes 4 s.checked ++ leBytes 4 s.clear ++ leBytes 4 i ++ leBytes 4 c ++ leBytes 4 epoch ++
    zeros 8 ++ leBytes 8 start ++ leBytes 8 stop ++ zeros 16

/-- CHECK on memory: the totals. -/
def CheckIn.all (x : CheckIn) (w : Who) (d : List Byte) (late : Nat → Bool) (start : Nat) (stop : Nat → Nat) : EngM CheckSum := do
  let n := ckCount d
  let s ← x.run w d late n 0 { checked := 0, clear := 0, best := none }
  x.unstarted w (n - s.checked) s.checked
  let rep ← checkReport s (hEpoch x.job.ep.h) start (stop s.checked)
  writeM w (cbReport x.c) rep
  return s

/-- A CHECK whose blocks were read: DONE or, when the deadline kept candidates from starting, DEADLINE, with the number checked. -/
def Block.runCheck (b : Block) (w : Who) (j : Job) (x : CheckIn) (start : Nat) (clock : List Nat) : Block :=
  match (x.all w j.desc (b.deadlineAt j clock) start (fun k => b.clockAt clock (k + 1))).go b with
  | (.error f, b) => b.endJob j f.status f.cause 0
  | (.ok s, b) => if s.checked < ckCount j.desc then b.conclude j stDeadline 0 s.checked else b.conclude j stDone 0 s.checked

/-- CHECK (R751 to R761). -/
def Block.check (b : Block) (id : Nat) (clock : List Nat) : Block :=
  match b.checkersStart (isOp 0x31) id with
  | (none, b) => b
  | (some (j, b), _) =>
    let die := (b.engDie j).getD 0
    let w : Who := { die := die, part := j.part, job := j.id }
    let d := j.desc
    let b := b.dieWorks die
    let start := b.gmc
    let j := b.capture j
    match (readCheck w d (j.epoch.getD 0)).go b with
    | (.error f, b) => b.conclude j f.status f.cause 0
    | (.ok (.error c), b) => b.violateJob j c
    | (.ok (.ok x), b) => b.runCheck w j x start clock

end Sys2Proof.Machine
end

