-- ==== Sys2Proof/Machine/Gmc.lean ====
section
/-! DEFINITION. The global mill count (spec/11): its states, the parent port, SYNC exchanges, steps, slews, and the Cog generator. The
replicas on the grind dies read the same count (R534), so one count serves the whole package. -/

namespace Sys2Proof.Machine

def Block.setGs (b : Block) (x : GmcSync) : Block := { b with gs := x }

/-- GMC states (R535). -/
def gSyncing : Nat := 0
def gLocked : Nat := 1
def gHoldover : Nat := 2
def gUnsync : Nat := 3

def Block.gState (b : Block) : Nat := b.get .GMC_STATUS_STATE

/-- A change of STATE: its event of block 0x60, its sticky bit, and line 8 at every Miller core (R783). -/
def Block.setGState (b : Block) (st : Nat) : Block :=
  if b.gState = st then b
  else
    let b := (b.set .GMC_STATUS_STATE 0 st).raiseAll 8
    if st = gLocked then b.event 0x60 0x01
    else if st = gHoldover then (b.set .GMC_SEEN_HOLDOVER 0 1).event 0x60 0x02
    else if st = gUnsync then (b.set .GMC_SEEN_UNSYNC 0 1).event 0x60 0x03
    else b

/-- A port in TORUS or EXPRESS mode in STANDBY or ACTIVE. -/
def Block.syncPort (b : Block) (n : Nat) : Bool :=
  (b.portMode n == mdTorus || b.portMode n == mdExpress) && (b.portState n == pStandby || b.portState n == pActive)

/-- The package is the root (R537). -/
def Block.isRoot (b : Block) : Bool := b.pkg == b.get .GMC_CFG_REF_PKG || !(List.range 8).any b.syncPort

/-- The first hop of R483 toward the root package under the active table (R536). -/
def Block.parentPort (b : Block) : Option Nat :=
  match b.nextDim (b.get .GMC_CFG_REF_PKG), b.routeFrom b.pkg (b.get .GMC_CFG_REF_PKG) with
  | some d, some r => (r.getD d none).map (torusPort d)
  | _, _ => none

/-- ROOT and PARENT brought up to date; a new parent is event 0x05 (R536). -/
def Block.chooseParent (b : Block) : Block :=
  let root := b.isRoot
  let b := b.set .GMC_STATUS_ROOT 0 (b2n root)
  if root then b.set .GMC_STATUS_DEPTH 0 0
  else match b.parentPort with
    | some n =>
      if b.get .GMC_STATUS_PARENT = n then b
      else ((b.set .GMC_STATUS_PARENT 0 n).set .GMC_SEEN_PARENT_CHANGE 0 1).event 0x60 0x05
    | none => b

/-- DEDUCED. After a port has come up or gone: a package that was LOCKED only as a lone root and now has a parent has not yet locked
to it, so it is SYNCING; one that is left alone acts as root. -/
def Block.gmcTopology (b : Block) : Block :=
  let was := b.get .GMC_STATUS_ROOT
  let b := if was = b2n b.isRoot then b else b.chooseParent
  if !b.isRoot && b.gState == gLocked && !b.gs.followed then b.setGState gSyncing
  else if b.isRoot && b.gState == gSyncing && b.gs.rejoin.isNone && b.pwr.released then b.setGState gLocked
  else b

/-- The release edge: the count starts at 0, and a root is LOCKED (R533, R537). -/
def Block.gmcRelease (b : Block) : Block :=
  let b := ({ b with gmc := 0 }).setGs GmcSync.reset
  let b := b.set .GMC_STATUS_ROOT 0 (b2n b.isRoot)
  if b.isRoot then b.setGState gLocked else b

/-- A stamp in units of 1/16 count (R540). -/
def Block.stamp (b : Block) (frac : Nat) : Nat := (b.gmc * 16 + frac % 16) % 2 ^ 64

/-- Signed 64-bit difference. -/
def diff64 (a c : Nat) : Int := sext 64 (toW 64 ((a : Int) - (c : Int)))

/-- A step by theta, rounded to the nearest count (R544). -/
def Block.stepGmc (b : Block) (theta : Int) : Block :=
  let k := (theta + 8) / 16
  (({ b with gmc := toW 64 ((b.gmc : Int) + k) }).set .GMC_SEEN_STEP 0 1).event 0x60 0x04

/-- The exchange that a SYNC completes: theta and delay, when it may be used (R541, R542). -/
def Block.exchange (b : Block) (n : Nat) (m : Msg) (t4 : Nat) : Option (Int × Int) :=
  let echo := bits m.rtag 12 12
  if !m.rtag.testBit 24 || !m.rtag.testBit 25 then none
  else match (Tab.get b.gs.kept n []).find? fun e => e.1 = echo with
    | none => none
    | some (_, t1) =>
      let a := diff64 m.aux t1
      let c := diff64 t4 m.addr
      let theta := (a - c).tdiv 2
      let delay := (diff64 t4 t1 - diff64 m.addr m.aux).tdiv 2
      if 0 ≤ delay ∧ delay ≤ 16000 then some (theta, delay) else none

/-- A used exchange on the parent port (R543 to R548). -/
def Block.useExchange (b : Block) (theta delay : Int) : Block :=
  let b := (b.set .GMC_THETA_THETA 0 (toW 32 theta)).set .GMC_DELAY_DELAY 0 (toW 32 delay)
  let syncing := b.gState = gSyncing
  let stepNow := decide syncing && !b.gs.stepped
  let b := if stepNow then b.stepGmc theta else b
  let good := if theta.natAbs ≤ 64 then b.gs.good + 1 else 0
  let x := b.gs
  let b := b.setGs { x with good := good, lastUsed := b.gmc, stepped := x.stepped || stepNow,
                            slew := if stepNow then 0 else Config.slewOf theta }
  if b.gState ≠ gLocked ∧ 8 ≤ good then (b.setGs { b.gs with followed := true }).setGState gLocked
  else if b.gState = gLocked ∧ 128 < theta.natAbs then (b.setGs { b.gs with good := 0 }).setGState gUnsync
  else b

/-- A root that finds a LOCKED neighbour in its first SYNC takes that neighbour's count once (R538). DEDUCED: it is SYNCING from that
SYNC until the step, so that the count never steps in another state. -/
def Block.rootSync (b : Block) (n : Nat) (m : Msg) (e : Option (Int × Int)) : Block :=
  if !b.gs.firstSync then
    let x := b.gs
    let b := b.setGs { x with firstSync := true, rejoin := if m.rtag.testBit 24 then some n else none }
    if m.rtag.testBit 24 then b.setGState gSyncing else b
  else if b.gs.rejoin = some n then
    match e with
    | none => b
    | some (theta, delay) =>
      let b := (b.set .GMC_THETA_THETA 0 (toW 32 theta)).set .GMC_DELAY_DELAY 0 (toW 32 delay)
      let b := b.stepGmc theta
      (b.setGs { b.gs with rejoin := none, stepped := true, lastUsed := b.gmc }).setGState gLocked
  else b

/-- SYNC (R541 to R548): the receive stamp is kept for the echo; the count is corrected only from the parent. -/
def Block.sync (b : Block) (n : Nat) (m : Msg) (frac : Nat) : Block :=
  let t4 := b.stamp frac
  let e := b.exchange n m t4
  let x := b.gs
  let b := b.setGs { x with rx := Tab.put x.rx n (bits m.rtag 0 12, t4) }
  if b.isRoot || b.gs.rejoin.isSome then b.rootSync n m e
  else if n ≠ b.get .GMC_STATUS_PARENT then b
  else
    let b := b.set .GMC_STATUS_DEPTH 0 (min 63 (bits m.rtag 26 6 + 1))
    match e with
    | some (theta, delay) => b.useExchange theta delay
    | none => b

/-- The SYNC a port sends now. -/
def Block.syncMsg (b : Block) (n t1 : Nat) : FMsg :=
  let seq := Tab.get b.gs.txSeq n 0
  let (echo, t2) := Tab.get b.gs.rx n (0, 0)
  let rtag := seq + echo * 2 ^ 12 + b2n (b.gState == gLocked) * 2 ^ 24 + b2n (Tab.find b.gs.rx n).isSome * 2 ^ 25 +
    b.get .GMC_STATUS_DEPTH * 2 ^ 26
  { mtype := 0x31, m := { Msg.empty with src := b.pkg, rtag := rtag, addr := t1, aux := t2 } }

/-- SYNC_SEND (R541, the text after R482): a SYNC on every STANDBY and ACTIVE port; `fracs` are the sixteenths of a count at the
transmit points. -/
def Block.syncSend (b : Block) (fracs : List Nat) : Block :=
  ((List.range 8).filter fun n => b.portState n == pStandby || b.portState n == pActive).foldl (fun b n =>
    let t1 := b.stamp (fracs.getD n 0)
    let f := b.syncMsg n t1
    let x := b.gs
    let seq := Tab.get x.txSeq n 0
    let kept := (Tab.get x.kept n [] ++ [(seq, t1)])
    let kept := kept.drop (kept.length - 16)
    let b := b.setGs { x with txSeq := Tab.put x.txSeq n ((seq + 1) % 4096), kept := Tab.put x.kept n kept }
    b.enqueue n 6 f) b

def execSyncSend (fracs : List Nat) (s : State) := s.act (·.syncSend fracs)

/-- GMC_HOLDOVER (R548). -/
def Block.gmcHoldover (b : Block) : Block :=
  if b.gState = gLocked ∧ b.isRoot = false ∧ b.gs.lastUsed + 4 * 2 ^ 16 ≤ b.gmc then b.setGState gHoldover else b

def execGmcHoldover (s : State) := s.act (·.gmcHoldover)

/-- One ck_gmc: the count advances by one, by two in a forward slew cycle and by none in a backward one; two slew cycles lie at least
5,000 ck_gmc apart (R533, R545). AON_COUNT and the rest follow their own rows. -/
def Block.gmcTick (b : Block) : Block :=
  let x := b.gs
  if x.slew ≠ 0 ∧ 5000 ≤ x.sinceSlew ∧ b.gState ≠ gSyncing then
    let up := decide (0 < x.slew)
    ({ b with gmc := (b.gmc + (if up then 2 else 0)) % 2 ^ 64 }).setGs
      { x with slew := if up then x.slew - 1 else x.slew + 1, sinceSlew := 1 }
  else ({ b with gmc := (b.gmc + 1) % 2 ^ 64 }).setGs { x with sinceSlew := min 5000 (x.sinceSlew + 1) }

-- Cog (R556 to R559) ---------------------------------------------------------------------------------------------------

def cogMix (x : Nat) : Nat :=
  let x := x ^^^ (x >>> 32)
  let x := (x * 0x0001000100010001) % 2 ^ 64
  x ^^^ (x >>> 16)

/-- Rounds r to 7 from state a, b. -/
def cogRounds (key job : Nat) : Nat → Nat → Nat → Nat → Nat × Nat
  | 0, _, a, c => (a, c)
  | n + 1, r, a, c =>
    let t := cogMix ((a + (if r % 2 = 1 then job else key) + 0x9E3779B97F4A7C15) % 2 ^ 64)
    cogRounds key job n (r + 1) (c ^^^ t) t

/-- The four words w0 to w3 as one 128-bit number, w0 lowest (R556). -/
def cog (key job stream index : Nat) : Nat :=
  let (a, c) := cogRounds key job 8 0 index stream
  a + c * 2 ^ 64

/-- Draw d of a job and stream (R558). -/
def cogDraw (key job stream d : Nat) : Nat := bits (cog key job stream (d / 4)) (32 * (d % 4)) 32

/-- COG_GO (R559). -/
def execCogGo (s : State) := s.act fun b =>
  b.set .COG_OUT_W 0 (cog (b.get .COG_KEY_VALUE) (b.get .COG_JOB_VALUE) (b.get .COG_STREAM_VALUE) (b.get .COG_INDEX_VALUE))

end Sys2Proof.Machine
end

