-- ==== Sys2Proof/Machine/Receive.lean ====
section
/-! DEFINITION. What the package does with what its Mbary ports receive (spec/10): flits and messages, their transit, requests of other
packages, responses, collectives, management floods, holds, and the routing-epoch boundary. -/

namespace Sys2Proof.Machine

-- Responses (R478, R479, R481) -----------------------------------------------------------------------------------------

/-- A request that was held for its destination leaves: it counts as sent now. -/
def Block.unpark (b : Block) (f : FMsg) : Block :=
  let reqs := b.fab.reqs.map fun q => if q.tag = f.m.rtag then { q with sentAt := b.gmc } else q
  let b := { b with fab := { b.fab with reqs := reqs, parked := b.fab.parked.erase f } }
  (b.sendVc 1 f).getD { b with fab := { b.fab with unsent := b.fab.unsent ++ [f.m.rtag] } }

/-- Requests held for a destination leave once nothing older is outstanding there (R481). -/
def Block.unparkAll (b : Block) : Block :=
  let done : List Nat := (b.fab.drains.filter fun d => decide (d.2 = [])).map (·.1)
  let go := b.fab.parked.filter fun f : FMsg => decide (f.m.dest ∈ done)
  let b := { b with fab := { b.fab with drains := b.fab.drains.filter fun d => d.2 ≠ [] } }
  go.foldl (fun b f => b.unpark f) b

/-- A request is no longer outstanding. -/
def Block.forgetReq (b : Block) (tag : Nat) : Block :=
  let drains := b.fab.drains.map fun d => (d.1, d.2.filter (· ≠ tag))
  ({ b with fab := { b.fab with reqs := b.fab.reqs.filter (fun q => q.tag ≠ tag), drains := drains } }).unparkAll

/-- An access request that was sent under a tag has its outcome: bytes for a read, nothing for a write, or a failure. -/
def Block.endAccReq (b : Block) (id tag st cause : Nat) (data : List Byte) : Block :=
  let hit (r : Req) : Bool := r.wait == .reply tag
  let upd (a : Access) : Access :=
    match a.todo.find? hit with
    | none => a
    | some r =>
      let left := a.todo.filter fun x => !hit x
      if st = stDone then
        let got := match a.kind with
          | .store => a.data
          | .copyOut => a.data
          | _ => patch a.data r.off (layOver (slice data (r.addr % 32) r.len) r.wcSnap)
        { a with todo := left, data := got }
      else
        let keep := match a.kind with
          | .gather _ _ => left
          | _ => left.filter fun x => match x.wait with | .reply _ => true | _ => false
        { a with todo := keep, bad := worseReq a.bad r.off st cause }
  let accs := b.ms.accs.map fun a => if a.id = id then upd a else a
  { b with ms := { b.ms with accs := accs } }

/-- The fill of another package's table under way for a unit. -/
def Block.fillOf (b : Block) (q : OutReq) : Option Fill :=
  b.ms.fills.find? fun f => decide (f.pkg = q.dest ∧ f.part = q.part ∧ f.unit = q.addr / unitBytes)

/-- A fill is answered: a translation that an invalidation overtook is asked for again (R367). -/
def Block.endFill (b : Block) (q : OutReq) (st cause aux : Nat) : Block :=
  match b.fillOf q with
  | none => b
  | some f =>
    if f.stale then
      let g : Fill := { f with stale := false }
      let b := { b with ms := { b.ms with fills := b.ms.fills.map fun x => if x = f then g else x } }
      match b.sendReq { mtype := 5, m := { Msg.empty with dest := q.dest, part := q.part, addr := q.addr } } (OutReq.new q.part) with
      | .ok b => b
      | .error e => b.answerFill g (.error e)
    else if st ≠ stDone then b.answerFill f (.error (st, cause))
    else b.answerFill f (.ok (xlateRun aux f.unit))

/-- A request ends with an outcome. -/
def Block.endOne (b : Block) (q : OutReq) (st cause aux : Nat) (data : List Byte) : Block :=
  let b := b.forgetReq q.tag
  if q.sunk then b
  else match q.acc, q.wc with
    | some (id, _), _ => (b.endAccReq id q.tag st cause data).serve
    | none, some (die, line) =>
      match b.ms.wc.find? fun e => decide (e.die = die ∧ e.line = line ∧ e.sent = true ∧ e.pkg = q.dest) with
      | some e =>
        let merged := st = stDone ∨ (st = stMemUe ∧ cause ≠ 0x83)
        ((if merged then b.bump .WC_RMW_COUNT die (lineMerges e.line e.bytes) else b).endFlush e st cause).serve
      | none => b
    | none, none => b.endFill q st cause aux

/-- What an ended request let go and could not leave is answered: its next hop is not ACTIVE, or its destination cannot be reached (R484,
R489). -/
def Block.endUnsent (b : Block) : Nat → Block
  | 0 => b
  | n + 1 =>
    match b.fab.unsent with
    | [] => b
    | tag :: rest =>
      let b := { b with fab := { b.fab with unsent := rest } }
      match b.fab.reqs.find? fun q => q.tag == tag with
      | none => b.endUnsent n
      | some q =>
        let (st, cause) := if (b.injectAt q.dest).isNone then (stFenced, 0x98) else (stFabric, 0x91)
        (b.endOne q st cause 0 []).endUnsent n

/-- A request ends with the outcome of its response or of its time-out. -/
def Block.endReq (b : Block) (q : OutReq) (st cause aux : Nat) (data : List Byte) : Block :=
  (b.endOne q st cause aux data).endUnsent (b.fab.parked.length + b.fab.unsent.length)

/-- A response from another package: of its own request, late, or unsolicited (R479, R500). -/
def Block.onResponse (b : Block) (n : Nat) (f : FMsg) (flit : Option (List Byte)) : Block :=
  let m := f.m
  match b.fab.reqs.find? fun q => q.tag == m.rtag && rspType q.ty == f.mtype && q.dest == m.src with
  | some q => b.endReq q m.status m.cause m.aux m.data
  | none =>
    if m.rtag ∈ b.fab.late then
      ({ b with fab := { b.fab with late := b.fab.late.filter (· ≠ m.rtag) } }).bump .LATE_RSP_COUNT
    else b.offence n 0xA4 3 m.part flit

/-- REQ_TIMEOUT (R479): a request unanswered for REQ_TIMEOUT ticks after it was sent ends with FAULT_FABRIC. -/
def Block.reqTimeout (b : Block) (tag : Nat) : Block :=
  match b.fab.reqs.find? fun q => q.tag == tag with
  | some q =>
    if b.get .FAB_CTRL_REQ_TIMEOUT ≤ b.ticksFrom q.sentAt ∧ b.fab.parked.all (fun f => f.m.rtag ≠ tag) then
      ({ b with fab := { b.fab with late := b.fab.late ++ [tag] } }).endReq q stFabric 0x90 0 []
    else b
  | none => b

def execReqTimeout (tag : Nat) (s : State) := s.act (·.reqTimeout tag)

-- Holds (R524 to R529) -------------------------------------------------------------------------------------------------

/-- The fabric hold comes into force (R526), with event 0x09. -/
def Block.startHold (b : Block) : Block :=
  if b.on .FAB_HOLD_HOLD then b else (b.holdBegins.set .FAB_HOLD_HOLD 0 1).event 0x50 0x09

/-- Some entry's hold count has come. -/
def Block.holdDue (b : Block) : Bool := b.fab.holds.any fun h => decide (h.hold ≤ b.gmc)

/-- HOLD_START (R526). -/
def execHoldStart (s : State) := s.act fun b => if b.holdDue then b.startHold else b

/-- The fabric hold ends with event 0x0A and collectives go on; the Governor that requested it writes event 0x12 first, and a lapse of the
last entry event 0x0B between them (R436, R529, R833). -/
def Block.endHold (b : Block) (lapse : Bool := false) : Block :=
  let own := b.gov.fabricHold
  let b := { b with fab := { b.fab with holds := [] }, gov := { b.gov with fabricHold := false } }
  let b := if own then b.event 0x02 0x12 else b
  let b := if lapse then b.event 0x50 0x0B else b
  if b.on .FAB_HOLD_HOLD then ((b.set .FAB_HOLD_HOLD 0 0).event 0x50 0x0A).holdEnds else b

/-- Every entry has had its RESUME, and the latest resume count has come (R528). -/
def Block.resumeDue (b : Block) : Bool :=
  b.fab.holds != [] && b.fab.holds.all fun h => match h.resume with | some c => decide (c ≤ b.gmc) | none => false

/-- HOLD_END (R528). -/
def execHoldEnd (s : State) := s.act fun b => if b.resumeDue then b.endHold else b

/-- HOLD_ENTRY_LAPSE (R529): at an epoch boundary, an entry not refreshed for 50 ms is dropped with event 0x0B; the hold ends with
the last entry. -/
def Block.holdLapse (b : Block) (origin : Nat) : Block :=
  match b.fab.holds.find? fun h => h.origin = origin with
  | some h =>
    if b.gmc % 2 ^ 20 = 0 ∧ h.at_ + 50000000 ≤ b.gmc then
      let left := b.fab.holds.filter (· ≠ h)
      if left = [] then b.endHold true else ({ b with fab := { b.fab with holds := left } }).event 0x50 0x0B
    else b
  | none => b

def execHoldEntryLapse (origin : Nat) (s : State) := s.act (·.holdLapse origin)

/-- An entry of an origin written or refreshed with hold count H; a hold whose H has passed is in force at once (R526, R528). -/
def Block.enterHold (b : Block) (origin h : Nat) : Block :=
  let e : HoldEntry := { origin := origin, hold := h, resume := none, at_ := b.gmc }
  let b := { b with fab := { b.fab with holds := b.fab.holds.filter (fun x => x.origin ≠ origin) ++ [e] } }
  if h ≤ b.gmc then b.startHold else b

/-- A RESUME of an origin (R528). -/
def Block.enterResume (b : Block) (origin c : Nat) : Block :=
  { b with fab := { b.fab with holds := b.fab.holds.map fun h => if h.origin = origin then { h with resume := some c } else h } }

/-- This package and another share an enabled group (R524). -/
def Block.sharesGroup (b : Block) (p : Nat) : Bool :=
  (List.range 64).any fun g => b.on .GRP_CFG_EN g && b.bit .GRP_MEMBERS_BITMAP g p && b.bit .GRP_MEMBERS_BITMAP g b.pkg

/-- A NOTICE of an origin (R524). -/
def Block.enterNotice (b : Block) (origin cause : Nat) : Block :=
  if b.sharesGroup origin then
    (((b.set .NOTICE_LAST_ORIGIN 0 origin).set .NOTICE_LAST_CAUSE 0 cause).bump .NOTICE_LAST_COUNT).event 0x50 0x08
  else b

-- VC3 messages (R495 to R499) ------------------------------------------------------------------------------------------

/-- Packages of the cluster. -/
def Block.clusterSize (b : Block) : Nat := b.dimSize 0 * b.dimSize 1 * b.dimSize 2

/-- ORIGIN outside the cluster, or a malformed field (R500, BAD_VC3). -/
def Block.vc3Bad (b : Block) (f : FMsg) : Bool :=
  let m := f.m
  let flood := m.addr / 2 ^ 32 != 0 || bits m.addr 10 6 != 0 || decide (b.clusterSize ≤ bits m.addr 0 10)
  match f.mtype with
  | 0x32 => flood
  | 0x33 => flood
  | 0x34 => flood || m.aux != 1
  | 0x35 => flood || bits m.aux 3 5 != 0 || bits m.aux 9 7 != 0
  | 0x36 => decide (7 < m.addr)
  | _ => false

/-- A flooded message is newer than the last one seen from its origin (R496). -/
def Block.floodNew (b : Block) (m : Msg) : Bool :=
  let o := bits m.addr 0 10
  let id := bits m.addr 16 16
  o != b.pkg && match Tab.find b.fab.seen o with
    | none => true
    | some last => let d := (id + 2 ^ 16 - last) % 2 ^ 16
                   d != 0 && decide (d < 2 ^ 15)

/-- A flooded message from port n: forwarded and acted on once (R496). -/
def Block.onFlood (b : Block) (n : Nat) (f : FMsg) (flit : Option (List Byte)) (act : Block → Block) : Block :=
  if b.vc3Bad f then b.offence n 0xA7 3 f.m.part flit
  else if !b.floodNew f.m then b
  else
    let o := bits f.m.addr 0 10
    let b := { b with fab := { b.fab with seen := Tab.put b.fab.seen o (bits f.m.addr 16 16) } }
    act (b.floodOn (b.floodPorts (some n)) f)

def Block.recvHold (b : Block) (n : Nat) (m : Msg) (flit : Option (List Byte)) : Block :=
  b.onFlood n { mtype := 0x32, m := m } flit fun b => b.enterHold (bits m.addr 0 10) m.aux

def Block.recvResume (b : Block) (n : Nat) (m : Msg) (flit : Option (List Byte)) : Block :=
  b.onFlood n { mtype := 0x33, m := m } flit fun b => b.enterResume (bits m.addr 0 10) m.aux

def Block.recvNotice (b : Block) (n : Nat) (m : Msg) (flit : Option (List Byte)) : Block :=
  b.onFlood n { mtype := 0x34, m := m } flit fun b => b.enterNotice (bits m.addr 0 10) (bits m.aux 0 8)

def Block.recvLinkChange (b : Block) (n : Nat) (m : Msg) (flit : Option (List Byte)) : Block :=
  b.onFlood n { mtype := 0x35, m := m } flit fun b =>
    b.linkChange (bits m.addr 0 10) (bits m.aux 0 3) (m.aux.testBit 8) (m.aux / 2 ^ 16)

/-- JOIN_AT (R498, R499): the larger proposal is agreed, and a TORUS port floods LINK_CHANGE (up) with it. -/
def Block.recvJoinAt (b : Block) (n : Nat) (m : Msg) (flit : Option (List Byte)) : Block :=
  if b.vc3Bad { mtype := 0x36, m := m } then b.offence n 0xA7 3 m.part flit
  else
    let x := b.port n
    match x.joinAt with
    | some e =>
      if b.portState n = pStandby ∧ x.agreed = false then
        let e := max e m.aux
        let b := (b.setPort n { x with joinAt := some e, agreed := true }).set .PORT_STATUS_JOIN_EPOCH n e
        if b.portMode n = mdTorus then b.floodLink n false e else b
      else b
    | none => b

def execHoldMsg (port : Nat) (msg : Msg) (s : State) := s.act (·.recvHold port msg none)
def execResumeMsg (port : Nat) (msg : Msg) (s : State) := s.act (·.recvResume port msg none)
def execNoticeMsg (port : Nat) (msg : Msg) (s : State) := s.act (·.recvNotice port msg none)
def execLinkChange (port : Nat) (msg : Msg) (s : State) := s.act (·.recvLinkChange port msg none)
def execJoinAt (port : Nat) (msg : Msg) (s : State) := s.act (·.recvJoinAt port msg none)
def execSync (port : Nat) (msg : Msg) (frac : Nat) (s : State) := s.act (·.sync port msg frac)

-- Delivery and transit (R477, R486 to R489) ----------------------------------------------------------------------------

/-- LEN and alignment as R476 and R477 allow for each type. -/
def msgShapeOk (f : FMsg) : Bool :=
  let m := f.m
  let sector := m.addr % 32 == 0 && decide (32 ≤ m.len ∧ m.len ≤ 256 ∧ m.addr % 256 + m.len ≤ 256)
  match f.mtype with
  | 0x01 => sector
  | 0x02 => sector && m.len % 32 == 0
  | 0x03 => m.addr % 128 == 0 && m.len == 144
  | 0x05 => m.addr % unitBytes == 0 && m.len == 0
  | 0x11 => decide (m.len ≤ 256)
  | 0x12 => m.len == 0
  | 0x15 => m.len == 0
  | 0x21 => decide (1 ≤ m.len ∧ m.len ≤ 16384)
  | 0x22 => decide (1 ≤ m.len ∧ m.len ≤ 4096)
  | _ => m.len == 0

/-- The flits a message occupies. -/
def msgFlits (f : FMsg) : Nat := ceilDiv (msgBytes f).length bodyBytes

/-- A message addressed elsewhere goes on by its route; where its next port is not ACTIVE a request is answered with LINK_DOWN and
anything else is lost. -/
def Block.transit (b : Block) (n cls : Nat) (f : FMsg) : Block :=
  let m := f.m
  let vc := (vcOf f.mtype).getD 0
  let down (b : Block) : Block := if isRequest f.mtype then b.reply (response b.pkg f stFabric 0x91 0 []) else b
  let next : Option (Nat × Nat) :=
    if b.portMode n = mdExpress then
      match b.nextDim m.dest, b.routeFrom b.pkg m.dest with
      | some d, some r => (r.getD d none).map fun fwd => (torusPort d fwd, b2n (b.wrapHop d fwd))
      | _, _ => none
    else b.forwardAt (if m.mflags.testBit 1 then b.pkg else m.src) m.dest n cls
  match next with
  | some (p, c) => if b.portState p = pActive ∨ b.portState p = pRetrain then b.enqueue p (2 * vc + c) f else down b
  | none => down b

/-- A request of another package starts to be served. -/
def Block.takeReq (b : Block) (q : InReq) : Block :=
  ({ b with fab := { b.fab with inreqs := b.fab.inreqs ++ [{ q with seq := b.ms.nextAcc }] }
            ms := { b.ms with nextAcc := b.ms.nextAcc + 1 } }).serve

/-- The flits of a message that is not kept are free again. -/
def Block.freeFlits (b : Block) (n pool flits : Nat) : Block :=
  b.freeRx { port := n, pool := pool, flits := flits, msg := { mtype := 0, m := Msg.empty }, waited := false, paid := 0, seq := 0 }

/-- A message refused with BAD_DEST: the offence, and an answer when it is a request (R487, R488, R500). -/
def Block.badDest (b : Block) (n : Nat) (f : FMsg) (flit : Option (List Byte)) : Block :=
  let b := b.offence n 0xA5 1 f.m.part flit
  if isRequest f.mtype then b.answer n (response b.pkg f stAddr 0x99 0 []) else b

/-- A collective message at its destination. -/
def Block.recvColl (b : Block) (n : Nat) (f : FMsg) (flit : Option (List Byte)) : Block :=
  match f.mtype with
  | 0x21 => b.collUp f.m
  | 0x22 => b.collDown f.m
  | 0x23 => b.collAbort f.m
  | _ => match b.collAck f.m with
    | (true, b) => b
    | (false, b) => b.offence n 0xA4 3 f.m.part flit

/-- A whole message from port n in a pool, holding `flits` flits of its buffer. -/
def Block.recvMsg (b : Block) (n pool flits frac : Nat) (f : FMsg) (flit : Option (List Byte)) : Block :=
  let m := f.m
  let free (b : Block) : Block := b.freeFlits n pool flits
  if !msgShapeOk f then (free b).offence n 0xA3 3 m.part flit
  else match f.mtype with
    | 0x31 => (free b).sync n m frac
    | 0x32 => (free b).recvHold n m flit
    | 0x33 => (free b).recvResume n m flit
    | 0x34 => (free b).recvNotice n m flit
    | 0x35 => (free b).recvLinkChange n m flit
    | 0x36 => (free b).recvJoinAt n m flit
    | _ =>
      let host := b.portMode n = mdHost
      let overExpress := isRequest f.mtype && m.mflags.testBit 1 && m.dest != b.pkg && (b.expressPort m.dest).isSome &&
        b.portMode n == mdExpress
      if b.clusterSize ≤ m.dest ∨ (host ∧ m.dest ≠ b.pkg) ∨ overExpress = true then (free b).badDest n f flit
      else if m.dest ≠ b.pkg then (free b).transit n (pool % 2) f
      else if isRequest f.mtype then b.takeReq { port := n, pool := pool, flits := flits, msg := f, waited := false, paid := 0, seq := 0 }
      else if isResponse f.mtype then (free b).onResponse n f flit
      else (free b).recvColl n f flit

/-- The pool of a message that comes as a row of its own, in class 0; such a row occupies no flits. -/
def Block.recvRow (b : Block) (n ty : Nat) (m : Msg) : Block :=
  b.recvMsg n (2 * (vcOf ty).getD 0) 0 0 { mtype := ty, m := m } none

def execReadReq (port : Nat) (msg : Msg) (strikes : List Strike) (s : State) := s.act fun b => (b.strike strikes).recvRow port 0x01 msg
def execWriteReq (port : Nat) (msg : Msg) (strikes : List Strike) (s : State) := s.act fun b => (b.strike strikes).recvRow port 0x02 msg
def execWriteMasked (port : Nat) (msg : Msg) (strikes : List Strike) (s : State) := s.act fun b => (b.strike strikes).recvRow port 0x03 msg
def execXlate (port : Nat) (msg : Msg) (s : State) := s.act (·.recvRow port 0x05 msg)
def execReadRsp (port : Nat) (msg : Msg) (s : State) := s.act (·.recvRow port 0x11 msg)
def execWriteRsp (port : Nat) (msg : Msg) (s : State) := s.act (·.recvRow port 0x12 msg)
def execXlateRsp (port : Nat) (msg : Msg) (s : State) := s.act (·.recvRow port 0x15 msg)
def execCollUp (port : Nat) (msg : Msg) (s : State) := s.act (·.recvRow port 0x21 msg)
def execCollDown (port : Nat) (msg : Msg) (s : State) := s.act (·.recvRow port 0x22 msg)
def execCollAbort (port : Nat) (msg : Msg) (s : State) := s.act (·.recvRow port 0x23 msg)
def execCollAck (port : Nat) (msg : Msg) (s : State) := s.act (·.recvRow port 0x24 msg)

-- DATA flits (R459 to R469, R500) --------------------------------------------------------------------------------------

/-- Reserved fields of a message header are zero. -/
def headerReservedOk (l : List Byte) : Bool :=
  bits (fieldAt l 0 2) 10 6 == 0 && bits (fieldAt l 2 2) 10 6 == 0 && bits (fieldAt l 5 1) 2 6 == 0 &&
    bits (fieldAt l 6 1) 3 5 == 0 && fieldAt l 0x0F 1 == 0

/-- What becomes of an accepted flit's message in its pool: dropped with the rest of the message. -/
def Block.dropRx (b : Block) (n pool : Nat) (last : Bool) : Block :=
  let x := b.port n
  b.setPort n { x with rx := if last then Tab.del x.rx pool else Tab.put x.rx pool none }

/-- A whole message assembled in a pool: its header is checked and it is acted on. -/
def Block.endRx (b : Block) (n pool frac : Nat) (l flit : List Byte) : Block :=
  let x := b.port n
  let flits := ceilDiv l.length bodyBytes
  let b := b.setPort n { x with rx := Tab.del x.rx pool }
  let f := msgOf l
  if !headerReservedOk l then (b.freeFlits n pool flits).offence n 0xA2 3 f.m.part (some flit)
  else if vcOf f.mtype ≠ some (pool / 2) ∨ msgFlits f ≠ flits then (b.freeFlits n pool flits).offence n 0xA3 3 f.m.part (some flit)
  else b.recvMsg n pool flits frac f (some flit)

/-- An accepted DATA flit joins the message of its pool. -/
def Block.joinFlit (b : Block) (n frac : Nat) (flit : List Byte) : Block :=
  let t := fieldAt flit 0 1
  let pool := bits (fieldAt flit 1 1) 0 3
  let first := t.testBit 4
  let last := t.testBit 5
  let body := slice flit 0x10 bodyBytes
  let x := b.port n
  if !flitReservedOk flit then (b.offence n 0xA2 3 0xFF (some flit)).dropRx n (min pool 6) last
  else if bits t 0 4 ≠ 1 ∨ pool = 7 then b.offence n 0xA1 3 0xFF (some flit)
  else if creditsInit.getD pool 0 ≤ x.rxHeld.getD pool 0 then (b.offence n 0xA0 3 0xFF (some flit)).dropRx n pool last
  else
    let b := b.setPort n { x with rxHeld := bumpAt x.rxHeld pool 1 }
    let old := Tab.find x.rx pool
    let back (b : Block) (k : Nat) : Block := b.freeFlits n pool k
    if first then
      let b := match old with | some (some l) => back b (l.length / bodyBytes) | _ => b
      if last then b.endRx n pool frac body flit
      else b.setPort n { b.port n with rx := Tab.put (b.port n).rx pool (some body) }
    else match old with
      | some (some l) =>
        if last then b.endRx n pool frac (l ++ body) flit
        else b.setPort n { b.port n with rx := Tab.put (b.port n).rx pool (some (l ++ body)) }
      | some none => (back b 1).dropRx n pool last
      | none => (back b 1).offence n 0xA3 3 0xFF (some flit)

/-- DATA_FLIT (R453, R460, R464, R465, R469): a bad flit is answered with NAK; a good one brings the partner's ACK, CREDITS and NAK;
the expected SEQ is accepted and acknowledged, a SEQ behind is discarded, one ahead is answered with NAK. -/
def Block.dataFlit (b : Block) (n : Nat) (flit : List Byte) (corrected : Nat) (bad : Bool) (frac : Nat) : Block :=
  let st := b.portState n
  if st ≠ pActive ∧ st ≠ pStandby then b
  else
    let b := b.bump .PORT_CORR_COUNT n corrected
    if bad || !flitOk flit then b.sendNak n
    else
      let t := bits (fieldAt flit 0 1) 0 4
      if t = 0xE then b.tsFlit n (slice flit 0x10 bodyBytes) (some flit)
      else if t = 0 then b.idleFlit n flit
      else
        let b := b.applyHeader n flit
        let b := if (fieldAt flit 2 2).testBit 12 then b.replay n else b
        let x := b.port n
        let seq := bits (fieldAt flit 2 2) 0 12
        if t ≠ 1 then (b.offence n 0xA1 3 0xFF (some flit)).pump n
        else if seq = x.nextRx then
          let b := b.setPort n { x with nextRx := (seq + 1) % 4096, acked := true, nakSent := false }
          let b := b.joinFlit n frac flit
          (b.sendIdle n false).pump n
        else if (x.nextRx + 4096 - seq) % 4096 ≤ 2048 then b.pump n
        else (b.sendNak n).pump n

def execDataFlit (port : Nat) (flit : List Byte) (corrected : Nat) (bad : Bool) (frac : Nat) (s : State) :=
  s.act (·.dataFlit port flit corrected bad frac)

/-- TS_FLIT (R455 to R457). -/
def execTsFlit (port : Nat) (body : List Byte) (s : State) := s.act fun b => (b.tsFlit port body none).gmcTopology

-- Ports going down, resets and fences (R454, R458, R503, R88, R879) ----------------------------------------------------

/-- Requests of this package that waited whole at a port end with LINK_DOWN. -/
def Block.failOwn (b : Block) (tags : List Nat) : Block :=
  tags.foldl (fun b tag =>
    match b.fab.reqs.find? fun q => q.tag == tag with
    | some q => b.endReq q stFabric 0x91 0 []
    | none => b) b

/-- The PORT_STATUS fields and counters of a port at reset. -/
def Block.zeroPortRegs (b : Block) (n : Nat) : Block :=
  let fs : List Fld := [.PORT_STATUS_PROBATION, .PORT_STATUS_FENCE_PENDING, .PORT_STATUS_WIRING_BAD, .PORT_STATUS_PARTNER_PKG,
    .PORT_STATUS_PARTNER_PORT, .PORT_STATUS_JOIN_EPOCH, .PORT_CORR_COUNT, .PORT_NAKS_COUNT, .PORT_REPLAYS_COUNT,
    .PORT_RETRAINS_COUNT, .PORT_OFFENCES_COUNT]
  b.resetRegs fun f i => !(decide (f ∈ fs ∧ i = n))

/-- What a port reset returns to its reset value beside the port's state: its status fields and counters, and its probation (R119). -/
def Block.forgetPort (b : Block) (n : Nat) : Block :=
  let b := b.zeroPortRegs n
  b.setPort n { b.port n with offEpoch := 0, offs := 0, fenceAt := none }

/-- RETRAIN_END (R458, R492). -/
def Block.retrainEnd (b : Block) (n : Nat) (ok : Bool) : Block :=
  if b.portState n = pRetrain then
    if ok && (b.port n).tsKeep then b.retrainOk n
    else
      let own := b.ownQueued n
      (((b.portDown n).failOwn own).gmcTopology).forgetPort n
  else b

def execRetrainEnd (port : Nat) (ok : Bool) (s : State) := s.act (·.retrainEnd port ok)

/-- FENCE_CLEAR (R503): a FENCED port goes to DETECT. -/
def Block.fenceClear (b : Block) (n : Nat) : Block := if b.portState n = pFenced then b.restartPort n pDetect else b

def execFenceClear (port : Nat) (s : State) := s.act (·.fenceClear port)

/-- Everything held at a port is discarded: foreign requests queued whole are answered and own ones end with LINK_DOWN; a TORUS port
that was in routing leaves it by a LINK_CHANGE flood. -/
def Block.clearPort (b : Block) (n st : Nat) : Block :=
  let own := b.ownQueued n
  let b := b.portDown n
  ((b.setPortState n st).failOwn own).gmcTopology

/-- A port out of every state that carries traffic: discard what it holds; one that was ACTIVE or in RETRAIN goes DOWN first. -/
def Block.quietPort (b : Block) (n st : Nat) : Block :=
  if b.portState n = pActive ∨ b.portState n = pRetrain then b.clearPort n st else (b.restartPort n st).gmcTopology

/-- MBARY_PORT_RESET (R88): the ports named discard their flits in flight, their counters and status restart, and they train again
when MODE and ENABLE say so; a FENCED port stays FENCED (R503). -/
def Block.mbaryReset (b : Block) (mask : Nat) : Block :=
  (bitList mask 8).foldl (fun b n =>
    let st := if b.portState n = pFenced then pFenced
      else if b.modeOk n (b.portMode n) && b.on .PORT_CFG_ENABLE n then pDetect else pOff
    ((b.quietPort n st).forgetPort n).event 0x03 0x04) b

def execMbaryPortReset (mask : Nat) (s : State) := s.act (·.mbaryReset mask)

/-- PORT_DISABLE (R879, R454): PORT_CFG written with MODE OFF or ENABLE 0 takes the port out of use and to OFF; a FENCED port stays
FENCED (R503). -/
def Block.portDisable (b : Block) (n mode : Nat) (enable : Bool) : Block :=
  if mode = 0 ∨ enable = false then
    let st := if b.portState n = pFenced then pFenced else pOff
    let c := if b.portState n = pOff then b else b.quietPort n st
    let c := { c with pwr := { c.pwr with lost := clrBit c.pwr.lost (12 + n) } }
    (c.set .PORT_CFG_MODE n mode).set .PORT_CFG_ENABLE n (b2n enable)
  else b

def execPortDisable (port mode : Nat) (enable : Bool) (s : State) := s.act (·.portDisable port mode enable)

-- The routing-epoch boundary (R481, R490 to R493, R499, R501, R502, R536) ----------------------------------------------

/-- The active table becomes the shadow, with link changes whose effective epoch lies ahead left out; event 0x0C when it changes. -/
def Block.copyTable (b : Block) : Block :=
  let later := b.fab.changes.filter fun c => b.epoch < c.2.2
  let shadow := b.get .LINK_DOWN_SHADOW_BITMAP
  let old := b.get .LINK_DOWN_ACTIVE_BITMAP
  let map := later.foldl (fun v c => if old.testBit c.1 then setBit v c.1 else clrBit v c.1) shadow
  let b := { b with fab := { b.fab with changes := later } }
  let b := b.set .LINK_DOWN_ACTIVE_BITMAP 0 map
  let row (b : Block) (e : Nat) : Nat × Nat × Nat :=
    (b.get .EXPRESS_ACTIVE_DEST e, b.get .EXPRESS_ACTIVE_PORT e, b.get .EXPRESS_ACTIVE_VALID e)
  let c := (List.range 64).foldl (fun b e =>
    ((b.set .EXPRESS_ACTIVE_DEST e (b.get .EXPRESS_SHADOW_DEST e)).set .EXPRESS_ACTIVE_PORT e (b.get .EXPRESS_SHADOW_PORT e)).set
      .EXPRESS_ACTIVE_VALID e (b.get .EXPRESS_SHADOW_VALID e)) b
  if map ≠ old ∨ (List.range 64).any (fun e => row b e != row c e) then c.event 0x50 0x0C else c

/-- New requests to destinations whose route changed wait for every earlier request to them (R481). -/
def Block.startDrains (old b : Block) : Block :=
  let sent := b.fab.reqs.filter fun q => b.fab.parked.all fun f => f.m.rtag ≠ q.tag
  let moved := (nub (sent.map (·.dest))).filter fun d => old.injectAt d != b.injectAt d
  let more := moved.map fun d => (d, (sent.filter fun q => q.dest == d).map (·.tag))
  { b with fab := { b.fab with drains := (b.fab.drains.filter fun d => decide (d.1 ∉ moved)) ++ more } }

/-- A port at the boundary: a STANDBY port whose agreed epoch has come is ACTIVE, a port to be fenced is FENCED, and probation ends
PROB_EPOCHS after the latest offence. -/
def Block.portEpoch (b : Block) (n : Nat) : Block :=
  let x := b.port n
  let due (o : Option Nat) : Bool := match o with | some e => decide (e ≤ b.epoch) | none => false
  let b :=
    if due x.fenceAt then
      let own := b.ownQueued n
      let whole := (x.txq.flatMap fun e => e.2).filter fun m => m.sent == 0
      let reqs := (whole.map fun m => msgOf m.bytes).filter fun f => isRequest f.mtype && f.m.src != b.pkg
      let b := b.restartPort n pFenced
      let b := b.setPort n { b.port n with fenceAt := none }
      let b := (b.set .PORT_STATUS_FENCE_PENDING n 0).event 0x50 0x06
      (reqs.foldl (fun b f => b.reply (response b.pkg f stFabric 0x91 0 [])) b).failOwn own
    else if b.portState n = pStandby ∧ x.agreed = true ∧ due x.joinAt = true then
      ((b.setPort n { x with joinAt := none }).setPortState n pActive).event 0x50 0x01 |>.pump n
    else b
  if b.on .PORT_STATUS_PROBATION n ∧ (b.port n).offEpoch + max 1 (b.get .FAB_CTRL_PROB_EPOCHS) ≤ b.epoch then
    (b.set .PORT_STATUS_PROBATION n 0).setPort n { b.port n with offs := 0 }
  else b

/-- ROUTING_EPOCH_BOUNDARY. -/
def Block.epochBoundary (b : Block) : Block :=
  if b.gmc % 2 ^ 20 = 0 then
    let c := b.copyTable
    let c := Block.startDrains b c
    let c := (List.range 8).foldl (fun b n => b.portEpoch n) c
    (c.gmcTopology.chooseParent).serve
  else b

def execRoutingEpochBoundary (s : State) := s.act (·.epochBoundary)

end Sys2Proof.Machine
end

