-- ==== Sys2Proof/Machine/Quern.lean ====
section
/-! DEFINITION. The Quern (spec/14): SOLVE descriptors, factorisations, triangular solves, block-tridiagonal systems and the conjugate
gradient, defined to the bit, and the solve report. Matrices are lists of columns of encodings in the PREC format. -/

namespace Sys2Proof.Machine

-- Matrices -------------------------------------------------------------------------------------------------------------

/-- A matrix as its columns. -/
abbrev Mat := List (List Nat)

def Mat.at (m : Mat) (i j : Nat) : Nat := (m.getD j []).getD i 0
def Mat.put (m : Mat) (i j v : Nat) : Mat := m.set j ((m.getD j []).set i v)

/-- An n by c matrix from a function of row and column. -/
def mkMat (n c : Nat) (f : Nat → Nat → Nat) : Mat := (List.range c).map fun j => (List.range n).map fun i => f i j

/-- Two rows exchanged. -/
def Mat.swapRows (m : Mat) (r s : Nat) : Mat :=
  m.map fun c => (c.set r (c.getD s 0)).set s (c.getD r 0)

/-- The sign of an encoding inverted. -/
def Fmt.negate (f : Fmt) (v : Nat) : Nat := v ^^^ 2 ^ (f.width - 1)

/-- acc − x × y, rounded once (R665). -/
def Fmt.fms (f : Fmt) (acc x y : Nat) : Nat := f.fma (f.negate x) y acc

/-- start − Σ x(k) y(k) over a list of indices, one fused multiply-add each. -/
def Fmt.less (f : Fmt) (start : Nat) (ks : List Nat) (x y : Nat → Nat) : Nat := ks.foldl (fun a k => f.fms a (x k) (y k)) start

/-- k ascending over k < n, and descending over j < k < n. -/
def upTo (n : Nat) : List Nat := List.range n
def downFrom (n j : Nat) : List Nat := ((List.range n).drop (j + 1)).reverse

/-- The largest magnitude among entries, NaN counting as zero (‖A‖). -/
def matNorm (f : Fmt) (l : List Nat) : Nat :=
  l.foldl (fun m v => match f.dec v with
    | .nan => m
    | x => if (f.dec m).lt x.abs then f.enc x.abs else m) 0

-- Pivots (R672, R673) --------------------------------------------------------------------------------------------------

/-- GUARD mode: threshold τ × ‖A‖ and δ, in PREC. -/
structure Guard where
  on : Bool
  thr : Nat
  delta : Nat
  deriving DecidableEq, Repr

/-- Replacements so far: their number and the column of the first. -/
structure Regs where
  count : Nat
  first : Nat
  deriving DecidableEq, Repr

def Regs.none : Regs := ⟨0, 0xFFFFFFFF⟩
def Regs.add (r : Regs) (col : Nat) : Regs := if r.count = 0 then ⟨1, col⟩ else ⟨r.count + 1, r.first⟩

/-- A pivot tested and replaced by sign(p) × δ; `plus` where every replacement is +δ. -/
def Guard.pivot (g : Guard) (f : Fmt) (plus : Bool) (col p : Nat) (r : Regs) : Nat × Regs :=
  if !g.on then (p, r)
  else
    let v := f.dec p
    if v.isNan || v.abs.le (f.dec g.thr) then
      (if !plus && !v.isNan && v.isNeg then f.negate g.delta else g.delta, r.add col)
    else (p, r)

-- Dense factorisations (R666, R667) ------------------------------------------------------------------------------------

/-- Column j of the Cholesky factor from columns 0 to j - 1; `base` is the global column of column 0. -/
def cholCol (f : Fmt) (g : Guard) (n base : Nat) (a l : Mat) (j : Nat) (r : Regs) : List Nat × Regs :=
  let sum (i : Nat) : Nat := f.less (a.at i j) (upTo j) (l.at i) (l.at j)
  let (d, r) := g.pivot f true (base + j) (sum j) r
  let s := f.sqrt d
  ((List.range n).map fun i => if i < j then 0 else if i = j then s else f.div (sum i) s, r)

/-- Column j of L and D; d(j) stands on the diagonal. -/
def ldltCol (f : Fmt) (g : Guard) (n base : Nat) (a l : Mat) (j : Nat) (r : Regs) : List Nat × Regs :=
  let w (i k : Nat) : Nat := f.mul (l.at i k) (l.at k k)
  let sum (i : Nat) : Nat := f.less (a.at i j) (upTo j) (w i) (l.at j)
  let (d, r) := g.pivot f false (base + j) (sum j) r
  ((List.range n).map fun i => if i < j then 0 else if i = j then d else f.div (sum i) d, r)

/-- The pivot row of column j (R667): the largest magnitude, ties to the lowest row, NaN only when all are. -/
def luRow (f : Fmt) (n : Nat) (m : Mat) (j : Nat) : Nat :=
  ((List.range n).drop j).foldl (fun best i =>
    let x := f.dec (m.at best j)
    let y := f.dec (m.at i j)
    if x.isNan then (if y.isNan then best else i) else if x.abs.lt y.abs then i else best) j

/-- What a factorisation has reached. -/
structure Fact where
  m : Mat
  piv : List Nat
  swaps : Nat
  regs : Regs
  deriving DecidableEq, Repr

/-- Step j of LU: the exchange, column j of L, and the trailing entries. -/
def luStep (f : Fmt) (g : Guard) (n base : Nat) (s : Fact) (j : Nat) : Fact :=
  let row := luRow f n s.m j
  let m := if row = j then s.m else s.m.swapRows j row
  let (u, r) := g.pivot f false (base + j) (m.at j j) s.regs
  let m := m.put j j u
  let lj := (List.range n).map fun i => if i ≤ j then m.at i j else f.div (m.at i j) u
  let m := (List.range n).map fun c =>
    let col := m.getD c []
    if c < j then col
    else if c = j then lj
    else
      let ujc := col.getD j 0
      (List.range n).map fun i => if i ≤ j then col.getD i 0 else f.fms (col.getD i 0) (lj.getD i 0) ujc
  { m := m, piv := s.piv ++ [row], swaps := s.swaps + b2n (row != j), regs := r }

/-- Methods. -/
def mChol : Nat := 1
def mLdlt : Nat := 2
def mLu : Nat := 3
def mBtri : Nat := 4
def mPcg : Nat := 5
def mFactor : Nat := 6

/-- Column j of a dense method. For CHOL and LDLT `m` holds the columns done, for LU the whole matrix. -/
def denseStep (f : Fmt) (g : Guard) (method n base : Nat) (a : Mat) (s : Fact) (j : Nat) : Fact :=
  if method = mLu then luStep f g n base s j
  else
    let (c, r) := if method = mChol then cholCol f g n base a s.m j s.regs else ldltCol f g n base a s.m j s.regs
    { s with m := s.m ++ [c], regs := r }

/-- Columns from..to - 1 in turn. -/
def denseCols (f : Fmt) (g : Guard) (method n base : Nat) (a : Mat) (s : Fact) (lo hi : Nat) : Fact :=
  ((List.range hi).drop lo).foldl (denseStep f g method n base a) s

/-- A dense block factored whole, as BTRI does. -/
def denseAll (f : Fmt) (g : Guard) (method n base : Nat) (a : Mat) (r : Regs) : Fact :=
  denseCols f g method n base a { m := if method = mLu then a else [], piv := [], swaps := 0, regs := r } 0 n

-- Triangular solves (R668) ---------------------------------------------------------------------------------------------

/-- Row exchanges applied to a vector in ascending order. -/
def applyPiv (piv v : List Nat) : List Nat :=
  (List.range piv.length).foldl (fun v j =>
    let r := piv.getD j 0
    (v.set j (v.getD r 0)).set r (v.getD j 0)) v

/-- The forward solve with L; divided by the diagonal for CHOL. -/
def forwardSolve (f : Fmt) (method n : Nat) (l : Mat) (v : List Nat) : List Nat :=
  (List.range n).foldl (fun y i =>
    let s := f.less (v.getD i 0) (upTo i) (l.at i) (fun k => y.getD k 0)
    y ++ [if method = mChol then f.div s (l.at i i) else s]) []

/-- The backward solve with U, or with the transpose of L. -/
def backwardSolve (f : Fmt) (method n : Nat) (m : Mat) (v : List Nat) : List Nat :=
  let u (i k : Nat) : Nat := if method = mLu then m.at i k else m.at k i
  (List.range n).reverse.foldl (fun x i =>
    let s := f.less (v.getD i 0) (downFrom n i) (u i) (fun k => x.getD k 0)
    x.set i (if method = mLdlt then s else f.div s (m.at i i))) (List.replicate n 0)

/-- One right-hand side through a dense factor. -/
def denseSolve (f : Fmt) (method n : Nat) (m : Mat) (piv v : List Nat) : List Nat :=
  let v := if method = mLu then applyPiv piv v else v
  let y := forwardSolve f method n m v
  let y := if method = mLdlt then (List.range n).map fun i => f.div (y.getD i 0) (m.at i i) else y
  backwardSolve f method n m y

-- Block-tridiagonal systems (R669) -------------------------------------------------------------------------------------

/-- BTRI as it is factored: blocks done, with those ahead as read. -/
structure Btri where
  diag : List Mat
  sub : List Mat
  sup : List Mat
  piv : List Nat
  swaps : Nat
  regs : Regs
  deriving DecidableEq, Repr

/-- Block k of a system with blocks of order n. -/
def btriStep (f : Fmt) (g : Guard) (sym : Bool) (n nb : Nat) (s : Btri) (k : Nat) : Btri :=
  let d := s.diag.getD k []
  if sym then
    let x := denseAll f g mLdlt n (k * n) d s.regs
    let s := { s with diag := s.diag.set k x.m, regs := x.regs }
    if k + 1 = nb then s
    else
      let a := s.sub.getD k []
      let rows := (List.range n).map fun i =>
        let y := forwardSolve f mLdlt n x.m ((List.range n).map fun j => a.at i j)
        (List.range n).map fun j => f.div (y.getD j 0) (x.m.at j j)
      let m := mkMat n n fun i j => (rows.getD i []).getD j 0
      let nd := s.diag.getD (k + 1) []
      let w (i c : Nat) : Nat := f.mul (m.at i c) (x.m.at c c)
      let nd' := mkMat n n fun i j => f.less (nd.at i j) (upTo n) (w i) (m.at j)
      { s with sub := s.sub.set k m, diag := s.diag.set (k + 1) nd' }
  else
    let x := denseAll f g mLu n (k * n) d s.regs
    let s := { s with diag := s.diag.set k x.m, regs := x.regs, piv := s.piv ++ x.piv, swaps := s.swaps + x.swaps }
    if k + 1 = nb then s
    else
      let a := s.sub.getD k []
      let row (i : Nat) : List Nat := (List.range n).foldl (fun y j =>
        y ++ [f.div (f.less (a.at i j) (upTo j) (fun c => y.getD c 0) (fun c => x.m.at c j)) (x.m.at j j)]) []
      let rows := (List.range n).map row
      let sub := mkMat n n fun i j => (rows.getD i []).getD j 0
      let sup : Mat := (s.sup.getD k []).map fun c => forwardSolve f mLu n x.m (applyPiv x.piv c)
      let nd := s.diag.getD (k + 1) []
      let nd' := mkMat n n fun i j => f.less (nd.at i j) (upTo n) (sub.at i) (fun c => sup.at c j)
      { s with sub := s.sub.set k sub, sup := s.sup.set k sup, diag := s.diag.set (k + 1) nd' }

/-- One right-hand side through a block-tridiagonal factor: forward over blocks, then backward. -/
def btriSolve (f : Fmt) (sym : Bool) (n nb : Nat) (s : Btri) (v : List Nat) : List Nat :=
  let part (l : List Nat) (k : Nat) : List Nat := (l.drop (k * n)).take n
  let ys := (List.range nb).foldl (fun (ys : List (List Nat)) k =>
    let prev := ys.getD (k - 1) []
    let sb := s.sub.getD (k - 1) []
    let c := (List.range n).map fun i =>
      let x := (part v k).getD i 0
      if k = 0 then x else f.less x (upTo n) (sb.at i) (fun c => prev.getD c 0)
    let d := s.diag.getD k []
    ys ++ [if sym then forwardSolve f mLdlt n d c else forwardSolve f mLu n d (applyPiv (part s.piv k) c)]) []
  let ys := if sym then (List.range nb).map fun k => (List.range n).map fun i =>
      f.div ((ys.getD k []).getD i 0) ((s.diag.getD k []).at i i) else ys
  ((List.range nb).reverse.foldl (fun (xs : List (List Nat)) k =>
    let next := xs.headD []
    let c := (List.range n).map fun i =>
      let x := (ys.getD k []).getD i 0
      if k + 1 = nb then x
      else if sym then f.less x (upTo n).reverse (fun c => (s.sub.getD k []).at c i) (fun c => next.getD c 0)
      else f.less x (upTo n).reverse ((s.sup.getD k []).at i) (fun c => next.getD c 0)
    backwardSolve f (if sym then mLdlt else mLu) n (s.diag.getD k []) c :: xs) []).flatten

-- Conjugate gradient (R670, R671) --------------------------------------------------------------------------------------

/-- A dot product: 64 partial sums by index modulo 64, then halved. -/
def pcgDot (f : Fmt) (u v : List Nat) : Nat :=
  let sums := (List.zip u v).foldl (fun (s : List Nat × Nat) e =>
    (s.1.set s.2 (f.fma e.1 e.2 (s.1.getD s.2 0)), (s.2 + 1) % 64)) (List.replicate 64 0, 0)
  (laneReduce f.add 6 sums.1).headD 0

/-- A matrix in CSR: for each row its columns and values in order. -/
abbrev Csr := List (List (Nat × Nat))

def csrMul (f : Fmt) (a : Csr) (x : List Nat) : List Nat :=
  a.map fun row => row.foldl (fun s e => f.fma e.2 (x.getD e.1 0) s) 0

/-- The state of a PCG solve. -/
structure Pcg where
  x : List Nat
  r : List Nat
  p : List Nat
  rho : Nat
  iters : Nat
  rr : Nat
  deriving DecidableEq, Repr

/-- How a solve ended. -/
inductive SolveEnd where
  | done
  | deadline
  | notConverged
  | breakdown
  | parity
  deriving DecidableEq, Repr

/-- Iterations; `late` and `bad` tell whether the deadline has passed, or parity strikes, at the end of an iteration. -/
def pcgLoop (f : Fmt) (guard : Bool) (a : Csr) (minv : List Nat) (tol maxit : Nat) (late bad : Nat → Bool) :
    Nat → Pcg → SolveEnd × Pcg
  | 0, s => (.notConverged, s)
  | n + 1, s =>
    let q := csrMul f a s.p
    let sigma := pcgDot f s.p q
    let sv := f.dec sigma
    if guard && (sv.isNan || sv.isZero || sv.isNeg) then (.breakdown, s)
    else
      let alpha := f.div s.rho sigma
      let x := List.zipWith (fun p x => f.fma alpha p x) s.p s.x
      let r := List.zipWith (fun q r => f.fms r alpha q) q s.r
      let rr := pcgDot f r r
      let s := { s with x := x, r := r, rr := rr, iters := s.iters + 1 }
      if (f.dec rr).le (f.dec tol) then (.done, s)
      else if maxit ≤ s.iters then (.notConverged, s)
      else if bad s.iters then (.parity, s)
      else if late s.iters then (.deadline, s)
      else
        let z := List.zipWith f.mul minv r
        let rho := pcgDot f r z
        let beta := f.div rho s.rho
        let p := List.zipWith (fun p z => f.fma beta p z) s.p z
        pcgLoop f guard a minv tol maxit late bad n { s with p := p, rho := rho }

-- The solve block (R657, R659 to R663) ---------------------------------------------------------------------------------

def soParams (d : List Byte) : Nat := dArg d 0x00 8
def soMethod (d : List Byte) : Nat := dArg d 0x08 1
def soPrec (d : List Byte) : Nat := dArg d 0x09 1
def soGuard (d : List Byte) : Bool := (dArg d 0x0A 1).testBit 0
def soDie (d : List Byte) : Nat := bits (dArg d 0x0A 1) 1 2

def soFmt (d : List Byte) : Fmt := if soPrec d = 0 then fp64 else fp32
def soElem (d : List Byte) : Nat := if soPrec d = 0 then 8 else 4

/-- Fields of the solve block. -/
def qN (s : List Byte) : Nat := fieldAt s 0x00 4
def qNrhs (s : List Byte) : Nat := fieldAt s 0x04 2
def qBs (s : List Byte) : Nat := fieldAt s 0x06 1
def qB (s : List Byte) : Nat := fieldAt s 0x08 8
def qLdb (s : List Byte) : Nat := fieldAt s 0x10 8
def qX (s : List Byte) : Nat := fieldAt s 0x18 8
def qLdx (s : List Byte) : Nat := fieldAt s 0x20 8
def qInfo (s : List Byte) : Nat := fieldAt s 0x28 8
def qTau (s : List Byte) : Nat := fieldAt s 0x30 8
def qDelta (s : List Byte) : Nat := fieldAt s 0x38 8
/-- The eight-byte words of the method part. -/
def qA (s : List Byte) : Nat := fieldAt s 0x40 8
def qLda (s : List Byte) : Nat := fieldAt s 0x48 8
def qF (s : List Byte) : Nat := fieldAt s 0x50 8
def qLdf (s : List Byte) : Nat := fieldAt s 0x58 8
def qPiv (s : List Byte) : Nat := fieldAt s 0x60 8
def qDiag (s : List Byte) : Nat := fieldAt s 0x40 8
def qSub (s : List Byte) : Nat := fieldAt s 0x48 8
def qSup (s : List Byte) : Nat := fieldAt s 0x50 8
def qBpiv (s : List Byte) : Nat := fieldAt s 0x58 8
def qSym (s : List Byte) : Bool := (fieldAt s 0x60 1).testBit 0
def qRowptr (s : List Byte) : Nat := fieldAt s 0x40 8
def qColidx (s : List Byte) : Nat := fieldAt s 0x48 8
def qVals (s : List Byte) : Nat := fieldAt s 0x50 8
def qNnz (s : List Byte) : Nat := fieldAt s 0x58 4
def qMaxit (s : List Byte) : Nat := fieldAt s 0x5C 4
def qRtol (s : List Byte) : Nat := fieldAt s 0x60 8
def qMinv (s : List Byte) : Nat := fieldAt s 0x68 8
def qPrecond (s : List Byte) : Nat := fieldAt s 0x70 1
def qX0 (s : List Byte) : Bool := (fieldAt s 0x71 1).testBit 0
def qWork (s : List Byte) : Nat := fieldAt s 0x78 8
def qNb (s : List Byte) : Nat := qN s / qBs s

/-- BAD_SOLVE: ARGS and the common part for `m`, the method whose part is laid out. -/
def solveBad (d s : List Byte) (m : Nat) : Bool :=
  let e := soElem d
  let n := qN s
  let method := soMethod d
  let args := method == 0 || decide (6 < method) || decide (1 < soPrec d) || soDie d == 3 || bits (dArg d 0x0A 1) 3 5 != 0 ||
    dArg d 0x0B 21 != 0 || dWidth d != 0
  let rhs := if method = mPcg then qNrhs s != 1 else decide (64 < qNrhs s) || (method == mFactor && qNrhs s == 0)
  let common := fieldAt s 0x07 1 != 0 || rhs || (qNrhs s == 0 && (qB s != 0 || qX s != 0)) || decide (qLdb s < n * e) ||
    decide (qLdx s < n * e) || (m != mBtri && qBs s != 0)
  let part :=
    if m = mBtri then
      let bs := qBs s
      bs == 0 || decide (32 < bs) || n == 0 || n % bs != 0 || decide (256 < n / bs) || bits (fieldAt s 0x60 1) 1 7 != 0 ||
        fieldAt s 0x61 31 != 0 || (n == bs && qSub s != 0) || ((qSym s || n == bs) && qSup s != 0) || (qSym s && qBpiv s != 0)
    else if m = mPcg then
      n == 0 || decide (4194304 < n) || qNnz s == 0 || decide (16777216 < qNnz s) || qMaxit s == 0 || decide (1048576 < qMaxit s) ||
        !(fp64.dec (qRtol s)).isFinite || (!(fp64.dec (qRtol s)).isZero && (fp64.dec (qRtol s)).isNeg) || decide (2 < qPrecond s) ||
        (qPrecond s != 2 && qMinv s != 0) || bits (fieldAt s 0x71 1) 1 7 != 0 || fieldAt s 0x72 6 != 0
    else
      n == 0 || decide (4096 < n) || (method == mFactor && qA s != 0) || decide (qLda s < n * e) || decide (qLdf s < n * e) ||
        (m != mLu && qPiv s != 0) || fieldAt s 0x68 24 != 0
  args || common || part

/-- BAD_SOLVE_ALIGN. -/
def solveMisaligned (d s : List Byte) (m : Nat) : Bool :=
  let e := soElem d
  let vec := [qB s, qLdb s, qX s, qLdx s] ++
    (if m = mBtri then [qDiag s, qSub s, qSup s] else if m = mPcg then [qVals s, qMinv s, qWork s] else [qA s, qLda s, qF s, qLdf s])
  let words := if m = mBtri then [qBpiv s] else if m = mPcg then [qRowptr s, qColidx s] else [qPiv s]
  soParams d % 64 != 0 || qInfo s % 64 != 0 || vec.any (fun a => a % e != 0) || words.any fun a => a % 4 != 0

/-- Bytes of a strided operand. -/
def spanOf (n cols ld e : Nat) : Nat := if cols = 0 then 0 else (cols - 1) * ld + n * e

/-- The operand regions of a solve, and its report's: label, start and length. -/
def solveRegions (d s : List Byte) (m : Nat) : List (Nat × Nat × Nat) :=
  let e := soElem d
  let n := qN s
  let bs := qBs s
  let nb := n / bs
  let vecs := [(1, qB s, spanOf n (qNrhs s) (qLdb s) e), (2, qX s, spanOf n (qNrhs s) (qLdx s) e)]
  let part :=
    if m = mBtri then
      [(3, qDiag s, nb * bs * bs * e), (4, qSub s, (nb - 1) * bs * bs * e),
       (5, qSup s, if qSym s then 0 else (nb - 1) * bs * bs * e), (6, qBpiv s, if qSym s then 0 else n * 4)]
    else if m = mPcg then
      [(7, qRowptr s, (n + 1) * 4), (8, qColidx s, qNnz s * 4), (9, qVals s, qNnz s * e),
       (10, qMinv s, if qPrecond s = 2 then n * e else 0), (11, qWork s, 4 * n * e)]
    else
      [(12, qA s, if soMethod d = mFactor then 0 else spanOf n n (qLda s) e), (13, qF s, spanOf n n (qLdf s) e),
       (6, qPiv s, if m = mLu then n * 4 else 0)]
  (vecs ++ part ++ [(0, qInfo s, 64)]).filter fun r => r.2.2 != 0

/-- BAD_OVERLAP: two regions meet, but for F with A and X with B when they are identical. -/
def solveOverlap (l : List (Nat × Nat × Nat)) : Bool :=
  l.any fun x => l.any fun y => decide (x.1 < y.1) && decide (x.2.1 < y.2.1 + y.2.2 ∧ y.2.1 < x.2.1 + x.2.2) &&
    !(((x.1 == 1 && y.1 == 2) || (x.1 == 12 && y.1 == 13)) && x.2 == y.2)

/-- BAD_GUARD. -/
def guardBad (d s : List Byte) : Bool :=
  let t := fp64.dec (qTau s)
  let e := fp64.dec (qDelta s)
  soGuard d && (!t.isFinite || (t.isNeg && !t.isZero) || !e.isFinite || e.isZero || e.isNeg)

-- Memory ---------------------------------------------------------------------------------------------------------------

/-- Numbers of n bytes. -/
def numsOf (n : Nat) : Nat → List Byte → List Nat
  | 0, _ => []
  | k + 1, l => ofLe (l.take n) :: numsOf n k (l.drop n)

def Block.rd (b : Block) (w : Who) (a n : Nat) : Except Failed (List Byte) × Block := b.engRead w.die w.part (some w.job) a n
def Block.wr (b : Block) (w : Who) (a : Nat) (l : List Byte) : Option Failed × Block := b.engWrite w.die w.part a l

/-- `n` numbers of `e` bytes from an address. -/
def Block.rdNums (b : Block) (w : Who) (a e n : Nat) : Except Failed (List Nat) × Block :=
  if n = 0 then (.ok [], b)
  else match b.rd w a (n * e) with
    | (.ok l, b) => (.ok (numsOf e n l), b)
    | (.error f, b) => (.error f, b)

/-- Columns read one after another: for each its address and how many rows to skip and to read. -/
def Block.rdCols (b : Block) (w : Who) (e n : Nat) : List (Nat × Nat) → Except Failed Mat × Block
  | [] => (.ok [], b)
  | (a, skip) :: r =>
    match b.rdNums w (a + skip * e) e (n - skip) with
    | (.error f, b) => (.error f, b)
    | (.ok c, b) =>
      match b.rdCols w e n r with
      | (.ok m, b) => (.ok ((List.replicate skip 0 ++ c) :: m), b)
      | x => x

/-- A strided matrix of c columns; only the lower triangle where `low`. -/
def Block.rdMat (b : Block) (w : Who) (e n c a ld : Nat) (low : Bool) : Except Failed Mat × Block :=
  b.rdCols w e n ((List.range c).map fun j => (a + j * ld, if low then j else 0))

/-- Columns written one after another from the row given. -/
def Block.wrCols (b : Block) (w : Who) (e : Nat) : List (Nat × Nat × List Nat) → Option Failed × Block
  | [] => (none, b)
  | (a, skip, c) :: r =>
    match b.wr w (a + skip * e) ((c.drop skip).flatMap (leBytes e)) with
    | (some f, b) => (some f, b)
    | (none, b) => b.wrCols w e r

def Block.wrMat (b : Block) (w : Who) (e a ld : Nat) (low : Bool) (m : Mat) : Option Failed × Block :=
  b.wrCols w e ((List.range m.length).map fun j => (a + j * ld, if low then j else 0, m.getD j []))

/-- Free bytes left in a range that holds partial or scratch values (R680, R686); what cannot be written stays. -/
def Block.scramble (b : Block) (w : Who) (a n : Nat) : Block :=
  if n = 0 then b else let (l, b) := b.freeBytes n
                       (b.wr w a l).2

-- Running a SOLVE ------------------------------------------------------------------------------------------------------

/-- What a solve came to: end or failure, columns, iterations, replacements, exchanges, ‖A‖ and residual. -/
structure Solved where
  fin : SolveEnd
  bad : Option Failed
  cols : Nat
  iters : Nat
  regs : Regs
  swaps : Nat
  norm : Nat
  resid : Nat
  tests : Nat
  deriving DecidableEq, Repr

def Solved.new (norm : Nat) : Solved :=
  { fin := .done, bad := none, cols := 0, iters := 0, regs := Regs.none, swaps := 0, norm := norm, resid := 0, tests := 0 }

/-- The report's bytes (R682). -/
def reportBytes (d s : List Byte) (o : Solved) (start stop : Nat) : List Byte :=
  let fl := b2n (soGuard d) + b2n (soMethod d != mPcg && soMethod d != mFactor && o.cols == qN s) * 2 + b2n (o.regs.count != 0) * 4 +
    b2n (o.fin == .notConverged) * 8 + b2n (o.fin == .breakdown) * 16 + b2n (o.fin == .deadline) * 32 +
    b2n (o.bad.isSome || o.fin == .parity) * 64
  [0x51, 0x45, 0x52, 0x4E, byteOf (soMethod d), byteOf (soPrec d), byteOf fl, byteOf (qBs s)] ++ leBytes 4 (qN s) ++
    leBytes 4 o.cols ++ leBytes 4 o.iters ++ leBytes 4 o.regs.count ++ leBytes 4 o.regs.first ++ leBytes 4 o.swaps ++
    leBytes 8 o.norm ++ leBytes 8 o.resid ++ leBytes 8 start ++ leBytes 8 stop

/-- STATUS, CAUSE and RESULT (R679). -/
def solveStatus (d : List Byte) (o : Solved) : Nat × Nat × Nat :=
  let res := if soMethod d = mPcg then o.iters else if soMethod d = mFactor then 0 else o.cols
  match o.bad with
  | some f => (f.status, f.cause, res)
  | none =>
    match o.fin with
    | .parity => (stEngine, 0xD9, res)
    | .breakdown => (stDegraded, 0xD8, res)
    | .notConverged => (stDegraded, 0xD7, res)
    | .deadline => (if soMethod d = mPcg then stDeadline else stPartial, 0, res)
    | .done => if o.regs.count ≠ 0 then (stDegraded, 0xD6, res) else (stDone, 0, res)

/-- The report written and the SOLVE completed, with its statistics. -/
def Block.endSolve (b : Block) (w : Who) (j : Job) (s : List Byte) (o : Solved) (start : Nat) (clock : List Nat) : Block :=
  let d := j.desc
  let (st, c, res) := solveStatus d o
  let (bad, b) := b.wr w (qInfo s) (reportBytes d s o start (b.clockAt clock o.tests))
  let (st, c) := match bad with | some f => if o.bad.isNone then (f.status, f.cause) else (st, c) | none => (st, c)
  let b := if b.on .QN_CTRL_STAT_EN w.die then
      let b := (b.bump .QN_SOLVES_COUNT w.die).bump .QN_REG_PIVOTS_COUNT w.die o.regs.count
      if st = stDeadline ∨ st = stPartial then b.bump .QN_DEADLINES_COUNT w.die else b
    else b
  b.conclude j st c res

/-- Right-hand sides solved and written. -/
def Block.solveRhs (b : Block) (w : Who) (e : Nat) (s : List Byte) (solve : List Nat → List Nat) : Option Failed × Block :=
  match b.rdMat w e (qN s) (qNrhs s) (qB s) (qLdb s) false with
  | (.error f, b) => (some f, b)
  | (.ok m, b) => b.wrMat w e (qX s) (qLdx s) false (m.map solve)

/-- The solve after a complete factorisation; where parity strikes in it, X holds partial values (R679). -/
def Block.finishSolve (b : Block) (w : Who) (e : Nat) (s : List Byte) (o : Solved) (bad : Bool) (solve : List Nat → List Nat) : Solved × Block :=
  if bad then
    ({ o with fin := .parity }, (List.range (qNrhs s)).foldl (fun b c => b.scramble w (qX s + c * qLdx s) (qN s * e)) b)
  else if qNrhs s = 0 then (o, b)
  else match b.solveRhs w e s solve with
    | (some y, b) => ({ o with bad := some y }, b)
    | (none, b) => (o, b)

/-- GUARD mode as a method applies it. -/
def guardOf (d s : List Byte) (norm : Nat) : Guard :=
  let f := soFmt d
  let r (v : Nat) : Nat := f.enc (fp64.dec v)
  { on := soGuard d, thr := f.mul (r (qTau s)) norm, delta := r (qDelta s) }

/-- Panels of a dense factorisation, each preceded by its deadline test: how it stopped, columns, the factor, tests made. -/
def densePanels (f : Fmt) (g : Guard) (method n : Nat) (a : Mat) (late bad : Nat → Bool) :
    Nat → Nat → Fact → SolveEnd × Nat × Fact × Nat
  | 0, k, x => (.done, min n (64 * k), x, k)
  | fuel + 1, k, x =>
    if n ≤ 64 * k then (.done, n, x, k)
    else if late k then (.deadline, 64 * k, x, k + 1)
    else if bad k then (.parity, 64 * k, x, k + 1)
    else densePanels f g method n a late bad fuel (k + 1) (denseCols f g method n 0 a x (64 * k) (min n (64 * k + 64)))

/-- Partial values after a failure or a parity error: F, PIV and X (R686). -/
def Block.spoilDense (b : Block) (w : Who) (e : Nat) (s : List Byte) (low : Bool) (cols : Nat) : Block :=
  let n := qN s
  ((List.range n).drop cols).foldl (fun b j =>
    let skip := if low then j else 0
    b.scramble w (qF s + j * qLdf s + skip * e) ((n - skip) * e)) b

/-- CHOL, LDLT and LU. -/
def Block.runDense (b : Block) (w : Who) (j : Job) (s : List Byte) (clock : List Nat) (parity : Option Nat) : Solved × Block :=
  let d := j.desc
  let method := soMethod d
  let f := soFmt d
  let e := soElem d
  let n := qN s
  let low := method != mLu
  match b.rdMat w e n n (qA s) (qLda s) low with
  | (.error x, b) => ({ Solved.new 0 with bad := some x }, b)
  | (.ok a, b) =>
    let norm := matNorm f a.flatten
    let g := guardOf d s norm
    let start : Fact := { m := if low then [] else a, piv := [], swaps := 0, regs := Regs.none }
    let (stop, cols, x, tests) := densePanels f g method n a (b.deadlineAt j clock) (fun k => parity == some k) (n / 64 + 2) 0 start
    let o := { Solved.new (fp64.enc (f.dec norm)) with fin := stop, cols := cols, regs := x.regs, swaps := x.swaps, tests := tests }
    let whole := x.m.take cols
    match b.wrMat w e (qF s) (qLdf s) low whole with
    | (some y, b) => ({ o with bad := some y }, b.spoilDense w e s low 0)
    | (none, b) =>
      match (if method = mLu then b.wr w (qPiv s) ((x.piv.take cols).flatMap (leBytes 4)) else (none, b)) with
      | (some y, b) => ({ o with bad := some y }, b)
      | (none, b) =>
        if stop ≠ .done then
          let b := b.spoilDense w e s low cols
          (o, if method = mLu then b.scramble w (qPiv s + 4 * cols) (4 * (n - cols)) else b)
        else b.finishSolve w e s o (parity == some (ceilDiv n 64)) (denseSolve f method n x.m x.piv)

/-- Blocks of a BTRI array, column by column; only lower triangles where `low`. -/
def Block.rdBlocks (b : Block) (w : Who) (e n a count : Nat) (low : Bool) : Except Failed (List Mat) × Block :=
  match b.rdCols w e n ((List.range (count * n)).map fun c => (a + c * n * e, if low then c % n else 0)) with
  | (.error f, b) => (.error f, b)
  | (.ok m, b) => (.ok ((List.range count).map fun k => (m.drop (k * n)).take n), b)

def Block.wrBlocks (b : Block) (w : Who) (e n a : Nat) (low : Bool) (l : List Mat) : Option Failed × Block :=
  let cols := l.flatten
  b.wrCols w e ((List.range cols.length).map fun c => (a + c * n * e, if low then c % n else 0, cols.getD c []))

/-- Writes in turn until one fails. -/
def Block.wrSeq (b : Block) : List (Block → Option Failed × Block) → Option Failed × Block
  | [] => (none, b)
  | g :: r => match g b with
    | (some f, b) => (some f, b)
    | (none, b) => b.wrSeq r

/-- The arrays of a BTRI read. -/
def Block.rdBtri (b : Block) (w : Who) (e : Nat) (s : List Byte) (piv : Bool) : Except Failed Btri × Block :=
  let n := qBs s
  let nb := qNb s
  match b.rdBlocks w e n (qDiag s) nb (qSym s) with
  | (.error f, b) => (.error f, b)
  | (.ok dg, b) =>
    match b.rdBlocks w e n (qSub s) (nb - 1) false with
    | (.error f, b) => (.error f, b)
    | (.ok sb, b) =>
      match b.rdBlocks w e n (qSup s) (if qSym s then 0 else nb - 1) false with
      | (.error f, b) => (.error f, b)
      | (.ok sp, b) =>
        match b.rdNums w (qBpiv s) 4 (if piv && !qSym s then qN s else 0) with
        | (.error f, b) => (.error f, b)
        | (.ok pv, b) => (.ok { diag := dg, sub := sb, sup := sp, piv := pv, swaps := 0, regs := Regs.none }, b)

/-- Blocks in turn, each preceded by its deadline test. -/
def btriBlocks (f : Fmt) (g : Guard) (sym : Bool) (n nb : Nat) (late bad : Nat → Bool) : Nat → Nat → Btri → SolveEnd × Nat × Btri
  | 0, k, x => (.done, k, x)
  | fuel + 1, k, x =>
    if nb ≤ k then (.done, k, x)
    else if late k then (.deadline, k, x)
    else if bad k then (.parity, k, x)
    else btriBlocks f g sym n nb late bad fuel (k + 1) (btriStep f g sym n nb x k)

/-- BTRI. -/
def Block.runBtri (b : Block) (w : Who) (j : Job) (s : List Byte) (clock : List Nat) (parity : Option Nat) : Solved × Block :=
  let d := j.desc
  let f := soFmt d
  let e := soElem d
  let n := qBs s
  let nb := qNb s
  let sym := qSym s
  match b.rdBtri w e s false with
  | (.error x, b) => ({ Solved.new 0 with bad := some x }, b)
  | (.ok a, b) =>
    let norm := matNorm f (a.diag ++ a.sub ++ a.sup).flatten.flatten
    let g := guardOf d s norm
    let (stop, k, x) := btriBlocks f g sym n nb (b.deadlineAt j clock) (fun k => parity == some k) (nb + 1) 0 a
    let o := { Solved.new (fp64.enc (f.dec norm)) with fin := stop, cols := k * n, regs := x.regs, swaps := x.swaps, tests := k + 1 }
    let kk := min k (nb - 1)
    let writes : List (Block → Option Failed × Block) :=
      [fun b => b.wrBlocks w e n (qDiag s) sym (x.diag.take k), fun b => b.wrBlocks w e n (qSub s) false (x.sub.take kk),
       fun b => if sym then (none, b) else b.wrBlocks w e n (qSup s) false (x.sup.take kk),
       fun b => if sym then (none, b) else b.wr w (qBpiv s) ((x.piv.take (k * n)).flatMap (leBytes 4))]
    match b.wrSeq writes with
    | (some y, b) => ({ o with bad := some y }, b)
    | (none, b) =>
      if stop ≠ .done then
        let z := n * n * e
        let b := b.scramble w (qDiag s + k * z) ((nb - k) * z)
        let b := b.scramble w (qSub s + kk * z) ((nb - 1 - kk) * z)
        let b := if sym then b else b.scramble w (qSup s + kk * z) ((nb - 1 - kk) * z)
        (o, if sym then b else b.scramble w (qBpiv s + 4 * k * n) (4 * (nb - k) * n))
      else b.finishSolve w e s o (parity == some nb) (btriSolve f sym n nb x)

/-- ROWPTR and COLIDX form a CSR structure (R663, R664). -/
def csrOk (n nnz : Nat) (rp ci : List Nat) : Bool :=
  rp.getD 0 1 == 0 && rp.getD n 0 == nnz && (List.range n).all (fun i => decide (rp.getD i 0 ≤ rp.getD (i + 1) 0)) &&
    ci.all fun c => decide (c < n)

/-- The rows of a CSR matrix. -/
def csrRows (n : Nat) (rp ci vals : List Nat) : Csr :=
  (List.range n).map fun i =>
    let lo := rp.getD i 0
    (((List.zip ci vals).drop lo).take (rp.getD (i + 1) 0 - lo))

/-- The diagonal entry of a row: the first stored, zero when none is. -/
def csrDiag (a : Csr) (i : Nat) : Nat := ((a.getD i []).find? fun e => e.1 = i).elim 0 (·.2)

/-- The preconditioner's values: ones, reciprocals of the guarded diagonal, or those supplied. -/
def pcgMinv (f : Fmt) (g : Guard) (kind n : Nat) (a : Csr) (supplied : List Nat) : List Nat × Regs :=
  let one := f.enc (fvNat 1)
  if kind = 0 then (List.replicate n one, Regs.none)
  else if kind = 2 then (supplied, Regs.none)
  else (List.range n).foldl (fun (acc : List Nat × Regs) i =>
    let (d, r) := g.pivot f false i (csrDiag a i) acc.2
    (acc.1 ++ [f.div one d], r)) ([], Regs.none)

/-- What PCG reads: the matrix, b, the start and the supplied preconditioner; `none` for a malformed CSR. -/
structure PcgIn where
  a : Csr
  rhs : List Nat
  x : List Nat
  minv : List Nat
  vals : List Nat
  deriving DecidableEq, Repr

def Block.rdPcg (b : Block) (w : Who) (e : Nat) (s : List Byte) : Except (Option Failed) PcgIn × Block :=
  let n := qN s
  match b.rdNums w (qRowptr s) 4 (n + 1) with
  | (.error f, b) => (.error (some f), b)
  | (.ok rp, b) =>
    match b.rdNums w (qColidx s) 4 (qNnz s) with
    | (.error f, b) => (.error (some f), b)
    | (.ok ci, b) =>
      if !csrOk n (qNnz s) rp ci then (.error none, b)
      else match b.rdNums w (qVals s) e (qNnz s) with
        | (.error f, b) => (.error (some f), b)
        | (.ok vals, b) =>
          match b.rdNums w (qB s) e n with
          | (.error f, b) => (.error (some f), b)
          | (.ok rhs, b) =>
            match b.rdNums w (qX s) e (if qX0 s then n else 0) with
            | (.error f, b) => (.error (some f), b)
            | (.ok x, b) =>
              match b.rdNums w (qMinv s) e (if qPrecond s = 2 then n else 0) with
              | (.error f, b) => (.error (some f), b)
              | (.ok mi, b) =>
                (.ok { a := csrRows n rp ci vals, rhs := rhs, x := if qX0 s then x else List.replicate n 0, minv := mi, vals := vals }, b)

/-- PCG; `none` for BAD_CSR. -/
def Block.runPcg (b : Block) (w : Who) (j : Job) (s : List Byte) (clock : List Nat) (parity : Option Nat) : Option Solved × Block :=
  let d := j.desc
  let f := soFmt d
  let e := soElem d
  let n := qN s
  match b.rdPcg w e s with
  | (.error none, b) => (none, b)
  | (.error (some x), b) => (some { Solved.new 0 with bad := some x }, b)
  | (.ok v, b) =>
    let norm := matNorm f v.vals
    let g := guardOf d s norm
    let (minv, regs) := pcgMinv f g (qPrecond s) n v.a v.minv
    let r := List.zipWith f.sub v.rhs (csrMul f v.a v.x)
    let z := List.zipWith f.mul minv r
    let rt := f.enc (fp64.dec (qRtol s))
    let tol := f.mul (f.mul rt rt) (pcgDot f v.rhs v.rhs)
    let st : Pcg := { x := v.x, r := r, p := z, rho := pcgDot f r z, iters := 0, rr := pcgDot f r r }
    let late (k : Nat) : Bool := b.deadlineAt j clock k
    let bad (k : Nat) : Bool := parity == some k
    let (stop, x) := if late 0 then (.deadline, st) else if bad 0 then (.parity, st)
      else pcgLoop f g.on v.a minv tol (qMaxit s) late bad (qMaxit s) st
    let o := { Solved.new (fp64.enc (f.dec norm)) with fin := stop, iters := x.iters, regs := regs,
                                                       resid := fp64.enc (f.dec (f.sqrt x.rr)), tests := x.iters + 1 }
    match b.wr w (qX s) (x.x.flatMap (leBytes e)) with
    | (some y, b) => (some { o with bad := some y }, b)
    | (none, b) => (some o, b.scramble w (qWork s) (4 * n * e))

/-- SOLVE_FACTOR with the factor of method `m`; `bad` when parity strikes. -/
def Block.runFactor (b : Block) (w : Who) (j : Job) (s : List Byte) (m norm : Nat) (bad : Bool) : Solved × Block :=
  let d := j.desc
  let f := soFmt d
  let e := soElem d
  let n := qN s
  let o := Solved.new norm
  if m = mBtri then
    match b.rdBtri w e s true with
    | (.error x, b) => ({ o with bad := some x }, b)
    | (.ok a, b) => b.finishSolve w e s o bad (btriSolve f (qSym s) (qBs s) (qNb s) a)
  else
    match b.rdMat w e n n (qF s) (qLdf s) (m != mLu) with
    | (.error x, b) => ({ o with bad := some x }, b)
    | (.ok a, b) =>
      match b.rdNums w (qPiv s) 4 (if m = mLu then n else 0) with
      | (.error x, b) => ({ o with bad := some x }, b)
      | (.ok pv, b) => b.finishSolve w e s o bad (denseSolve f m n a pv)

/-- The report names a usable factor for this solve (R683). -/
def factorOk (d s rep : List Byte) : Bool :=
  let m := fieldAt rep 4 1
  rep.take 4 == [0x51, 0x45, 0x52, 0x4E] && decide (1 ≤ m ∧ m ≤ 4) && (fieldAt rep 6 1).testBit 1 && fieldAt rep 8 4 == qN s &&
    fieldAt rep 7 1 == qBs s && fieldAt rep 5 1 == soPrec d

/-- The first cause for which the solve block is refused, with `m` as the laid-out method. -/
def solveFault (d s : List Byte) (m : Nat) : Option Nat :=
  if solveBad d s m then some 0xD0
  else if solveMisaligned d s m then some 0xD1
  else if solveOverlap (solveRegions d s m) then some 0xD2
  else if guardBad d s then some 0xD3
  else none

/-- A solve of one method whose block has passed its checks. -/
def Block.runSolve (b : Block) (w : Who) (j : Job) (s : List Byte) (clock : List Nat) (parity : Option Nat) : Block :=
  let start := b.gmc
  let m := soMethod j.desc
  if m = mPcg then
    match b.runPcg w j s clock parity with
    | (none, b) => b.violateJob j 0xD4
    | (some o, b) => b.endSolve w j s o start clock
  else
    let (o, b) := if m = mBtri then b.runBtri w j s clock parity else b.runDense w j s clock parity
    b.endSolve w j s o start clock

/-- SOLVE_FACTOR: the report read, then the block checked in the layout of its method. -/
def Block.runStored (b : Block) (w : Who) (j : Job) (s : List Byte) (clock : List Nat) (parity : Option Nat) : Block :=
  let d := j.desc
  if qInfo s % 64 ≠ 0 ∨ soParams d % 64 ≠ 0 then b.violateJob j 0xD1
  else match b.rd w (qInfo s) 64 with
    | (.error f, b) => b.endSolve w j s { Solved.new 0 with bad := some f } b.gmc clock
    | (.ok rep, b) =>
      let m := fieldAt rep 4 1
      let lay := if 1 ≤ m ∧ m ≤ 4 then m else mChol
      match solveFault d s lay with
      | some c => if c = 0xD0 ∧ ¬ factorOk d s rep then b.violateJob j 0xD5 else b.violateJob j c
      | none =>
        if !factorOk d s rep then b.violateJob j 0xD5
        else
          let (o, b) := b.runFactor w j s m (fieldAt rep 0x20 8) parity.isSome
          b.endSolve w j s o b.gmc clock

/-- The die whose Quern takes a SOLVE now (R658): G0 before G1 among those DIE allows and that take work. -/
def Block.quernDie (b : Block) (d : List Byte) : Option Nat :=
  [0, 1].find? fun k => (soDie d == 0 || soDie d == k + 1 || (soDie d == 3 && k == 0)) && b.dieReady k

/-- The cycles for which the Quern of a die is BUSY with a solve, where statistics are counted (R689): a free value. -/
def Block.quernBusy (b : Block) (die : Nat) : Block :=
  if b.on .QN_CTRL_STAT_EN die then (b.bump .QN_BUSY_COUNT die (b.freeVal 48)).took else b

/-- The SOLVE of METHOD `m` that starts now; METHOD values outside the table come with CHOL and are refused there. -/
def Block.solveStart (b : Block) (m id : Nat) : Option (Job × Block) × Block :=
  b.engineGo engQuern (isOp 0x50) (fun j => (b.quernDie j.desc).isSome)
    (fun j => soMethod j.desc == m || (m == mChol && (soMethod j.desc == 0 || decide (6 < soMethod j.desc)))) id

/-- The Quern that a SOLVE runs on. -/
def Block.solveDie (b : Block) (d : List Byte) : Nat := (b.quernDie d).getD 0

/-- Its die has work. -/
def Block.solveWorks (b : Block) (d : List Byte) : Block := (b.dieWorks (b.solveDie d)).quernBusy (b.solveDie d)

/-- A SOLVE of METHOD `m`. -/
def Block.solve (b : Block) (m id : Nat) (clock : List Nat) (parity : Option Nat) : Block :=
  match b.solveStart m id with
  | (none, b) => b
  | (some (j, b), _) =>
    let d := j.desc
    let w : Who := { die := b.solveDie d, part := j.part, job := j.id }
    match (b.solveWorks d).rd w (soParams d) 128 with
    | (.error f, b) => b.conclude j f.status f.cause 0
    | (.ok s, b) =>
      if soMethod d = mFactor then b.runStored w j s clock parity
      else match solveFault d s (soMethod d) with
        | some c => b.violateJob j c
        | none => b.runSolve w j s clock parity

def execChol (job : Nat) (clock : List Nat) (parity : Option Nat) (strikes : List Strike) (replies : List Reply) (s : State) :=
  s.act (·.runOp (jobAgent job) strikes replies (·.solve mChol job clock parity))
def execLdlt (job : Nat) (clock : List Nat) (parity : Option Nat) (strikes : List Strike) (replies : List Reply) (s : State) :=
  s.act (·.runOp (jobAgent job) strikes replies (·.solve mLdlt job clock parity))
def execSolveLu (job : Nat) (clock : List Nat) (parity : Option Nat) (strikes : List Strike) (replies : List Reply) (s : State) :=
  s.act (·.runOp (jobAgent job) strikes replies (·.solve mLu job clock parity))
def execBtri (job : Nat) (clock : List Nat) (parity : Option Nat) (strikes : List Strike) (replies : List Reply) (s : State) :=
  s.act (·.runOp (jobAgent job) strikes replies (·.solve mBtri job clock parity))
def execPcg (job : Nat) (clock : List Nat) (parity : Option Nat) (strikes : List Strike) (replies : List Reply) (s : State) :=
  s.act (·.runOp (jobAgent job) strikes replies (·.solve mPcg job clock parity))
def execSolveFactor (job : Nat) (clock : List Nat) (parity : Option Nat) (strikes : List Strike) (replies : List Reply) (s : State) :=
  s.act (·.runOp (jobAgent job) strikes replies (·.solve mFactor job clock parity))

end Sys2Proof.Machine
end

