-- ==== Sys2Proof/Machine/Planner.lean ====
section
/-! DEFINITION. Planning (spec/16): the PLAN descriptor, its optimiser over knots with a check and a block-tridiagonal solve in each
iteration, and its report. -/

namespace Sys2Proof.Machine

-- The plan block (R762, R763) ------------------------------------------------------------------------------------------

def plParams (d : List Byte) : Nat := dArg d 0x00 8
def plFlags (d : List Byte) : Nat := dArg d 0x09 1
def plDie (d : List Byte) : Nat := bits (plFlags d) 0 2
def plGoal (d : List Byte) : Bool := (plFlags d).testBit 2

def pbRobot (p : List Byte) : Nat := fieldAt p 0x00 8
def pbInit (p : List Byte) : Nat := fieldAt p 0x08 8
def pbOut (p : List Byte) : Nat := fieldAt p 0x10 8
def pbReport (p : List Byte) : Nat := fieldAt p 0x18 8
def pbScratch (p : List Byte) : Nat := fieldAt p 0x20 8
def pbScratchLen (p : List Byte) : Nat := fieldAt p 0x28 8
def pbSmooth (p : List Byte) : Nat := fieldAt p 0x30 4
def pbClear (p : List Byte) : Nat := fieldAt p 0x34 4
def pbSafe (p : List Byte) : Nat := fieldAt p 0x38 4
def pbLimit (p : List Byte) : Nat := fieldAt p 0x3C 4
def pbMargin (p : List Byte) : Nat := fieldAt p 0x40 4
def pbIters (p : List Byte) : Nat := fieldAt p 0x44 2
def pbTol (p : List Byte) : Nat := fieldAt p 0x48 8
def pbTau (p : List Byte) : Nat := fieldAt p 0x50 8
def pbDelta (p : List Byte) : Nat := fieldAt p 0x58 8

def plArgsBad (d : List Byte) : Bool :=
  plParams d % 64 != 0 || decide (7 < plWorld d) || plDie d == 3 || bits (plFlags d) 3 5 != 0 || dArg d 0x0A 22 != 0 || dWidth d != 0

/-- An FP64 field that is finite and above zero, or with `zero` at least zero. -/
def f64Ok (zero : Bool) (v : Nat) : Bool :=
  let x := fp64.dec v
  x.isFinite && (if x.isZero then zero else !x.isNeg)

def plBlockBad (p : List Byte) : Bool :=
  pbReport p % 64 != 0 || pbScratch p % 64 != 0 || [0x30, 0x34, 0x38, 0x3C].any (weightBad p) || decide (1000000 < pbMargin p) ||
    pbIters p == 0 || decide (1024 < pbIters p) || !f64Ok false (pbTol p) || !f64Ok true (pbTau p) || !f64Ok false (pbDelta p) ||
    fieldAt p 0x60 32 != 0

/-- Least SCRATCH_LEN. -/
def scratchNeed (j k : Nat) : Nat := 64 * j * j * k + 32 * j * k + 704 * k + 4096

/-- What a PLAN reads before its first iteration. -/
structure PlanIn where
  p : List Byte
  goal : Bool
  job : CheckJob
  init : Traj
  deriving DecidableEq, Repr

def Block.placedAt (b : Block) (p a : Nat) : Bool := match b.destOf p a with | .tier _ => true | _ => false

def readPlan (w : Who) (d : List Byte) (world : Nat) : EngM (Except Nat PlanIn) := do
  if plArgsBad d then return .error 0xF3
  let p ← readM w (plParams d) 128
  if plBlockBad p then return .error 0xF3
  let tier ← engM fun b => (.ok (b.placedAt w.part (pbScratch p)), b)
  if !tier then return .error 0xF3
  let rob ← readRobot w (pbRobot p)
  match rob with
  | none => return .error 0xF1
  | some r =>
    let nj := r.joints.length
    let head ← readM w (pbInit p) 16
    let nk := fieldAt head 9 1
    if nk < 2 ∨ 64 < nk then return .error 0xF3
    let l ← readM w (pbInit p) (trajLen nj nk)
    if trajBad nj nk l || decide (pbScratchLen p < scratchNeed nj nk) then return .error 0xF3
    if world = 0 then return .error 0xF2
    let h ← readM w world 128
    return .ok { p := p, goal := plGoal d, init := trajOf nj nk l,
                 job := { robot := r, margin := pbMargin p, exitFirst := false, ep := { w := w, h := h } } }

-- Iterates -------------------------------------------------------------------------------------------------------------

/-- An iterate checked: its segments, whether it is CLEAR, its objective in FP32, and its number. -/
structure Iterate where
  t : Traj
  segs : List SegRes
  clear : Bool
  obj : Nat
  ix : Nat
  deriving DecidableEq, Repr

/-- How far a value lies outside an interval, signed. -/
def excess (lo hi x : Rat) : Rat := if hi < x then x - hi else if x < lo then x - lo else 0

/-- The excesses of a knot: of each Q, then of each QD. -/
def Robot.excesses (r : Robot) (k : Knot) : List Rat :=
  let n := List.range r.joints.length
  n.map (fun i => excess (r.joint i).qMin (r.joint i).qMax (f32Rat (k.q.getD i 0))) ++
    n.map fun i => excess (-(r.joint i).vMax) (r.joint i).vMax (f32Rat (k.qd.getD i 0))

/-- The objective: the cost without its NaN, and the limit terms. -/
def PlanIn.objective (x : PlanIn) (t : Traj) (segs : List SegRes) : Nat :=
  let r := x.job.robot
  let ks := (List.range (t.knots.length - 1)).map t.seg
  let c := costOf (pbSmooth x.p) (pbClear x.p) (pbSafe x.p) r.joints.length ks (segs.map (·.clear))
  let l := f32Sum (t.knots.flatMap fun k => (r.excesses k).map fun e => e * e)
  fp32.add c (fp32.mul (pbLimit x.p) l)

/-- A trajectory checked as an iterate. -/
def PlanIn.check (x : PlanIn) (t : Traj) (ix : Nat) : EngM Iterate := do
  let n := t.knots.length - 1
  let res ← x.job.segments t none n 0 { segs := [], kept := false, retests := 0, exited := false }
  let segs := res.segs.map (·.2)
  return { t := t, segs := segs, clear := segs.all (fun s => !s.contact), obj := x.objective t segs, ix := ix }

-- The step (R764) ------------------------------------------------------------------------------------------------------

/-- Sums in FP64: the block-tridiagonal matrix by its blocks and the gradient by knots. -/
structure Sys where
  diag : List Mat
  sub : List Mat
  g : List (List Nat)
  deriving DecidableEq, Repr

def Sys.zero (n k : Nat) : Sys :=
  { diag := List.replicate k (mkMat n n fun _ _ => 0), sub := List.replicate (k - 1) (mkMat n n fun _ _ => 0),
    g := List.replicate k (List.replicate n 0) }

def f64Plus (v : Nat) (x : Rat) : Nat := fp64.add v (fp64.ofRat x)

def Mat.bump (m : Mat) (i j : Nat) (x : Rat) : Mat := m.put i j (f64Plus (m.at i j) x)

def Sys.addDiag (s : Sys) (k i j : Nat) (x : Rat) : Sys := { s with diag := s.diag.set k ((s.diag.getD k []).bump i j x) }
def Sys.addSub (s : Sys) (k i j : Nat) (x : Rat) : Sys := { s with sub := s.sub.set k ((s.sub.getD k []).bump i j x) }
def Sys.addG (s : Sys) (k i : Nat) (x : Rat) : Sys :=
  let v := s.g.getD k []
  { s with g := s.g.set k (v.set i (f64Plus (v.getD i 0) x)) }

/-- One joint's part of a segment: W_SMOOTH times the gradient and Hessian of S. Variables of a knot: its Q, then its QD. -/
def Sys.smooth (y : Sys) (wt : Rat) (j k i : Nat) (s : Seg) : Sys :=
  let h := s.h
  let d := s.q1.getD i 0 - s.q0.getD i 0
  let v0 := s.v0.getD i 0
  let v1 := s.v1.getD i 0
  let gq := wt * (24 / (h * h * h) * d - 12 / (h * h) * (v0 + v1))
  let y := y.addG k i (-gq)
  let y := y.addG k (j + i) (wt * (4 / h * (2 * v0 + v1) - 12 / (h * h) * d))
  let y := y.addG (k + 1) i gq
  let y := y.addG (k + 1) (j + i) (wt * (4 / h * (v0 + 2 * v1) - 12 / (h * h) * d))
  let a := wt * (24 / (h * h * h))
  let c := wt * (12 / (h * h))
  let e := wt * (8 / h)
  let y := ((y.addDiag k i i a).addDiag k i (j + i) c).addDiag k (j + i) i c
  let y := y.addDiag k (j + i) (j + i) e
  let y := ((y.addDiag (k + 1) i i a).addDiag (k + 1) i (j + i) (-c)).addDiag (k + 1) (j + i) i (-c)
  let y := y.addDiag (k + 1) (j + i) (j + i) e
  let y := ((y.addSub k i i (-a)).addSub k i (j + i) (-c)).addSub k (j + i) i c
  y.addSub k (j + i) (j + i) (wt * (4 / h))

/-- A segment's clearance terms: its GRAD mapped to the variables of both knots. -/
def Sys.clearance (y : Sys) (wt dsafe : Rat) (j k : Nat) (s : Seg) (r : SegRes) : Sys :=
  let c := f32Rat r.clear
  if dsafe ≤ c then y
  else
    let u := f32Rat r.u
    let gr (i : Nat) : Rat := f32Rat (r.grad.getD i 0)
    let j0 := (List.range (2 * j)).map fun v => if v < j then h00 u * gr v else h10 u * s.h * gr (v - j)
    let j1 := (List.range (2 * j)).map fun v => if v < j then h01 u * gr v else h11 u * s.h * gr (v - j)
    let knot (y : Sys) (k : Nat) (jv : List Rat) : Sys :=
      let y := (List.range (2 * j)).foldl (fun y v => y.addG k v (-2 * wt * (dsafe - c) * jv.getD v 0)) y
      (List.range (2 * j)).foldl (fun y v => (List.range (2 * j)).foldl (fun y u =>
        y.addDiag k v u (2 * wt * jv.getD v 0 * jv.getD u 0)) y) y
    knot (knot y k j0) (k + 1) j1

/-- A fixed knot: identity, no coupling, zero right-hand side. -/
def Sys.fix (y : Sys) (n k : Nat) : Sys :=
  let one := fp64.ofRat 1
  { diag := y.diag.set k (mkMat n n fun i j => if i = j then one else 0),
    sub := (List.range y.sub.length).map fun i => if i = k ∨ i + 1 = k then mkMat n n fun _ _ => 0 else y.sub.getD i [],
    g := y.g.set k (List.replicate n 0) }

/-- The system of an iterate. -/
def PlanIn.assemble (x : PlanIn) (it : Iterate) : Sys :=
  let r := x.job.robot
  let j := r.joints.length
  let nk := it.t.knots.length
  let ws := f32Rat (pbSmooth x.p)
  let wc := f32Rat (pbClear x.p)
  let wl := f32Rat (pbLimit x.p)
  let y := (List.range (nk - 1)).foldl (fun y k =>
    let s := it.t.seg k
    let y := (List.range j).foldl (fun y i => y.smooth ws j k i s) y
    y.clearance wc (f32Rat (pbSafe x.p)) j k s (it.segs.getD k SegRes.untested)) (Sys.zero (2 * j) nk)
  let y := (List.range nk).foldl (fun y k =>
    let ex := r.excesses (it.t.knots.getD k Knot.none)
    (List.range (2 * j)).foldl (fun y v =>
      let e := ex.getD v 0
      if e = 0 then y else (y.addG k v (2 * wl * e)).addDiag k v v (2 * wl)) y) y
  let y := y.fix (2 * j) 0
  if x.goal then y.fix (2 * j) (nk - 1) else y

/-- The internal solve: the step and whether it was regularised. -/
def PlanIn.solve (x : PlanIn) (y : Sys) : List Nat × Bool :=
  let n := (y.diag.headD []).length
  let nb := y.diag.length
  let a : Btri := { diag := y.diag, sub := y.sub, sup := [], piv := [], swaps := 0, regs := Regs.none }
  let norm := matNorm fp64 (y.diag ++ y.sub).flatten.flatten
  let g : Guard := { on := true, thr := fp64.mul (pbTau x.p) norm, delta := pbDelta x.p }
  let f := (List.range nb).foldl (btriStep fp64 g true n nb) a
  (btriSolve fp64 true n nb f (y.g.flatten.map fp64.negate), f.regs.count != 0)

/-- The trial x + αΔ, α = 2^-e. -/
def trialOf (j e : Nat) (t : Traj) (delta : List Nat) : Traj :=
  let alpha := mkRat 1 (2 ^ e)
  let move (v ix : Nat) : Nat :=
    let step := fp64.mul (fp64.ofRat alpha) (delta.getD ix 0)
    fp32.enc (fp64.dec (fp64.add (fp64.enc (fp32.dec v)) step))
  { t with knots := (List.range t.knots.length).map fun k =>
      let n := t.knots.getD k Knot.none
      { n with q := (List.range j).map fun i => move (n.q.getD i 0) (2 * j * k + i),
               qd := (List.range j).map fun i => move (n.qd.getD i 0) (2 * j * k + j + i) } }

/-- The first trial accepted, with its step size 2^-e. -/
def PlanIn.trials (x : PlanIn) (cur : Iterate) (delta : List Nat) : List Nat → EngM (Option (Iterate × Nat))
  | [] => pure none
  | e :: r => do
    let t ← x.check (trialOf x.job.robot.joints.length e cur.t delta) (cur.ix + 1)
    if (fp32.dec t.obj).lt (fp32.dec cur.obj) && (t.clear || !cur.clear) then return some (t, e)
    else x.trials cur delta r

/-- The step is at or below TOL. -/
def PlanIn.small (x : PlanIn) (delta : List Nat) (e : Nat) : Bool :=
  delta.all fun v => ((fp64.dec (fp64.mul (fp64.ofRat (mkRat 1 (2 ^ e))) v)).abs).le (fp64.dec (pbTol x.p))

-- The run (R764 to R770) -----------------------------------------------------------------------------------------------

/-- A PLAN's progress: the current iterate, the best CLEAR one, complete iterations, solves regularised, the outcome's status and
cause, CONVERGED and STALLED. -/
structure PlanRun where
  cur : Option Iterate
  best : Option Iterate
  iters : Nat
  regs : Nat
  startClear : Bool
  status : Nat
  cause : Nat
  converged : Bool
  stalled : Bool
  tests : Nat
  deriving DecidableEq, Repr

def PlanRun.new : PlanRun :=
  { cur := none, best := none, iters := 0, regs := 0, startClear := false, status := stDone, cause := 0, converged := false,
    stalled := false, tests := 0 }

/-- The best iterate with a new one considered. -/
def better (best : Option Iterate) (i : Iterate) : Option Iterate :=
  if !i.clear then best
  else match best with
    | none => some i
    | some y => if (fp32.dec i.obj).lt (fp32.dec y.obj) then some i else best

/-- A run that ends here with a status. -/
def PlanRun.stop (s : PlanRun) (status cause : Nat) : PlanRun := { s with status := status, cause := cause }

/-- One iteration: the run after it, and whether it goes on. -/
def PlanIn.iterate (x : PlanIn) (w : Who) (parity : Option Nat) (s : PlanRun) : EngM (PlanRun × Bool) := do
  let cur ← match s.cur with
    | some i => pure i
    | none => x.check x.init 0
  let s := { s with cur := some cur, best := better s.best cur, startClear := s.startClear || (cur.ix == 0 && cur.clear) }
  if parity = some s.iters then return (s.stop stEngine 0xD9, false)
  let (delta, reg) := x.solve (x.assemble cur)
  let s := { s with regs := s.regs + b2n reg }
  let t ← x.trials cur delta [0, 1, 2, 3]
  statM w .CK_PLANS_COUNT 1
  let s := { s with iters := s.iters + 1 }
  match t with
  | none =>
    return ((if cur.clear then { s with stalled := true } else s.stop stDegraded 0xF4), false)
  | some (n, e) =>
    let s := { s with cur := some { n with ix := s.iters }, best := better s.best { n with ix := s.iters } }
    if n.clear && x.small delta e then return ({ s with converged := true }, false)
    else return (s, true)

/-- Iterations, each preceded by its deadline test; a failure ends the run with its status. -/
def PlanIn.run (x : PlanIn) (w : Who) (late : Nat → Bool) (parity : Option Nat) : Nat → PlanRun → EngM PlanRun
  | 0, s => pure (if s.best.isSome then s.stop stDegraded 0xF5 else s.stop stDegraded 0xF4)
  | left + 1, s =>
    if late s.iters then pure ({ s with tests := s.tests + 1 }.stop stDeadline 0)
    else do
      let s := { s with tests := s.tests + 1 }
      let r ← engM fun b => match (x.iterate w parity s).go b with
        | (.ok r, b) => (.ok r, b)
        | (.error f, b) => (.ok (s.stop f.status f.cause, false), b)
      if r.2 then x.run w late parity left r.1 else pure r.1

/-- The report (R770); BEST_ITER and BEST_COST are free when no iterate was CLEAR. -/
def planReport (s : PlanRun) (epoch start stop : Nat) : EngM (List Byte) := do
  let l ← engM fun b => if s.best.isSome then (.ok [], b) else let (l, b) := b.freeBytes 8
                                                               (.ok l, b)
  let (ix, cost) := match s.best with
    | some i => (i.ix, i.obj)
    | none => (fieldAt l 0 4, fieldAt l 4 4)
  let fl := b2n s.best.isSome + 2 * b2n s.converged + 4 * b2n s.stalled + 8 * b2n s.startClear
  return [0x50, 0x4C, 0x41, 0x4E] ++ leBytes 4 s.iters ++ leBytes 4 ix ++ leBytes 4 cost ++ leBytes 2 s.regs ++ leBytes 2 fl ++
    leBytes 4 epoch ++ zeros 8 ++ leBytes 8 start ++ leBytes 8 stop ++ zeros 16

/-- OUT, SCRATCH and the report written after the last iteration; SCRATCH is left with values no rule gives. -/
def PlanIn.finish (x : PlanIn) (w : Who) (s : PlanRun) (start stop : Nat) : EngM Unit := do
  let l ← engM fun b => let (l, b) := b.freeBytes (pbScratchLen x.p)
                        (.ok l, b)
  writeM w (pbScratch x.p) l
  match s.best with
  | some i => writeM w (pbOut x.p) (trajBytes x.job.robot.joints.length i.t)
  | none => pure ()
  let rep ← planReport s (hEpoch x.job.ep.h) start stop
  writeM w (pbReport x.p) rep

/-- A PLAN whose blocks were read: its iterations, then its outputs. -/
def Block.runPlan (b : Block) (w : Who) (j : Job) (x : PlanIn) (start : Nat) (clock : List Nat) (parity : Option Nat) : Block :=
  match (x.run w (b.deadlineAt j clock) parity (pbIters x.p) PlanRun.new).go b with
  | (.error f, b) => b.endJob j f.status f.cause 0
  | (.ok s, b) =>
    match (x.finish w s start (b.clockAt clock s.tests)).go b with
    | (.ok _, b) => b.endJob j s.status s.cause s.iters
    | (.error f, b) => b.endJob j f.status f.cause s.iters

/-- PLAN (R762 to R770). -/
def Block.plan (b : Block) (id : Nat) (clock : List Nat) (parity : Option Nat) : Block :=
  match b.checkersStart (isOp 0x32) id with
  | (none, b) => b
  | (some (j, b), _) =>
    let die := (b.engDie j).getD 0
    let w : Who := { die := die, part := j.part, job := j.id }
    let d := j.desc
    let b := b.dieWorks die
    let start := b.gmc
    let j := b.capture j
    match (readPlan w d (j.epoch.getD 0)).go b with
    | (.error f, b) => b.conclude j f.status f.cause 0
    | (.ok (.error c), b) => b.violateJob j c
    | (.ok (.ok x), b) => b.runPlan w j x start clock parity

def execPlanDesc (job : Nat) (clock : List Nat) (parity : Option Nat) (strikes : List Strike) (replies : List Reply) (s : State) :=
  s.act (·.runOp (jobAgent job) strikes replies (·.plan job clock parity))

end Sys2Proof.Machine
end

