-- ==== Sys2Proof/Machine/Sha3.lean ====
section
/-! DEFINITION. SHA3-256 of FIPS 202, by which the Mark engine forms every digest (R560 to R568). -/

namespace Sys2Proof.Machine

/-- The state: 25 lanes, lane x + 5y. -/
abbrev Lanes := List Word

def lane (s : Lanes) (i : Nat) : Word := s.getD i 0

/-- Rotation offsets of rho, by lane. -/
def keccakRot : List Nat := [0, 1, 62, 28, 27, 36, 44, 6, 55, 20, 3, 10, 43, 25, 39, 41, 45, 15, 21, 8, 18, 2, 61, 56, 14]

/-- Round constants of iota. -/
def keccakRc : List Word :=
  [0x0000000000000001, 0x0000000000008082, 0x800000000000808A, 0x8000000080008000, 0x000000000000808B, 0x0000000080000001,
   0x8000000080008081, 0x8000000000008009, 0x000000000000008A, 0x0000000000000088, 0x0000000080008009, 0x000000008000000A] ++
  [0x000000008000808B, 0x800000000000008B, 0x8000000000008089, 0x8000000000008003, 0x8000000000008002, 0x8000000000000080,
   0x000000000000800A, 0x800000008000000A, 0x8000000080008081, 0x8000000000008080, 0x0000000080000001, 0x8000000080008008]

/-- One round of Keccak-f[1600]: theta, rho and pi, chi, iota. -/
def keccakRound (s : Lanes) (rc : Word) : Lanes :=
  let c := (List.range 5).map fun x => lane s x ^^^ lane s (x + 5) ^^^ lane s (x + 10) ^^^ lane s (x + 15) ^^^ lane s (x + 20)
  let d := (List.range 5).map fun x => c.getD ((x + 4) % 5) 0 ^^^ (c.getD ((x + 1) % 5) 0).rotateLeft 1
  let t := (List.range 25).map fun i => (lane s i ^^^ d.getD (i % 5) 0).rotateLeft (keccakRot.getD i 0)
  let b := (List.range 25).map fun i =>
    let x := i % 5
    let y := i / 5
    lane t ((x + 3 * y) % 5 + 5 * x)
  let e := (List.range 25).map fun i =>
    let y := i / 5 * 5
    lane b i ^^^ ((~~~ (lane b (y + (i + 1) % 5))) &&& lane b (y + (i + 2) % 5))
  e.set 0 (lane e 0 ^^^ rc)

def keccakF (s : Lanes) : Lanes := keccakRc.foldl keccakRound s

/-- Bytes absorbed in one block. -/
def shaRate : Nat := 136

/-- One block of 136 bytes absorbed. -/
def absorb (s : Lanes) (l : List Byte) : Lanes :=
  keccakF ((List.range 25).map fun i => if i < 17 then lane s i ^^^ BitVec.ofNat 64 (fieldAt l (8 * i) 8) else lane s i)

/-- A message padded with 0x06 ... 0x80 to whole blocks. -/
def shaPad (l : List Byte) : List Byte :=
  let n := shaRate - l.length % shaRate
  if n = 1 then l ++ [0x86] else l ++ [0x06] ++ zeros (n - 2) ++ [0x80]

/-- Blocks absorbed in turn; `n` counts them. -/
def absorbAll : Nat → Lanes → List Byte → Lanes
  | 0, s, _ => s
  | n + 1, s, l => absorbAll n (absorb s (l.take shaRate)) (l.drop shaRate)

/-- The 32 bytes of the digest. -/
def sha3 (l : List Byte) : List Byte :=
  let p := shaPad l
  let s := absorbAll (p.length / shaRate) (List.replicate 25 0) p
  (List.range 4).flatMap fun i => leBytes 8 (lane s i).toNat

end Sys2Proof.Machine
end

