-- ==== Sys2Proof/Machine/Marks.lean ====
section
/-! DEFINITION. Marks, the mark store and Tally (spec/11): the program, weights, input and output digests of a descriptor, the Mark, the
records Tally keeps of accepted descriptors and delivered frames, and LAUNCH with its mark list. -/

namespace Sys2Proof.Machine

-- Weights Marks (R562) -------------------------------------------------------------------------------------------------

/-- MK_CLEAR. -/
def execMkClear (part : Nat) (s : State) := s.act (·.set .WEIGHTS_MARK_MARK part 0)

/-- MK_ABSORB: the MK_LEN bytes from MK_ADDR chained into the weights Mark; a failed read leaves it and sets MK_FAILED. -/
def Block.absorb (b : Block) (p : Nat) : Block :=
  match b.engRead 2 p none (b.get .MK_ADDR_ADDR p) (b.get .MK_LEN_LEN p) with
  | (.ok l, b) => b.set .WEIGHTS_MARK_MARK p (ofLe (sha3 (leBytes 32 (b.get .WEIGHTS_MARK_MARK p) ++ l)))
  | (.error f, b) => (b.set .MK_CTRL_MK_FAILED p 1).set .MK_CTRL_STATUS p f.status

/-- MK_ABSORB, which waits while its memory cannot serve it (R102, R421). -/
def Block.mkAbsorb (b : Block) (p : Nat) : Block :=
  match b.attempt (absorbAgent p) fun b => ((), b.absorb p) with
  | (some _, b) => { b with hop := { b.hop with absorbs := b.hop.absorbs.filter (· ≠ p) } }
  | (none, b) => { b with hop := { b.hop with absorbs := nub (b.hop.absorbs ++ [p]) } }

def execMkAbsorb (part : Nat) (strikes : List Strike) (replies : List Reply) (s : State) :=
  s.act fun b => (b.strike strikes).withReplies replies (·.mkAbsorb part)

-- The mark store (R570 to R572) ----------------------------------------------------------------------------------------

def msBase : Nat := 0x07800000
def msSlots : Nat := 65536

/-- An entry has a byte that is not erased. -/
def Block.msUsedAt (b : Block) (i : Nat) : Bool := b.cfg.nvm.any fun c => decide (msBase + 64 * i ≤ c.1 ∧ c.1 < msBase + 64 * (i + 1))

/-- A refusal with its cause: 1 FULL, 2 BADKEY. -/
def Block.msRefuse (b : Block) (cause : Nat) : Block := (b.set .MS_CTRL_MS_REFUSED 0 1).set .MS_CTRL_CAUSE 0 cause

/-- MARK_STORE_PIN: the next empty entry programmed, STATE last. -/
def Block.msPin (b : Block) : Block :=
  match firstFrom (fun i => !b.msUsedAt i) msSlots 0 with
  | none => b.msRefuse 1
  | some i =>
    let a := msBase + 64 * i
    let src := b.get .MS_CTRL_SRC
    let p := b.get .MS_CTRL_PART
    let mark := if src = 0 then b.get .WEIGHTS_MARK_MARK p else b.get .MS_VALUE_MARK
    let body := [byteOf (b.get .MS_CTRL_KIND + 4 * src), byteOf p] ++ List.replicate 5 0xFF ++ leBytes 8 (b.get .MS_NAME_NAME) ++
      leBytes 8 b.gmc ++ List.replicate 8 0xFF ++ leBytes 32 mark
    (b.programNvm (a + 1) body).programNvm a [0]

def execMarkStorePin (s : State) := s.act (·.msPin)

/-- MARK_STORE_ERASE: the whole store, only with KEY 0x7A11. -/
def Block.msErase (b : Block) (key : Nat) : Block := if key = 0x7A11 then b.eraseNvm msBase (64 * msSlots) else b.msRefuse 2

def execMarkStoreErase (key : Nat) (s : State) := s.act (·.msErase key)

-- Regions (R563, R565, R567, R650, R687, R724, R774) -------------------------------------------------------------------

/-- A region of a mark list. -/
def markRegion (l : List Byte) (o : Nat) : Nat × Nat := (fieldAt l o 8, fieldAt l (o + 8) 8)

/-- A mark list that R564 refuses; a length above 2^36 lies outside R563. -/
def markListBad (l : List Byte) : Bool :=
  let tooLong (o n : Nat) : Bool := (List.range n).any fun i => decide (2 ^ 36 < (markRegion l (o + 16 * i)).2)
  decide (3 < fieldAt l 0 1) || decide (3 < fieldAt l 1 1) || fieldAt l 2 6 != 0 || fieldAt l 0x68 24 != 0 ||
    tooLong 0x08 (fieldAt l 0 1) || tooLong 0x38 (fieldAt l 1 1)

def markRegions (l : List Byte) (o n : Nat) : List (Nat × Nat) := (List.range n).map fun i => markRegion l (o + 16 * i)

/-- Ranges read one after another. -/
def readAll (w : Who) : List (Nat × Nat) → EngM (List Byte)
  | [] => pure []
  | (a, n) :: r => do
    let x ← readM w a n
    let y ← readAll w r
    return x ++ y

/-- The regions of a solve under some labels, in that order. -/
def pick (l : List (Nat × Nat × Nat)) (labels : List Nat) : List (Nat × Nat) :=
  labels.flatMap fun k => (l.filter fun r => r.1 == k).map (·.2)

/-- The layout of a solve's method part. -/
def soLayout (d rep : List Byte) : Nat :=
  let m := fieldAt rep 4 1
  if soMethod d = mFactor then (if 1 ≤ m ∧ m ≤ 4 then m else mChol) else soMethod d

/-- The block of an engine's operation, when its ARGS pass their checks; A and the I regions with it. -/
def markInput (w : Who) (j : Job) : EngM (List Byte) := do
  let d := j.desc
  let op := dOpcode d
  let header : EngM (List Byte) := if j.epoch.getD 0 = 0 then pure [] else readM w (j.epoch.getD 0) 0x78
  if op = 0x10 ∨ op = 0x11 then
    let base := dArg d 0x08 8
    let l ← readM w base 128
    let a ← readM w base (j.tasks * dArg d 0x14 2)
    let i ← readAll w (markRegions l 0x08 (fieldAt l 0 1))
    return a ++ i
  else if op = 0x40 then
    let bad ← engM fun b => (.ok (b.selArgsBad j.part d), b)
    if bad.isSome then return []
    let blk ← readM w (seParams d) 128
    let s := selBlk blk
    if (selBlkBad d s).isSome then return []
    let keys ← readM w s.keys ((seRows d - 1) * s.stride + s.len * keySize (seType d))
    let pay ← if s.pay = 0 then pure [] else readM w s.payBase ((seRows d - 1) * s.payRow + (s.len - 1) * s.payStride + s.pay)
    return blk ++ keys ++ pay
  else if op = 0x50 then
    if soParams d % 64 ≠ 0 then return []
    let s ← readM w (soParams d) 128
    let rep ← if soMethod d = mFactor && qInfo s % 64 == 0 then readM w (qInfo s) 64 else pure []
    let m := soLayout d rep
    if (solveFault d s m).isSome || (soMethod d == mFactor && !factorOk d s rep) then return []
    let rs := solveRegions d s m
    let i0 ← readAll w (pick rs (if soMethod d = mFactor then [13, 3, 4, 5, 6] else if m = mBtri then [3, 4, 5]
      else if m = mPcg then [7, 8, 9] else [12]))
    let i1 ← readAll w (pick rs [1])
    let i2 ← readAll w (if m = mPcg then (if qX0 s then pick rs [2] else []) ++ pick rs [10] else [])
    return s ++ i0 ++ (if soMethod d = mFactor then rep.take 0x30 else []) ++ i1 ++ i2
  else if op = 0x30 then
    if wuBad d then return []
    let h ← readM w (wuHeader d) 128
    if headerBad h (wuHeader d) then return h.take 0x60
    let i ← readM w (wuInput d) (wuLen d)
    return h.take 0x60 ++ i
  else if op = 0x31 then
    if ckArgsBad d then return []
    let c ← readM w (ckParams d) 128
    if ckBlockBad d c then return []
    let h ← header
    let rh ← readM w (cbRobot c) 64
    let rob ← readM w (cbRobot c) (robotLen (fieldAt rh 4 1) (fieldAt rh 5 1))
    let cands ← readM w (cbCands c) (cbStride c * ckCount d)
    let segs ← if ckRepair d then readM w (cbOutSeg c) (128 * (cbKnots c - 1) * ckCount d) else pure []
    return c ++ h ++ rob ++ cands ++ segs
  else if op = 0x32 then
    if plArgsBad d then return []
    let p ← readM w (plParams d) 128
    if plBlockBad p then return []
    let h ← header
    let rh ← readM w (pbRobot p) 64
    let rob ← readM w (pbRobot p) (robotLen (fieldAt rh 4 1) (fieldAt rh 5 1))
    let th ← readM w (pbInit p) 16
    let init ← readM w (pbInit p) (trajLen (fieldAt rh 4 1) (fieldAt th 9 1))
    return p ++ h ++ rob ++ init
  else return []

/-- The output regions of an operation that has ended with a RESULT. -/
def markOutput (w : Who) (j : Job) (result : Nat) : EngM (List Byte) := do
  let d := j.desc
  let op := dOpcode d
  if op = 0x10 ∨ op = 0x11 then readAll w j.outs
  else if op = 0x40 then
    let blk ← readM w (seParams d) 128
    let s := selBlk blk
    let n := result * seK d
    readAll w [(s.outKeys, n * keySize (seType d)), (s.outIdx, n * 4), (s.outPay, n * s.pay), (s.outInfo, 8 * result)]
  else if op = 0x50 then
    let s ← readM w (soParams d) 128
    let rep ← if soMethod d = mFactor then readM w (qInfo s) 64 else pure []
    let m := soLayout d rep
    readAll w (pick (solveRegions d s m) (if soMethod d = mFactor ∨ m = mPcg then [2] else [13, 6, 2, 3, 4]))
  else if op = 0x30 ∧ (wuOp d = opBuild ∨ wuOp d = opSlices) then
    let h ← readM w (wuHeader d) 128
    readAll w [(hNodes h, 64 * hUsed h 0), (hBricks h, 1088 * hUsed h 1), (hSliceBase h, 64 * hUsed h 2), (hChanges h, 8 * hUsed h 3),
      (wuHeader d + 0x60, 0x18)]
  else if op = 0x31 then
    let c ← readM w (ckParams d) 128
    let n := ckCount d
    readAll w [(cbOutRec c, 32 * n), (cbOutCost c, if cbOutCost c = 0 then 0 else 4 * n),
      (cbOutSeg c, if cbOutSeg c = 0 then 0 else 128 * (cbKnots c - 1) * n)]
  else if op = 0x32 then
    let p ← readM w (plParams d) 128
    let rh ← readM w (pbRobot p) 64
    let th ← readM w (pbInit p) 16
    readM w (pbOut p) (trajLen (fieldAt rh 4 1) (fieldAt th 9 1))
  else return []

-- Tally (R575 to R579) -------------------------------------------------------------------------------------------------

/-- The conditions word (R579). -/
def Block.condWord (b : Block) : Nat :=
  b.get .CORE_CLK_TARGET 0 + b.get .CORE_CLK_TARGET 1 * 2 ^ 6 + b.get .GOV_CTRL_MODE * 2 ^ 12 +
    (b.get .GOV_CAP_POWER_CAP / 1000) % 2 ^ 9 * 2 ^ 13 + b.get .HOP_TICK_TICK * 2 ^ 22 + b.get .IMAGE_MARK_MARK % 2 ^ 16 * 2 ^ 39

/-- A Tally record: ARRIVAL, COND, KIND, SOURCE, RING, FORM and body. -/
structure TallyRec where
  arrival : Nat
  cond : Nat
  kind : Nat
  source : Nat
  ring : Nat
  form : Nat
  body : List Byte
  deriving DecidableEq, Repr

/-- Its bytes with a record number, padded to whole 64 bytes. -/
def TallyRec.bytes (r : TallyRec) (seq : Nat) : List Byte :=
  let l := leBytes 8 r.arrival ++ leBytes 8 r.cond ++ [byteOf r.kind, byteOf r.source, byteOf r.ring, byteOf r.form] ++
    leBytes 4 r.body.length ++ leBytes 4 seq ++ zeros 4 ++ r.body
  padTo (ceilDiv l.length 64 * 64) l

def Block.tallyBase (b : Block) (p : Nat) : Nat := b.get .TALLY_BASE_ADDR p * 64
def Block.tallySize (b : Block) (p : Nat) : Nat := b.get .TALLY_SIZE_SIZE p * 64

/-- Recording is on (R575). -/
def Block.tallyOn (b : Block) (p : Nat) : Bool := b.bit .TALLY_CTRL_MODE p 0

/-- A record written at an offset under the next number; a record that memory refuses is not kept. -/
def Block.tallyStore (b : Block) (p off : Nat) (r : TallyRec) : Block :=
  let l := r.bytes (b.get .TALLY_SEQ_SEQ p)
  match b.engWrite 2 p (b.tallyBase p + off) l with
  | (some _, b) => b
  | (none, b) => (b.set .TALLY_HEAD_OFFSET p (off + l.length)).bump .TALLY_SEQ_SEQ p

/-- A record kept, or lost to a full buffer (R578). -/
def Block.tallyPut (b : Block) (p : Nat) (r : TallyRec) : Block :=
  let n := (r.bytes 0).length
  let head := b.get .TALLY_HEAD_OFFSET p
  let size := b.tallySize p
  if b.on .TALLY_CTRL_STOP p then
    match Tab.find b.hop.tallyLost p with
    | some lost =>
      let b := { b with hop := { b.hop with tallyLost := Tab.put b.hop.tallyLost p (lost + 1) } }
      (b.engWrite 2 p (b.tallyBase p + size - 32) (leBytes 8 (lost + 1))).2
    | none =>
      if head + n + 64 ≤ size then b.tallyStore p head r
      else
        let gap := { r with kind := 3, form := 0, body := leBytes 8 1 }
        let b := { b with hop := { b.hop with tallyLost := Tab.put b.hop.tallyLost p 1 } }
        let b := (b.engWrite 2 p (b.tallyBase p + size - 64) (gap.bytes (b.get .TALLY_SEQ_SEQ p))).2
        ((b.bump .TALLY_SEQ_SEQ p).set .TALLY_CTRL_GAP p 1).event 0x60 0x06 [] p
  else if head + n ≤ size then b.tallyStore p head r
  else
    let b := (b.set .TALLY_CTRL_WRAPPED p 1).event 0x60 0x07 [] p
    if n ≤ size then b.tallyStore p 0 r else b

/-- TALLY_BYTES of a submission ring. -/
def Block.tallyBytes (b : Block) : SqRef → Bool
  | .host p r => b.on .SQ_CFG_TALLY_BYTES (ringIx p r)
  | .post c r => b.on .POST_CFG_TALLY_BYTES (postIx c r)

/-- The DESC record of a descriptor with the bytes A ‖ I0 ‖ I1 ‖ I2. -/
def Block.descRecord (b : Block) (q : SqRef) (arrival cond : Nat) (d input : List Byte) (mark : List Byte) : TallyRec :=
  let whole := b.tallyBytes q
  { arrival := arrival, cond := cond, kind := 1, source := b.sqSource q, ring := sqRingByte q, form := b2n whole,
    body := d ++ (if whole then input else mark) }

-- Digests of a descriptor (R560, R565 to R569) -------------------------------------------------------------------------

/-- The descriptor with TAG and DEADLINE zeroed. -/
def markDesc (d : List Byte) : List Byte := d.take 4 ++ zeros 12 ++ d.drop 16

/-- The program Mark. -/
def progMark (w : Who) (image : Nat) (d : List Byte) : EngM (List Byte) := do
  if dOpcode d = 0x10 ∨ dOpcode d = 0x11 then
    let n ← readM w (dArg d 0x00 8) 8
    let code ← readM w (dArg d 0x00 8) (ofLe n)
    return sha3 (leBytes 32 image ++ code)
  else return sha3 (leBytes 32 image)

/-- The preimage of the Mark (R568). -/
def markPre (d prog input : List Byte) (weights : Nat) : List Byte :=
  [0x4F, 0x5A, 0x4D, 0x41, 0x52, 0x4B, 0x30, 0x31] ++ prog ++ leBytes 32 weights ++ input ++ [byteOf (dWidth d)] ++ zeros 7 ++
    leBytes 8 (dSeed d)

/-- A job whose input digest or Tally record is still due and may be formed now (R566). -/
def Block.markDue (b : Block) (j : Job) : Bool :=
  let op := dOpcode j.desc
  let launched := !(op == 0x10 || op == 0x11) || j.tasks != 0
  ((dMark j.desc && j.inMark.isNone) || j.tally) && b.fenceMet j && launched && j.started.isNone && j.phase != .marking

/-- What an input Mark is formed from: the operation's input, the program's Mark, and the output regions a launch lists. -/
def inputMarkM (w : Who) (image : Nat) (j : Job) : EngM (List Byte × List Byte × List (Nat × Nat)) := do
  let input ← markInput w j
  let prog ← if dMark j.desc then progMark w image j.desc else pure []
  let op := dOpcode j.desc
  let outs ← if op = 0x10 ∨ op = 0x11 then do
      let l ← readM w (dArg j.desc 0x08 8) 128
      pure (markRegions l 0x38 (fieldAt l 1 1))
    else pure []
  return (input, prog, outs)

/-- INPUT_MARK_DONE: the program and input digests formed, and the Tally record written. -/
def Block.inputMark (b : Block) (id : Nat) : Block :=
  match b.job id with
  | none => b
  | some j =>
    if !b.markDue j then b
    else
      let w : Who := { die := 2, part := j.part, job := j.id }
      let j := b.capture j
      match (inputMarkM w (b.get .IMAGE_MARK_MARK) j).go b with
      | (.error f, b) => b.endJob { j with inMark := none } f.status f.cause 0
      | (.ok (input, prog, outs), b) =>
        let mark := sha3 (markDesc j.desc ++ input)
        let b := if j.tally then b.tallyPut j.part (b.descRecord j.sq j.arrival j.cond j.desc input mark) else b
        b.setJob { j with tally := false, progMark := prog, inMark := if dMark j.desc then some mark else none, outs := outs }

def execInputMarkDone (job : Nat) (strikes : List Strike) (replies : List Reply) (s : State) :=
  s.act (·.runOp (jobAgent job) strikes replies (·.inputMark job))

/-- OUTPUT_MARK_DONE: the Mark, and with OUT_MARK the output Mark, formed, and the record released. An output region that cannot be read
leaves OUT_MARKED clear. -/
def Block.outputMark (b : Block) (id : Nat) : Block :=
  match b.job id with
  | none => b
  | some j =>
    match j.phase, j.inMark, j.outcome with
    | .marking, some input, some (st, c, res) =>
      let w : Who := { die := 2, part := j.part, job := j.id }
      let mark := sha3 (markPre j.desc j.progMark input j.weights)
      let (out, b) := if dOutMark j.desc then
          match (markOutput w j res).go b with
          | (.ok l, b) => (some (sha3 l), b)
          | (.error _, b) => (none, b)
        else (none, b)
      b.finalize j st c res (some mark) out
    | _, _, _ => b

def execOutputMarkDone (job : Nat) (strikes : List Strike) (replies : List Reply) (s : State) :=
  s.act (·.runOp (jobAgent job) strikes replies (·.outputMark job))

-- LAUNCH and LAUNCH_AT -------------------------------------------------------------------------------------------------

/-- The mark list of a launch judged (R563, R564): a bad one ends it with BAD_MARK_LIST, recorded by the block of Marks. -/
def Block.checkMarkList (b : Block) (id : Nat) (go : Block → Block) : Block :=
  match b.job id with
  | none => b
  | some j =>
    let op := dOpcode j.desc
    let due : Bool := (op == 0x10 || op == 0x11) && decide (j.phase = .admitted) && b.fenceMet j && (dMark j.desc || j.tally) &&
      (b.launchFault j).isNone
    if !due then go b
    else match b.engRead 2 j.part (some j.id) (dArg j.desc 0x08 8) 128 with
      | (.error f, b) => b.endJob j f.status f.cause 0
      | (.ok l, b) =>
        if markListBad l then (b.descViolation j.sq 0x60 0xB3 j.index j.desc).finalize j stDesc 0xB3 0 none none else go b

def execLaunch (job : Nat) (strikes : List Strike) (replies : List Reply) (s : State) :=
  s.act (·.runOp (jobAgent job) strikes replies (·.checkMarkList job (·.launch job)))
def execLaunchAt (job : Nat) (strikes : List Strike) (replies : List Reply) (s : State) :=
  s.act (·.runOp (jobAgent job) strikes replies (·.checkMarkList job (·.launchAt job)))

end Sys2Proof.Machine
end

