-- ==== Sys2Proof/Machine/Rings.lean ====
section
/-! DEFINITION. The ring engine (spec/06): doorbell lines watched by snoop or poll, doorbell words validated, rings started and
stopped, descriptors fetched, validated and handed over to the Hopper, moderated interrupts, and the post rings of the Miller
cores (R788). -/

namespace Sys2Proof.Machine

-- Doorbells ------------------------------------------------------------------------------------------------------------

/-- The host address of a doorbell-page line. -/
def Block.lineAddr (b : Block) (p l : Nat) : Nat := b.get .DB_BASE_ADDR p * 4096 + 64 * l

/-- A read of a doorbell-page line is outstanding or waits to leave. -/
def Block.lineBusy (b : Block) (p l : Nat) : Bool :=
  ((b.link.reads ++ b.link.tagless).any fun r => r.which == .line p l && !r.sunk) || b.link.waits.any fun w => w.which == .read (.line p l)

/-- A read of a doorbell-page line, over CXL.cache or PCIe; none is made while host accesses cannot be sent (R882) or one of the same
line is outstanding. -/
def Block.readLine (b : Block) (p l : Nat) : Block :=
  if b.lineBusy p l then b else (b.startRead p (.line p l) (b.lineAddr p l) 64).getD b

/-- An accepted doorbell word of a submission ring. -/
def Block.acceptTail (b : Block) (q : SqRef) (w : Nat) : Block :=
  let b := b.setSqTail q w
  b.setSq q { b.sq q with accepts := (b.sq q).accepts ++ [(wordPos (b.sqSize q) w, b.gmc, b.condWord)] }

/-- The first check of R248 that a word fails for a ring of `n` entries with last accepted word `d`: its number, 1 to 4. -/
def wordFault (n d w : Nat) : Option Nat :=
  if bits w 48 16 ≠ 0 then some 1
  else if n ≤ wIndex w then some 2
  else if 1 < (wGen w + 2 ^ 16 - wGen d) % 2 ^ 16 then some 3
  else if wGen w = wGen d ∧ wIndex w < wIndex d then some 4
  else none

/-- A submission ring's doorbell word examined (R248, R249). -/
def Block.examineTail (b : Block) (q : SqRef) (w : Nat) : Block :=
  let n := b.sqSize q
  let d := b.sqTail q
  if b.sqState q ≠ rActive ∨ w = d ∨ b.resetting (b.sqPart q) then b
  else match wordFault n d w with
    | some k => b.haltSq q (if k = 1 then 0x14 else if k = 2 then 0x10 else if k = 3 then 0x12 else 0x11) w
    | none => if n < posDist n (wordPos n (b.sqHead q)) (wordPos n w) then b.haltSq q 0x13 w else b.acceptTail q w

/-- The partition of a host completion ring is being reset. -/
def Block.cqResetting (b : Block) : CqRef → Bool
  | .host p _ => b.resetting p
  | .core _ => false

/-- A completion ring's head word examined (R248, R249). -/
def Block.examineHead (b : Block) (q : CqRef) (w : Nat) : Block :=
  let n := b.cqSize q
  let d := b.cqHead q
  let data := leBytes 8 w ++ leBytes 8 d
  if b.cqState q ≠ rActive ∨ w = d ∨ b.cqResetting q then b
  else match wordFault n d w with
    | some k => b.haltCq q (if k = 1 then 0x14 else if k = 2 then 0x18 else if k = 3 then 0x1A else 0x19) data
    | none =>
      if posDist n (wordPos n d) (wordPos n (b.cqTail q)) < posDist n (wordPos n d) (wordPos n w) then b.haltCq q 0x1B data
      else b.setCqHead q w

/-- The word at place `k` of a line examined for the ring it belongs to. -/
def Block.examineWord (b : Block) (p l k w : Nat) : Block :=
  if l < 4 then b.examineTail (.host p (8 * l + k)) w else b.examineHead (.host p (8 * (l - 4) + k)) w

/-- The number of a doorbell-page line. -/
def lineKey (p l : Nat) : Nat := p * 8 + l

/-- A failed doorbell-line read (R280): every ring unchanged, a record and a count, and a repeat after POLL_NS. -/
def Block.lineFailed (b : Block) (p l : Nat) : Block :=
  let b := b.bump .DB_READ_FAIL_COUNT p
  let b := b.violate 0x20 0x22 p (b.partFn p) 0 0 (leBytes 8 (b.lineAddr p l))
  let again := if (p, l) ∈ b.link.retry then b.link.retry else b.link.retry ++ [(p, l)]
  { b with link := { b.link with retry := again, lastPoll := Tab.put b.link.lastPoll (lineKey p l) b.gmc } }

/-- What a doorbell-line read that is no longer outstanding gave. -/
def Block.lineData (b : Block) (p l : Nat) (words : Option (List Nat)) : Block :=
  match words with
  | none => b.lineFailed p l
  | some ws =>
    let held := if b.snooping p && b.lineUsed p l (· != rOff) && !decide ((p, l) ∈ b.link.lines) then b.link.lines ++ [(p, l)]
      else b.link.lines
    let b := { b with link := { b.link with lines := held, retry := b.link.retry.filter (· ≠ (p, l)) } }
    (List.range 8).foldl (fun b k => b.examineWord p l k (ws.getD k 0 % 2 ^ 64)) b

/-- DOORBELL_LINE_RETURN (R244, R247, R280): an outstanding line read comes back with its eight words, or fails. -/
def Block.lineReturn (b : Block) (p l : Nat) (words : Option (List Nat)) : Block :=
  match b.readDone (.line p l) with
  | some (true, b) => b.lineData p l words
  | some (false, b) => b
  | none => b

def execDoorbellLineReturn (part line : Nat) (words : Option (List Nat)) (s : State) := s.act (·.lineReturn part line words)

/-- The poll interval of a partition in GMC counts, 1 ns each (R245, R246). -/
def Block.pollNs (b : Block) (p : Nat) : Nat := max 256 (b.get .DB_CTRL_POLL_NS p)

/-- POLL_NS has passed since a line was last polled or its read failed. -/
def Block.lineDue (b : Block) (p l : Nat) : Bool :=
  match Tab.find b.link.lastPoll (lineKey p l) with
  | none => true
  | some t => decide (t + b.pollNs p ≤ b.gmc)

/-- The lines a poll reads: in polled mode those with a word of an ACTIVE ring, in snooped mode those whose last read failed (R245, R280). -/
def Block.pollLines (b : Block) (p : Nat) : List Nat :=
  (List.range 8).filter fun l => b.lineDue p l && !b.lineBusy p l &&
    if b.snooping p then decide ((p, l) ∈ b.link.retry) && b.lineUsed p l (· != rOff) else b.lineUsed p l (· == rActive)

/-- One line polled. -/
def Block.pollLine (b : Block) (p l : Nat) : Block :=
  ({ b with link := { b.link with lastPoll := Tab.put b.link.lastPoll (lineKey p l) b.gmc,
                                  retry := b.link.retry.filter (· ≠ (p, l)) } }).readLine p l

/-- DOORBELL_POLL (R245, R280): each line of a partition that is due, once POLL_NS has passed since its last read, is read. -/
def Block.poll (b : Block) (p : Nat) : Block :=
  if b.on .DB_CTRL_EN p && b.hostUp p then (b.pollLines p).foldl (fun b l => b.pollLine p l) b else b

def execDoorbellPoll (part : Nat) (s : State) := s.act (·.poll part)

/-- SNP_DATA and SNP_CUR (R193): a held line is kept. A snoop of a line that is not held is answered as not held. -/
def Block.snoopKeeping (b : Block) (p l : Nat) : Block :=
  b.send (if (p, l) ∈ b.link.lines then .snoopKeep p l else .snoopInv p l)

def execSnpData (part line : Nat) (s : State) := s.act (·.snoopKeeping part line)
def execSnpCur (part line : Nat) (s : State) := s.act (·.snoopKeeping part line)

/-- SNP_INV (R193, R244): a held line is invalidated and read again. -/
def Block.snoopInvalidate (b : Block) (p l : Nat) : Block :=
  let held : Bool := (p, l) ∈ b.link.lines
  let b := ({ b with link := { b.link with lines := b.link.lines.filter (· ≠ (p, l)) } }).send (.snoopInv p l)
  if held then b.readLine p l else b

def execSnpInv (part line : Nat) (s : State) := s.act (·.snoopInvalidate part line)

-- Ring states (R270 to R274) -------------------------------------------------------------------------------------------

/-- The partition of a post ring is service-owned; a host ring's host-owned (R271, R788). -/
def Block.ringGranted (b : Block) : SqRef → Bool
  | .host p _ => b.get .PART_GRANT_OWNER p == 1
  | .post c r => b.get .PART_GRANT_OWNER (b.get .POST_CFG_PART (postIx c r)) == 2

/-- Why an enable of a submission ring is refused (R271); the bases have no bits [11:0]. -/
def Block.sqRefusal (b : Block) (q : SqRef) : Option Nat :=
  let size := match q with | .host p r => b.get .SQ_CFG_LOG2_SIZE (ringIx p r) | .post c r => b.get .POST_CFG_LOG2_SIZE (postIx c r)
  let top := match q with | .host _ _ => 16 | .post _ _ => 12
  let noDb := match q with | .host p _ => !b.on .DB_CTRL_EN p | .post _ _ => false
  if size < 4 ∨ top < size then some 2
  else if noDb then some 5
  else if !b.ringGranted q then some 6
  else if b.cqState (b.sqCq q) ≠ rActive then some 4
  else none

/-- The same for a completion ring. -/
def Block.cqRefusal (b : Block) (q : CqRef) : Option Nat :=
  let size := match q with | .host p c => b.get .CQ_CFG_LOG2_SIZE (ringIx p c) | .core c => b.get .CORE_CQ_CFG_LOG2_SIZE c
  let top := match q with | .host _ _ => 16 | .core _ => 12
  if size < 4 ∨ top < size then some 2
  else match q with
    | .host p _ => if !b.on .DB_CTRL_EN p then some 5 else if b.get .PART_GRANT_OWNER p ≠ 1 then some 6 else none
    | .core _ => none

def Block.setSqRefused (b : Block) (q : SqRef) (cause : Nat) : Block :=
  match q with
  | .host p r => (b.set .SQ_STATUS_CFG_REFUSED (ringIx p r) 1).set .SQ_STATUS_REFUSE_CAUSE (ringIx p r) cause
  | .post c r => (b.set .POST_STATUS_CFG_REFUSED (postIx c r) 1).set .POST_STATUS_REFUSE_CAUSE (postIx c r) cause

def Block.setCqRefused (b : Block) (q : CqRef) (cause : Nat) : Block :=
  match q with
  | .host p c => (b.set .CQ_STATUS_CFG_REFUSED (ringIx p c) 1).set .CQ_STATUS_REFUSE_CAUSE (ringIx p c) cause
  | .core c => (b.set .CORE_CQ_STATUS_CFG_REFUSED c 1).set .CORE_CQ_STATUS_REFUSE_CAUSE c cause

/-- ENABLE of a submission ring as it reads. -/
def Block.setSqEnable (b : Block) (q : SqRef) (v : Nat) : Block :=
  match q with
  | .host p r => b.set .SQ_CTRL_ENABLE (ringIx p r) v
  | .post c r => b.set .POST_CFG_ENABLE (postIx c r) v

def Block.setCqEnable (b : Block) (q : CqRef) (v : Nat) : Block :=
  match q with
  | .host p c => b.set .CQ_CTRL_ENABLE (ringIx p c) v
  | .core c => b.set .CORE_CQ_CFG_ENABLE c v

/-- The word at which a ring starts: GEN_INIT, index 0; a Miller core's rings start in generation 0. -/
def Block.sqStart (b : Block) : SqRef → Nat
  | .host p r => b.get .SQ_CTRL_GEN_INIT (ringIx p r) * 2 ^ 32
  | .post _ _ => 0

def Block.cqStart (b : Block) : CqRef → Nat
  | .host p c => b.get .CQ_CTRL_GEN_INIT (ringIx p c) * 2 ^ 32
  | .core _ => 0

def sqLine : SqRef → Option (Nat × Nat × Nat)
  | .host p r => some (p, r / 8, r % 8)
  | .post _ _ => none

def cqLine : CqRef → Option (Nat × Nat × Nat)
  | .host p c => some (p, 4 + c / 8, c % 8)
  | .core _ => none

/-- The one examination after an enable (R270): of the word given where the line can be read at once, otherwise when the read that is
sent returns. A line so read over CXL.cache is held from then on (R243). -/
def Block.firstLook (b : Block) (at_ : Option (Nat × Nat × Nat)) (word : Option Nat) (look : Block → Nat → Block) : Block :=
  match at_, word with
  | none, some w => look b w
  | none, none => b
  | some (p, l, _), none => b.readLine p l
  | some (p, l, _), some w =>
    if !b.hostUp p then b
    else if !b.hostTranslated (b.partFn p) (b.lineAddr p l) then b.readLine p l
    else if b.snooping p then
      if (p, l) ∈ b.link.lines then look b w
      else look (({ b with link := { b.link with lines := b.link.lines ++ [(p, l)] } }).send (.rdShared p l)) w
    else look (b.send (.hostRead (b.partFn p) (b.lineAddr p l) 64)) w

/-- Setting ENABLE on a submission ring (R270, R271). -/
def Block.sqEnable (b : Block) (q : SqRef) (word : Option Nat) : Block :=
  if b.sqState q ≠ rOff then b
  else match b.sqRefusal q with
    | some c => b.setSqRefused q c
    | none =>
      let w := b.sqStart q
      let b := (b.setSq q SqAux.reset).setSqState q rActive
      let b := ((b.setSqEnable q 1).setSqHead q w).setSqTail q w
      let b := match q with
        | .host p r => (b.set .SQ_STATUS_HALT_CAUSE (ringIx p r) 0).set .SQ_INFLIGHT_COUNT (ringIx p r) 0
        | .post c r => b.set .POST_STATUS_HALT_CAUSE (postIx c r) 0
      b.firstLook (sqLine q) word fun b w => b.examineTail q w

def execSqEnable (sq : SqRef) (word : Nat) (s : State) := s.act (·.sqEnable sq (some word))

/-- Setting ENABLE on a completion ring (R270, R271). -/
def Block.cqEnable (b : Block) (q : CqRef) (word : Option Nat) : Block :=
  if b.cqState q ≠ rOff then b
  else match b.cqRefusal q with
    | some c => b.setCqRefused q c
    | none =>
      let w := b.cqStart q
      let b := (b.setCq q CqAux.reset).setCqState q rActive
      let b := (((b.setCqEnable q 1).setCqTail q w).setCqHead q w).setCqRsv q 0
      let b := match q with
        | .host p c => b.set .CQ_STATUS_HALT_CAUSE (ringIx p c) 0
        | .core c => b.set .CORE_CQ_STATUS_HALT_CAUSE c 0
      b.firstLook (cqLine q) word fun b w => b.examineHead q w

def execCqEnable (cq : CqRef) (word : Nat) (s : State) := s.act (·.cqEnable cq (some word))

/-- Clearing ENABLE on a submission ring (R272): an ACTIVE or HALTED ring drains, and is OFF when nothing fetched is uncompleted. -/
def Block.sqDisable (b : Block) (q : SqRef) : Block :=
  if b.sqState q = rActive ∨ b.sqState q = rHalted then
    let b := b.setSqEnable q 0
    if (b.sq q).live = [] then b.sqOff q else b.setSqState q rDraining
  else b

def execSqDisable (sq : SqRef) (s : State) := s.act (·.sqDisable sq)

/-- The submission rings that name a completion ring. -/
def Block.sqsOf (b : Block) : CqRef → List SqRef
  | .host p c => ((List.range 32).filter fun r => b.get .SQ_CFG_CQ_ID (ringIx p r) == c).map fun r => SqRef.host p r
  | .core c => (List.range 4).map fun r => SqRef.post c r

/-- Clearing ENABLE on a completion ring (R274). -/
def Block.cqDisable (b : Block) (q : CqRef) : Block :=
  if b.cqState q = rOff then b
  else if (b.sqsOf q).all fun s => b.sqState s == rOff then
    let b := (b.setCqEnable q 0).setCqState q rOff
    match q with
    | .host p _ => b.settleRings p
    | .core _ => b
  else b.setCqRefused q 7

def execCqDisable (cq : CqRef) (s : State) := s.act (·.cqDisable cq)

/-- POST_TAIL (R788): a core's 8-byte store of a doorbell word, examined at once. -/
def Block.postTail (b : Block) (c r w : Nat) : Block := (b.set .POST_TAIL_WORD (postIx c r) w).examineTail (.post c r) (w % 2 ^ 64)

def execPostTail (core ring word : Nat) (s : State) := s.act (·.postTail core ring word)

/-- CQ_HEADW (R788): a core's 8-byte store of its completion ring's head word, examined at once. -/
def Block.cqHeadw (b : Block) (c w : Nat) : Block := (b.set .CORE_CQ_HEADW_WORD c w).examineHead (.core c) (w % 2 ^ 64)

def execCqHeadw (core word : Nat) (s : State) := s.act (·.cqHeadw core word)

-- Fetching (R253 to R259) ----------------------------------------------------------------------------------------------

/-- Descriptors under way between the fetch head and the next to fetch. -/
def Block.fetching (b : Block) (q : SqRef) : Nat := ((b.sq q).fetches.map fun f => f.2.length).foldl (· + ·) 0

/-- The position of the next descriptor to fetch. -/
def Block.fetchPos (b : Block) (q : SqRef) : Nat :=
  let n := b.sqSize q
  (wordPos n (b.sqHead q) + b.fetching q) % (2 ^ 16 * n)

/-- How many descriptors the next fetch reads: accepted ones, FETCH_MAX at most, not past the end of the ring or of a 4 KiB page, and
as many as have a free completion slot (R256, R259); none while the ring's last fetch waits to leave or is known to fail. -/
def Block.fetchCount (b : Block) (q : SqRef) : Nat :=
  let n := b.sqSize q
  let at_ := b.fetchPos q
  let held := (b.sq q).lastFailed || match q with
    | .host p r => (b.link.waits.any fun w => w.which == .read (.fetch p r)) || b.link.tagless.any fun x => x.which == .fetch p r
    | .post _ _ => false
  if b.sqState q ≠ rActive ∨ b.cqState (b.sqCq q) ≠ rActive ∨ held then 0
  else min (min (min 8 (max 1 (b.get .RE_CFG_FETCH_MAX))) (posDist n at_ (wordPos n (b.sqTail q))))
    (min (min (n - at_ % n) (64 - at_ % 64)) (b.cqFree (b.sqCq q)))

/-- The arrival count and conditions word of the descriptor at a position: those of the first accepted word that covers it (R255). -/
def arrivalAt (n : Nat) (accepts : List (Nat × Nat × Nat)) (pos : Nat) : Nat × Nat :=
  match accepts.find? fun e => decide (0 < posDist n pos e.1 ∧ posDist n pos e.1 ≤ n) with
  | some e => e.2
  | none => (0, 0)

/-- The base of a host ring, or a post ring's, as bytes. -/
def Block.sqBase (b : Block) : SqRef → Nat
  | .host p r => b.get .SQ_BASE_ADDR (ringIx p r) * 4096
  | .post c r => b.get .POST_BASE_ADDR (postIx c r) * 4096

/-- The checks of R252 on a fetched descriptor, with the cause of the first that fails. -/
def Block.descFault (b : Block) (q : SqRef) (d : List Byte) : Option Nat :=
  if dOpcode d ∉ opcodes then some 0x01
  else if bits (dFlags d) 5 3 ≠ 0 ∨ bits (fieldAt d 0x19 1) 2 6 ≠ 0 ∨ fieldAt d 0x1A 6 ≠ 0 then some 0x02
  else if dOutMark d && !dMark d then some 0x03
  else if dMark d && !b.cqWide (b.sqCq q) then some 0x04
  else if 32 < dWidth d then some 0x05
  else if 4095 < dFlow d then some 0x44
  else none

/-- One fetched descriptor: it waits for hand-over, or completes with POISON_READ (R278) or VIOLATION_DESC (R252). -/
def Block.takeFetched (b : Block) (q : SqRef) (f : Fetched) (ok : Bool) : Block :=
  if !ok then (b.descViolation q 0x20 0x20 f.index []).completeFetched q f stPoison 0x20
  else match b.descFault q f.bytes with
    | some c => (b.descViolation q 0x20 c f.index f.bytes).completeFetched q f stDesc c
    | none => b.setSq q { b.sq q with queue := (b.sq q).queue ++ [f] }

/-- The descriptors of a ring's outstanding fetches, as far as they are known: no byte of theirs has been read. -/
def Block.unfetched (b : Block) (q : SqRef) : List Fetched :=
  let n := b.sqSize q
  let all : List (Nat × Nat × Nat) := (b.sq q).fetches.flatMap fun f =>
    (List.range f.2.length).map fun i => ((f.1 + i) % n, f.2.getD i (0, 0))
  let seq := (b.sq q).nextSeq - b.fetching q
  (List.range all.length).map fun i =>
    let (index, a) := all.getD i (0, 0, 0)
    { seq := seq + i, index := index, arrival := a.1, cond := a.2, bytes := zeros 64 }

/-- The oldest fetch of a ring ends: the head passes its descriptors, and each is taken in ring order. -/
def Block.fetchEnds (b : Block) (q : SqRef) (descs : Option (List (List Byte))) : Block :=
  match (b.sq q).fetches with
  | [] => b
  | (first, arr) :: rest =>
    let n := b.sqSize q
    let seq := (b.sq q).nextSeq - b.fetching q
    let b := b.setSqHead q (posWord n (wordPos n (b.sqHead q) + arr.length))
    let b := b.setSq q { b.sq q with fetches := rest }
    (List.range arr.length).foldl (fun b i =>
      let a := arr.getD i (0, 0)
      let f : Fetched :=
        { seq := seq + i, index := (first + i) % n, arrival := a.1, cond := a.2,
          bytes := padTo 64 ((descs.getD []).getD i []) }
      b.takeFetched q f descs.isSome) b

/-- The oldest fetch of a ring returns; a newer one that has been refused its translation fails when it is the only one left. -/
def Block.fetchData (b : Block) (q : SqRef) (descs : Option (List (List Byte))) : Block :=
  let b := b.fetchEnds q descs
  if (b.sq q).lastFailed ∧ (b.sq q).fetches.length = 1 then
    (b.setSq q { b.sq q with lastFailed := false }).fetchEnds q none
  else b

/-- The newest fetch of a ring fails: at once when it is the only one, otherwise after the older ones. -/
def Block.failFetch (b : Block) (q : SqRef) : Block :=
  if 1 < (b.sq q).fetches.length then b.setSq q { b.sq q with lastFailed := true } else b.fetchData q none

/-- DESCRIPTOR_FETCH (R256, R259): the slots reserved and the fetch read issued. A read that cannot be sent fails (R882). -/
def Block.fetch (b : Block) (q : SqRef) : Block :=
  let k := b.fetchCount q
  if k = 0 ∨ b.resetting (b.sqPart q) then b
  else
    let n := b.sqSize q
    let at_ := b.fetchPos q
    let x := b.sq q
    let arr := (List.range k).map fun i => arrivalAt n x.accepts ((at_ + i) % (2 ^ 16 * n))
    let last := (at_ + k) % (2 ^ 16 * n)
    let x := { x with fetches := x.fetches ++ [(at_ % n, arr)], nextSeq := x.nextSeq + k,
                      live := x.live ++ (List.range k).map (x.nextSeq + ·),
                      accepts := x.accepts.filter fun e => decide (0 < posDist n last e.1 ∧ posDist n last e.1 ≤ n) }
    let b := (b.setSq q x).setCqRsv (b.sqCq q) (b.cqRsv (b.sqCq q) + k)
    match q with
    | .host p r =>
      let b := b.set .SQ_INFLIGHT_COUNT (ringIx p r) x.live.length
      (b.startRead p (.fetch p r) (b.sqBase q + 64 * (at_ % n)) (64 * k)).getD (b.failFetch q)
    | .post _ _ => b

def execDescriptorFetch (sq : SqRef) (s : State) := s.act (·.fetch sq)

/-- The descriptors of a fetch from hub SRAM. -/
def Block.postDescs (b : Block) (c : Nat) (a : Nat) : Nat → List (List Byte) × Block
  | 0 => ([], b)
  | k + 1 =>
    let (d, b) := b.hubRead c a 64
    let (r, b) := b.postDescs c (a + 64) k
    (d :: r, b)

/-- DESCRIPTOR_FETCH_RETURN (R253, R255, R257): a host ring's oldest fetch read returns with its descriptors or fails; a post ring's
descriptors are read from hub SRAM. -/
def Block.fetchReturn (b : Block) (q : SqRef) (descs : Option (List (List Byte))) : Block :=
  match q with
  | .host p r =>
    match b.readDone (.fetch p r) with
    | some (true, b) => b.fetchData q descs
    | some (false, b) => b
    | none => b
  | .post c _ =>
    match (b.sq q).fetches with
    | [] => b
    | (first, arr) :: _ =>
      let (l, b) := b.postDescs c (b.sqBase q + 64 * first) arr.length
      b.fetchData q (some l)

def execDescriptorFetchReturn (sq : SqRef) (descs : Option (List (List Byte))) (s : State) := s.act (·.fetchReturn sq descs)

-- Hand-over (R254, R287 to R290, R359) ---------------------------------------------------------------------------------

/-- T of R359: four times the granted groups, of the die a LAUNCH names when it names one. -/
def Block.widthLimit (b : Block) (p sel : Nat) : Nat :=
  let gs := (List.range 8).filter fun g => b.bit .PART_GRANT_GROUPS p g
  if sel = 1 ∨ sel = 2 then 4 * (gs.filter fun g => (b.groupTiles g).any (dieAllows sel)).length else 4 * gs.length

/-- The die selector a descriptor is judged by. -/
def descSel (d : List Byte) : Nat := if dOpcode d = 0x10 ∨ dOpcode d = 0x11 then bits (dArg d 0x17 1) 0 2 else 0

/-- The cause of REFUSED_WIDTH. -/
def Block.widthFault (b : Block) (p : Nat) (d : List Byte) : Option Nat :=
  let sel := descSel d
  if b.widthLimit p sel < dWidth d then some (if sel = 1 ∨ sel = 2 then 0x75 else 0x74) else none

/-- Job entries of the package, and Tailrace entries. -/
def jobEntries : Nat := 16384

/-- Why a descriptor cannot be accepted now: JOBS_FULL or TAILRACE_FULL (R287, R289). -/
def Block.admitFault (b : Block) (p : Nat) (d : List Byte) : Option Nat :=
  if b.get .PART_HOP_JOB_QUOTA p ≤ b.partJobsUsed p ∨ jobEntries ≤ b.jobsUsed then some 0x60
  else if dFlow d ≠ 0 ∧ b.get .PART_HOP_TR_QUOTA p ≤ (b.hop.tailrace.filter fun e => e.part = p).length then some 0x61
  else none

/-- A descriptor accepted: a job, and a Tailrace entry when it has a flow (R308, R309); an engine's job whose fence is met joins its
ready list at once. -/
def Block.accept (b : Block) (q : SqRef) (f : Fetched) : Block :=
  let p := b.sqPart q
  let d := f.bytes
  let id := b.hop.nextId
  let j : Job :=
    { id := id, part := p, sq := q, seq := f.seq, index := f.index, desc := d, arrival := f.arrival, cond := f.cond,
      accepted := b.gmc, phase := .admitted, tasks := 0, next := 0, running := [], worst := none, stopped := false, killed := false,
      started := none, regulated := false, degraded := 0, weights := b.get .WEIGHTS_MARK_MARK p, tally := b.tallyOn p,
      progMark := [], inMark := none, outs := [], epoch := none, outcome := none }
  let j := if isEngineOp (dOpcode d) && b.fenceMet j then { j with phase := .ready (dPrio d) b.gmc } else j
  let tr := if dFlow d = 0 then b.hop.tailrace
    else b.hop.tailrace ++ [{ part := p, flow := dFlow d, job := id, seq := f.seq, record := none }]
  { b with hop := { b.hop with nextId := id + 1, jobs := b.hop.jobs ++ [j], tailrace := tr } }

/-- A PAWL descriptor that is executed at hand-over: RELEASE, RENEW, and an OP that is none of the four (R290, R318). -/
def pawlAtOnce (d : List Byte) : Bool := dOpcode d == 0x12 && pOp d != 1 && pOp d != 2

/-- The head of a ring's queue leaves it. -/
def Block.dequeue (b : Block) (q : SqRef) (accepted : Bool) : Block :=
  let x := b.sq q
  b.setSq q { x with queue := x.queue.tail, handed := if accepted then x.handed + 1 else x.handed }

/-- The head of a ring's queue handed to the Hopper: width first, then a PAWL executed at hand-over, then admission. -/
def Block.handHead (b : Block) (q : SqRef) (f : Fetched) : Block :=
  let p := b.sqPart q
  let d := f.bytes
  match b.widthFault p d with
  | some c => (b.dequeue q false).completeFetched q f stWidth c
  | none =>
    if pawlAtOnce d then
      if dFence d && !(b.sq q).live.all (fun n => decide (f.seq ≤ n)) then b
      else
        let b := b.dequeue q true
        let b := if b.tallyOn p then b.tallyPut p (b.descRecord q f.arrival f.cond d [] (sha3 (markDesc d))) else b
        b.pawlAtHandOver q f
    else match b.admitFault p d with
      | some c => if b.on .HOP_PCTRL_ADMIT_REFUSE p then (b.dequeue q false).completeFetched q f stFull c else b
      | none => (b.dequeue q true).accept q f

-- Replay (R580, R581) --------------------------------------------------------------------------------------------------

/-- A record of the replay buffer: its offset, and its bytes up to the end of its body. -/
structure ReplayRec where
  off : Nat
  bytes : List Byte
  deriving DecidableEq, Repr

def ReplayRec.arrival (r : ReplayRec) : Nat := fieldAt r.bytes 0 8
def ReplayRec.kind (r : ReplayRec) : Nat := fieldAt r.bytes 0x10 1
def ReplayRec.source (r : ReplayRec) : Nat := fieldAt r.bytes 0x11 1
def ReplayRec.ring (r : ReplayRec) : Nat := fieldAt r.bytes 0x12 1
def ReplayRec.body (r : ReplayRec) : List Byte := r.bytes.drop 0x20

/-- The record at an offset of partition p's replay buffer; none past its end, where no record stands, or where memory refuses. -/
def Block.replayAt (b : Block) (p off : Nat) : Option ReplayRec × Block :=
  let base := b.get .REPLAY_BASE_ADDR p * 64
  let size := b.get .REPLAY_SIZE_SIZE p * 64
  if size < off + 32 then (none, b)
  else match b.engRead 2 p none (base + off) 32 with
    | (.error _, b) => (none, b)
    | (.ok h, b) =>
      let n := 32 + fieldAt h 0x14 4
      if fieldAt h 0x10 1 = 0 ∨ 3 < fieldAt h 0x10 1 ∨ size < off + n then (none, b)
      else match b.engRead 2 p none (base + off) n with
        | (.ok l, b) => (some { off := off, bytes := l }, b)
        | (.error _, b) => (none, b)

/-- Bytes a record takes in the buffer. -/
def ReplayRec.size (r : ReplayRec) : Nat := ceilDiv r.bytes.length 64 * 64

/-- The first record from an offset on that `want` accepts, skipping `k` of them, among the next `n`. -/
def Block.replayFind (b : Block) (p : Nat) (want : ReplayRec → Bool) : Nat → Nat → Nat → Option ReplayRec × Block
  | 0, _, _ => (none, b)
  | n + 1, off, k =>
    match b.replayAt p off with
    | (none, b) => (none, b)
    | (some r, b) =>
      if want r then
        if k = 0 then (some r, b) else b.replayFind p want n (off + r.size) (k - 1)
      else b.replayFind p want n (off + r.size) k

/-- Records a replay buffer can hold. -/
def Block.replayFuel (b : Block) (p : Nat) : Nat := b.get .REPLAY_SIZE_SIZE p

/-- Replay is on (R580). -/
def Block.replayOn (b : Block) (p : Nat) : Bool := b.bit .TALLY_CTRL_MODE p 1

/-- The count at which replay lets the next descriptor of a ring be accepted; none when it holds none. The look-up is not charged. -/
def Block.replayDue (b : Block) (q : SqRef) : Option Nat × Block :=
  let p := b.sqPart q
  if !b.replayOn p then (none, b)
  else
    let mine (r : ReplayRec) : Bool := r.kind == 1 && r.ring == sqRingByte q &&
      (match q with | .host _ _ => true | .post c _ => r.source == 0x0A + c)
    let (r, b) := b.peek (·.replayFind p mine (b.replayFuel p) 0 (b.sq q).handed)
    (r.map fun r => (r.arrival + b.get .REPLAY_OFFSET_COUNTS p) % 2 ^ 64, b)

/-- HAND_OVER: the oldest validated descriptor of a ring goes to the Hopper (R254), unless replay still holds it (R581), or the memory of its
Tally record or of the replay buffer makes it wait (R102, R421). -/
def Block.handOver (b : Block) (q : SqRef) : Block :=
  match (b.sq q).queue with
  | [] => b
  | f :: _ =>
    if b.resetting (b.sqPart q) then b
    else b.whole (handAgent (b.sqPart q)) fun b =>
      match b.replayDue q with
      | (some t, b) => if b.gmc < t then b else b.handHead q f
      | (none, b) => b.handHead q f

/-- The number by which rings of one partition are ordered. DESIGN CHOICE: post rings count core by core. -/
def sqOrder : SqRef → Nat
  | .host _ r => r
  | .post c r => postIx c r

/-- HAND_OVER, with the other rings that are handed over in the same ck_hub cycle, in ascending ring order (R297, R308). -/
def Block.handOvers (b : Block) (q : SqRef) (also : List SqRef) : Block :=
  (sortBy (fun x y => decide (sqOrder x ≤ sqOrder y)) (nub (q :: also))).foldl (fun b q => b.handOver q) b

def execHandOver (sq : SqRef) (s : State) (also : List SqRef := []) := s.act (·.handOvers sq also)

/-- REPLAY_DESC_RELEASE (R581): at its recorded count a held descriptor is accepted. -/
def Block.replayDescRelease (b : Block) (q : SqRef) : Block :=
  match (b.sq q).queue with
  | [] => b
  | f :: _ => b.whole (handAgent (b.sqPart q)) fun b =>
      match b.replayDue q with
      | (some t, b) => if t ≤ b.gmc then b.handHead q f else b
      | (none, b) => b

def execReplayDescRelease (sq : SqRef) (s : State) := s.act (·.replayDescRelease sq)

/-- A PAWL descriptor with a given OP at the head of a ring's queue is handed over, which executes it (R290). -/
def Block.pawlByDesc (b : Block) (q : SqRef) (op : Nat) : Block :=
  match (b.sq q).queue with
  | f :: _ => if dOpcode f.bytes = 0x12 ∧ pOp f.bytes = op then b.handOver q else b
  | [] => b

/-- RELEASE by a descriptor or a task (R290, R321). -/
def Block.releaseBy (b : Block) (who : PawlFreer) (pawl : Nat) (mended : Bool) : Block :=
  match who with
  | .desc q => b.pawlByDesc q 3
  | .task t => (b.pawlRelease t pawl mended).serve

/-- RENEW by a descriptor or a task (R290, R319). -/
def Block.renewBy (b : Block) (who : PawlFreer) (pawl lease : Nat) : Block :=
  match who with
  | .desc q => b.pawlByDesc q 4
  | .task t => b.pawlRenew t pawl lease

-- Interrupts (R266 to R269) --------------------------------------------------------------------------------------------

/-- IRQ_TIME_EXPIRY (R266, R268): at a tick boundary, TIME ticks after the first record since the last interrupt. -/
def Block.irqTime (b : Block) (p c : Nat) : Block :=
  let a := b.cq (.host p c)
  let t := b.get .IRQ_CQ_TIME (ringIx p c)
  if b.atTick ∧ t ≠ 0 ∧ 0 < a.p ∧ a.firstAt + t * b.tick ≤ b.gmc then b.sendVector p c else b

def execIrqTimeExpiry (part ring : Nat) (s : State) := s.act (·.irqTime part ring)

/-- Pending vectors of a function that may be sent now are sent and leave the PBA. -/
def Block.flushPba (b : Block) (fn : Nat) (which : Nat → Bool) : Block :=
  let go := b.link.pba.filter fun e => e.1 == fn && which e.2 && b.link.msixOn.testBit fn && decide (e ∈ b.link.unmasked)
  go.foldl (fun b e => b.msixGo e.1 e.2) { b with link := { b.link with pba := b.link.pba.filter (· ∉ go) } }

/-- MSIX_UNMASK (R269): a vector's mask bit cleared, or MSI-X enabled on a function. -/
def Block.msixUnmask (b : Block) (fn : Nat) (vec : Option Nat) : Block :=
  match vec with
  | some v => ({ b with link := { b.link with unmasked := nub (b.link.unmasked ++ [(fn, v)]) } }).flushPba fn (· == v)
  | none => ({ b with link := { b.link with msixOn := setBit b.link.msixOn fn } }).flushPba fn fun _ => true

def execMsixUnmask (fn : Nat) (vector : Option Nat) (s : State) := s.act (·.msixUnmask fn vector)

end Sys2Proof.Machine
end

