-- ==== Sys2Proof/Machine/Tiles.lean ====
section
/-! DEFINITION. Tiles leaving and re-entering the pool (spec/12): TAKE_OUT, RETURN, self-test, parity errors. -/

namespace Sys2Proof.Machine

/-- TILE_TAKE_OUT (R625, R628): the tile leaves the pool at once, with event 0x01; a running task, or a self-test, finishes first. -/
def Block.takeOutTile (b : Block) (t : Nat) : Block :=
  let st := b.tileState t
  if t ∉ b.enabledTiles then b
  else if st = tFree then ((b.set .TILE_STATE_STATE t tOut).tileEvent t 0x01).sweepNoTile
  else if st = tBusy ∨ st = tSelftest then (b.setTile t { b.tile t with leaving := true }).tileEvent t 0x01
  else b

def execTileTakeOut (tile : Nat) (s : State) := s.act (·.takeOutTile tile)

/-- TILE_RETURN (R626): a tile in OUT or FAILED starts a self-test; in any other state the request is refused. A write to the window of a
disabled tile is dropped (R4). -/
def Block.returnTile (b : Block) (t : Nat) : Block :=
  let st := b.tileState t
  if t ∉ b.enabledTiles then b
  else if st = tOut ∨ st = tFailed then b.startTest t else b.set .TILE_CTRL_TILE_BADREQ t 1

def execTileReturn (tile : Nat) (s : State) := s.act (·.returnTile tile)

/-- SELF_TEST_DONE (R620, R624, R301): result 0 pass, 1 logic failed, 2 memory failed, and its length in microseconds. A tile that passes
is FREE, for jobs accepted from now on, or OUT when TAKE_OUT came meanwhile. -/
def Block.selfTestDone (b : Block) (t result us : Nat) : Block :=
  if b.tileState t ≠ tSelftest then b
  else
    let b := (b.set .TILE_TEST_LAST t (result + 1)).set .TILE_TEST_DURATION t (min us 65535)
    let x := b.tile t
    let b := b.setTile t { x with leaving := false, since := b.hop.nextId }
    if result = 0 then
      if x.leaving then (b.set .TILE_STATE_STATE t tOut).sweepNoTile else (b.set .TILE_STATE_STATE t tFree).tileEvent t 0x02
    else (((b.bumpSat .TILE_TEST_FAILS t).set .TILE_STATE_STATE t tFailed).tileEvent t 0x03).sweepNoTile

def execSelfTestDone (tile result us : Nat) (s : State) := s.act (·.selfTestDone tile (min result 2) us)

/-- TILE_PARITY (R622, R623): a parity error in the vector registers or the matrix engine ends the task, and the tile leaves the pool. -/
def Block.tileParity (b : Block) (t : Nat) (matrix : Bool) : Block :=
  if (b.tile t).task.isNone then b
  else
    let b := (b.set .TILE_LAST_ERR_UE t 1).set .TILE_LAST_ERR_KIND t (if matrix then 3 else 2)
    (b.setTile t { b.tile t with fault := true }).taskEnd t stEngine 0xC1

def execTileParity (tile : Nat) (matrix : Bool) (s : State) := s.act (·.tileParity tile matrix)

end Sys2Proof.Machine
end

