-- ==== Sys2Proof/Machine/Power.lean ====
section
/-! DEFINITION. Clocks, power, resets and low-power states (spec/02, spec/03, R844): ck_core changes, losses of lock, cold start,
PERST# and package resets, Standstill, die recovery, partition resets, A1 and Furled, and the always-on domain. -/

namespace Sys2Proof.Machine

-- Grind dies -----------------------------------------------------------------------------------------------------------

/-- The grind die of an instance of a die's register: the first index of every such register splits evenly over the two dies. -/
def Fld.dieOf (f : Fld) (i : Nat) : Nat := 2 * i / f.desc.dims.foldl (fun n d => n * d.1) 1

/-- The die is Furled, in a die recovery reset or tripped (R51). -/
def Block.dieOff (b : Block) (d : Nat) : Bool := let x := b.die d; x.gated || x.recovering || x.tripped

/-- The code the Governor holds a die's ck_core to: the lowest of its bounds (R442, R902). -/
def Die.govCode (x : Die) : Nat := min (min x.thermCode x.capCode) x.railCode

/-- The issue throttle in force, in sixteenths (R432, R442). -/
def Die.throttle (x : Die) : Nat := max x.thermThr x.capThr

/-- A ck_core code in 0x10 to 0x24 (R44). -/
def codeOk (t : Nat) : Bool := decide (0x10 ≤ t ∧ t ≤ 0x24)

/-- ACTUAL (R50): the code at which the die's ck_core runs, 0 while the die is off. DESIGN CHOICE: 0 before the release edge too. -/
def Block.actual (b : Block) (d : Nat) : Nat := if b.dieOff d || !b.pwr.released then 0 else (b.die d).lastCode

/-- A ck_core change runs on either die. -/
def Block.changing (b : Block) : Bool := (b.die 0).change.isSome || (b.die 1).change.isSome

/-- A die recovery reset runs on either die. -/
def Block.recovery (b : Block) : Bool := (b.die 0).recovering || (b.die 1).recovering

-- Domains and locks (R879, R52) ------------------------------------------------------------------------------------------

/-- Tier S channels of pair n that are trained. -/
def Block.pairTrained (b : Block) (n : Nat) : Bool := b.on .TS_CHAN_PRESENT (2 * n) || b.on .TS_CHAN_PRESENT (2 * n + 1)

/-- The domain of a CLK_LOCK bit is in use (R879). The ck_ms of a pair is in use until tier S training has ended, and afterwards while one
of its channels is trained. -/
def Block.pllUsed (b : Block) (n : Nat) : Bool :=
  if n < 2 then !(b.die n).gated
  else if n < 5 ∨ n = 7 then true
  else if n < 7 then !(b.die (n - 5)).gated
  else if n < 12 then !b.cfg.tsTrained || b.pairTrained (n - 8)
  else if n < 20 then b.portMode (n - 12) != 0 && b.on .PORT_CFG_ENABLE (n - 12)
  else if n < 24 then b.on .ETH_CFG_ENABLE (if b.on .SVC_CTRL_ETH_MODE then 0 else n - 20)
  else if n = 24 then b.cfg.bitstream && Config.tentClock b.cfg.frames
  else n == 25

/-- The PLL of a domain has come up in the running start. DESIGN CHOICE: a die's ck_core and its stack's ck_mf are locked from the end of
their self-test in step 11, every other clock as soon as its domain is in use. -/
def Block.pllStarted (b : Block) (n : Nat) : Bool :=
  if n = 25 then b.pwr.mainUp
  else !b.inReset && (if n < 2 then b.cfg.selfTest.testBit n else if n = 5 ∨ n = 6 then b.cfg.selfTest.testBit (n - 3) else true)

/-- A clock that can lose lock: its PLL runs and has not lost lock already. A ck_core counts while it relocks too (R51). -/
def Block.clkHeld (b : Block) (n : Nat) : Bool := b.pllUsed n && b.pllStarted n && !b.pwr.lost.testBit n

/-- A CLK_LOCK bit (R879): the PLL runs and is locked; that of a ck_core is not while it relocks for a change. DEDUCED: a die recovery and a
trip gate the clock and leave its PLL locked, since R52 names no other gating that clears the bit without setting CLK_LOSS. -/
def Block.clkLock (b : Block) (n : Nat) : Bool := b.clkHeld n && !(decide (n < 2) && (b.die n).change.isSome)

/-- A PLL whose domain has gone out of use is stopped, so it locks anew at its next start (R879). -/
def Block.settlePlls (b : Block) : Block :=
  { b with pwr := { b.pwr with lost := (List.range 26).foldl (fun m n => if b.pllUsed n then m else clrBit m n) b.pwr.lost } }

-- ck_core changes (R43 to R51) -------------------------------------------------------------------------------------------

/-- A change of ck_core starts: dispatch to the die is held until it ends (R45). -/
def Block.startChange (b : Block) (d code : Nat) (gov : Bool) : Block :=
  b.setDie d { b.die d with change := some code, byGov := gov }

/-- GO on a die with the TARGET present: pending while a change runs (R49), refused out of range (R44), kept for the return of a die
that is off (R51), otherwise a change to TARGET or to the lower code the Governor holds. -/
def Block.clkGo (b : Block) (d : Nat) : Block :=
  let t := b.get .CORE_CLK_TARGET d
  if (b.die d).change.isSome && !b.dieOff d then b.set .CORE_CLK_PENDING d 1
  else if !codeOk t then b.set .CORE_CLK_BADVAL d 1
  else if b.dieOff d then (b.set .CORE_CLK_PENDING d 1).event 0x02 0x02 [byteOf d, byteOf t]
  else (b.setDie d { b.die d with want := t }).startChange d (min t (b.die d).govCode) false

/-- CORE_CLK_GO (R43): TARGET is written with GO. -/
def Block.coreClkGo (b : Block) (d target : Nat) : Block :=
  if d < 2 then (b.set .CORE_CLK_TARGET d target).clkGo d else b

def execCoreClkGo (die target : Nat) (s : State) := s.act (·.coreClkGo die target)

/-- A Furled entry that waited for a change or a recovery to end starts to count FURL_WAIT (R96, R108). -/
def Block.furlCount (b : Block) : Block :=
  if b.pwr.furl = .waiting ∧ b.changing = false ∧ b.recovery = false then
    { b with pwr := { b.pwr with furl := .entering, furlDue := b.dueAt b.gmc (b.get .PWR_CTRL_FURL_WAIT) } }
  else b

/-- PLL_RELOCK (R46, R49): the change ends, event 0x01 is written, and the change held pending starts with the TARGET now present. -/
def Block.pllRelock (b : Block) (d : Nat) : Block :=
  match (b.die d).change with
  | none => b
  | some c =>
    let old := (b.die d).lastCode
    let b := b.setDie d { b.die d with change := none, byGov := false, lastCode := c }
    let b := b.event 0x02 0x01 [byteOf d, byteOf old, byteOf c]
    let b := if b.on .CORE_CLK_PENDING d then (b.set .CORE_CLK_PENDING d 0).clkGo d else b
    b.furlCount

def execPllRelock (die : Nat) (s : State) := s.act (·.pllRelock die)

/-- A die that is no longer off runs again: its PLL has locked at TARGET, or at the code last run when TARGET is out of range, lowered
to the Governor's code, and PENDING clears (R43, R51). -/
def Block.lockDie (b : Block) (d : Nat) : Block :=
  if b.dieOff d then b
  else
    let t := b.get .CORE_CLK_TARGET d
    let x := b.die d
    let want := if codeOk t then t else x.lastCode
    let x := { x with lastCode := min want x.govCode, want := want, change := none, byGov := false }
    let b := (b.setDie d x).set .CORE_CLK_PENDING d 0
    let b := { b with pwr := { b.pwr with lost := clrBit b.pwr.lost d } }
    if codeOk t then b else b.set .CORE_CLK_BADVAL d 1

-- Die recovery (R81 to R87, R117) ----------------------------------------------------------------------------------------

/-- The tasks of a recovering die end at once with a status without a cause (R81, R829), and their contexts count as faulted (R293). -/
def Block.killTasks (b : Block) (d status : Nat) : Block :=
  ((List.range 32).filter fun t => tileDie t == d).foldl (fun b t =>
    match b.taskOwner t with
    | none => b
    | some (p, ctx, _) =>
      let b := ((b.unqueue (.task t)).setTile t { b.tile t with ending := none, releasing := none }).finishTask t status 0
      if !faulting status then b.faultCtx p ctx 0x59 else b) b

/-- What a grind die loses with its power or in a recovery (R84, R116): tile memory, vector registers, die-shared SRAM, its caches and
the bytes of its write-combining buffer. Lost memory reads as memory that nothing has written. -/
def Block.loseDie (b : Block) (d : Nat) : Block :=
  let t0 := tileMemBase (16 * d)
  let s0 := apBase + 0x4000000 + d * 0x200000
  let b := (b.zeroMem t0 0x2000000).zeroMem s0 0x200000
  let gone (a : Nat) : Bool := decide (t0 ≤ a ∧ a < t0 + 0x2000000 ∨ s0 ≤ a ∧ a < s0 + 0x200000)
  { b with ms := { b.ms with
      tc := b.ms.tc.filter fun e => e.die != d
      fills := b.ms.fills.filter fun e => e.die != d
      wc := b.ms.wc.filter fun e => e.die != d
      nodes := b.ms.nodes.filter fun e => e.die != d
      vregs := b.ms.vregs.filter fun e => e.1 / 512 != d
      sectors := b.ms.sectors.filter fun e => !gone (e.1 * 32) } }

/-- The die-only fields without s return to reset (R117). -/
def Block.resetDieRegs (b : Block) (d : Nat) : Block :=
  b.resetRegs fun f i => !(f.desc.die && !f.desc.s && !f.desc.live && f.dieOf i == d)

/-- The enabled tiles of a die. -/
def Block.dieTiles (b : Block) (d : Nat) : List Nat := b.enabledTiles.filter fun t => tileDie t == d

/-- A change of ck_core that a recovery cuts short is held as if GO had been set now (R51). -/
def Block.cutChange (b : Block) (d : Nat) : Block :=
  if (b.die d).change.isSome then
    ((b.setDie d { b.die d with change := none, byGov := false }).set .CORE_CLK_PENDING d 1).event 0x02 0x02
      [byteOf d, byteOf (b.get .CORE_CLK_TARGET d)]
  else b

/-- A die recovery reset starts (R81, R82, R84): by DIE_RESET its work ends with ABORTED_HOST, otherwise with FAULT_ENGINE. -/
def Block.startRecovery (b : Block) (d : Nat) (host : Bool) : Block :=
  if !b.pwr.released || (b.die d).recovering || (b.die d).gated || decide (2 ≤ d) then b
  else
    let b := (b.cutChange d).event 0x03 0x02
    let b := b.setDie d { b.die d with a1 := false, idleTicks := 0, worked := false, recovering := true }
    let b := b.killTasks d (if host then stHost else stEngine)
    ((b.dieTiles d).foldl (fun b t => b.startTest t) (b.loseDie d)).resetDieRegs d

/-- DIE_RESET (R81, R87): a die that is recovering or Furled is refused. -/
def Block.dieReset (b : Block) (mask : Nat) : Block :=
  (bitList mask 2).foldl (fun b d =>
    if (b.die d).recovering || (b.die d).gated then b.set .DIE_RESET_DIE_BADREQ 0 1 else b.startRecovery d true) b

def execDieReset (mask : Nat) (s : State) := s.act (·.dieReset mask)

/-- DIE_FAULT (R65): an uncorrectable die-internal fault. -/
def execDieFault (die : Nat) (s : State) := s.act (·.startRecovery die false)

/-- The self-tests of a list of tiles end: result (0 pass, 1 logic failed, 2 memory failed) and length in microseconds of each, in
order; a missing entry is a pass. -/
def Block.testTiles (b : Block) (tiles : List Nat) (tests : List (Nat × Nat)) : Block :=
  (tiles.zip (tests ++ List.replicate tiles.length (0, 0))).foldl (fun b e => b.selfTestDone e.1 (min e.2.1 2) e.2.2) b

/-- The tiles of a list serve jobs accepted before their return too: an exit from Furled serves the work that was held for it (R102). -/
def Block.serveHeld (b : Block) (tiles : List Nat) : Block :=
  tiles.foldl (fun b t => b.setTile t { b.tile t with since := 0 }) b

/-- DIE_RECOVERY_DONE (R86, R118, R621, R895): the die's clock locks, its tiles have been tested, event 0x03 is written and what was held
is served. `tests` lists the die's enabled tiles. -/
def Block.recoveryDone (b : Block) (d : Nat) (tests : List (Nat × Nat)) : Block :=
  if !(b.die d).recovering then b
  else
    let b := (b.setDie d { b.die d with recovering := false }).lockDie d
    let b := ((b.restartSluices d).event 0x03 0x03).testTiles (b.dieTiles d) tests
    b.furlCount.serveArrived

-- Losses of lock (R52, R548, R903) -----------------------------------------------------------------------------------------

/-- CLOCK_LOST_LOCK (R52): the LOSS bit and event 0x03; a ck_core loss starts a die recovery reset, a ck_gmc loss makes the GMC UNSYNC.
DESIGN CHOICE: any other PLL reads unlocked from then on until its clock is next started. -/
def Block.clockLost (b : Block) (n : Nat) : Block :=
  if !b.clkHeld n then b
  else
    let b := { b with pwr := { b.pwr with lost := setBit b.pwr.lost n } }
    let b := (b.setB .CLK_LOSS_LOSS 0 n).event 0x02 0x03 [byteOf n]
    if n < 2 then b.startRecovery n false
    else if n = 3 ∧ (b.gState = gLocked ∨ b.gState = gHoldover) then b.setGState gUnsync
    else b

def execClockLostLock (bit : Nat) (s : State) := s.act (·.clockLost bit)

/-- GMC_PLL_RELOCK (R903): the ck_gmc PLL relocks; a root returns to LOCKED. -/
def Block.gmcRelock (b : Block) : Block :=
  if b.pwr.lost.testBit 3 then
    let b := { b with pwr := { b.pwr with lost := clrBit b.pwr.lost 3 } }
    if b.isRoot && b.pwr.released then b.setGState gLocked else b
  else b

def execGmcPllRelock (s : State) := s.act (·.gmcRelock)

-- A1 (R89 to R92) ----------------------------------------------------------------------------------------------------------

/-- A1_ENTRY (R89): a die without work for A1_IDLE ticks gates its ck_core, when A1_EN is 1. -/
def Block.a1Entry (b : Block) (d : Nat) : Block :=
  let x := b.die d
  if d < 2 ∧ b.pwr.released ∧ b.on .PWR_CTRL_A1_EN ∧ b.pwr.furl = .a0 ∧ b.dieOff d = false ∧ b.dieBusy d = false ∧
      max 1 (b.get .PWR_CTRL_A1_IDLE) ≤ x.idleTicks then
    b.setDie d { x with a1 := true }
  else b

def execA1Entry (die : Nat) (s : State) := s.act (·.a1Entry die)

/-- A write that clears A1_EN takes every die out of A1 (R89). -/
def Block.leaveA1 (b : Block) : Block := { b with dies := b.dies.map fun x => { x with a1 := false } }

def execA1EnClear (s : State) := s.act fun b => (b.set .PWR_CTRL_A1_EN 0 0).leaveA1

-- Furled (R93 to R108) -----------------------------------------------------------------------------------------------------

/-- FURL (R93, R96, R103, R108): dispatch stops and FURL_WAIT is counted, once no change and no recovery runs; in a transition the
request is refused. DEDUCED: in Furled itself it changes nothing. -/
def Block.furl (b : Block) : Block :=
  if !b.pwr.released then b
  else match b.pwr.furl with
    | .a0 => ({ b with pwr := { b.pwr with furl := .waiting, wakeHeld := false } }).furlCount
    | .furled => b
    | _ => ((b.set .PWR_STATUS_FURL_REFUSED 0 1).set .PWR_STATUS_REFUSE_CAUSE 0 2).event 0x03 0x07

def execFurl (s : State) := s.act (·.furl)

/-- FURL_WAIT_EXPIRY (R94, R95): with work still running, the entry is abandoned with BUSY, or with FORCE the work ends with
ABORTED_HOST. -/
def Block.furlWaitExpiry (b : Block) : Block :=
  if b.pwr.furl = .entering ∧ b.pwr.furlDue ≤ b.gmc ∧ (b.dieBusy 0 || b.dieBusy 1) then
    if b.on .PWR_CTRL_FORCE then (List.range 32).foldl (fun b t => b.stopTask t stHost 0) b
    else
      let b := { b with pwr := { b.pwr with furl := .a0 } }
      ((b.set .PWR_STATUS_FURL_REFUSED 0 1).set .PWR_STATUS_REFUSE_CAUSE 0 1).event 0x03 0x07
  else b

def execFurlWaitExpiry (s : State) := s.act (·.furlWaitExpiry)

/-- KR_DATA, whose words survive nothing, returns to zero (R181). -/
def Block.clearKr (b : Block) : Block := { b with pwr := { b.pwr with krData := Power.reset.krData } }

/-- Entry to and exit from Furled return every field whose Survives column lacks s to reset (R116), live values excepted. -/
def Block.furlRegs (b : Block) : Block := (b.resetRegs fun f _ => f.desc.s || f.desc.live).clearKr

/-- Every flush has been acknowledged: memory in self-refresh, both dies gated, event 0x05; a wake source held meanwhile starts the
exit (R97, R107, R209). -/
def Block.enterFurled (b : Block) : Block :=
  let pairs := (List.range 4).foldl (fun m n => if b.pairTrained n then setBit m n else m) 0
  let b := (b.loseDie 0).loseDie 1
  let b := { b with
    dies := b.dies.map (fun (x : Die) => { x with gated := true, a1 := false, idleTicks := 0, worked := false })
    pwr := { b.pwr with furl := .furled, pairSleep := pairs }
    link := { b.link with collide := [] } }
  let b := b.settlePlls.furlRegs.event 0x03 0x05
  if b.pwr.wakeHeld then b.startExit else b

/-- FURL_DIES_QUIET (R97, R890): no work, change or recovery is left on the dies: every write-combining entry is flushed, and once all
flushes are acknowledged the package is Furled. DEDUCED from R51: a change or a recovery that has started meanwhile ends first, so no die is
Furled with a change running. -/
def Block.diesQuiet (b : Block) : Block :=
  let finish (b : Block) : Block := if b.ms.wc.isEmpty && !b.changing && !b.recovery then b.enterFurled else b
  match b.pwr.furl with
  | .entering =>
    if b.dieBusy 0 || b.dieBusy 1 || b.changing || b.recovery then b
    else
      let wc := b.ms.wc.map fun e => { e with flushing := true }
      finish ({ b with ms := { b.ms with wc := wc }, pwr := { b.pwr with furl := .quiet } }).serve
  | .quiet => finish b
  | _ => b

def execFurlDiesQuiet (s : State) := s.act (·.diesQuiet)

/-- WAKE (R99, R105 to R107). -/
def execWake (s : State) := s.act fun b => if b.pwr.released then b.wakeForWork else b

/-- FURL_EXIT_DONE (R101, R102, R117, R118, R621, R895): both dies run again, their tiles have been tested, event 0x06 is written and held
work is served in arrival order. `tests` lists the enabled tiles of both dies. -/
def Block.exitDone (b : Block) (tests : List (Nat × Nat)) : Block :=
  if b.pwr.furl ≠ .exiting then b
  else
    let slept := b.pwr.pairSleep
    let b := { b with
      dies := b.dies.map (fun (x : Die) => { x with gated := false })
      pwr := { b.pwr with furl := .a0, pairSleep := 0 }
      link := { b.link with collide := [] } }
    let b := ((b.furlRegs).lockDie 0).lockDie 1
    let b := (bitList slept 4).foldl (fun b n => (b.restartSluices (2 + 2 * n)).restartSluices (3 + 2 * n)) b
    let b := ((b.restartSluices 0).restartSluices 1).event 0x03 0x06
    ((b.testTiles b.enabledTiles tests).serveHeld b.enabledTiles).serveArrived

/-- TIER_S_PAIR_IDLE (R100): while Furled, a woken pair returns to self-refresh after 1 ms without access. -/
def Block.pairIdle (b : Block) (n : Nat) : Block :=
  if b.pwr.furl = .furled ∧ n < 4 ∧ b.pairTrained n ∧ Tab.get b.pwr.pairLast n 0 + 1000000 ≤ b.gmc then
    { b with pwr := { b.pwr with pairSleep := setBit b.pwr.pairSleep n } }
  else b

def execTierSPairIdle (pair : Nat) (s : State) := s.act (·.pairIdle pair)

-- The start of a sequence, package resets and Standstill (R60 to R70, R109 to R113) -------------------------------------------

/-- The devices that the live device-mark entries of a channel name. -/
def Block.markedDevices (b : Block) (c : Nat) : List Nat :=
  nub ((b.remapUsed.filter (b.liveMark c)).map fun i => fieldAt (b.remapEntry i) 2 1)

/-- Device marks at a start (R898, R410): one device named is marked; two or more take the channel out with OUT_REASON 2. -/
def Block.startMarks (b : Block) (c : Nat) : Block :=
  match b.markedDevices c with
  | [] => b
  | [d] => b.set .TS_MARK_DEVICE c d
  | _ => (b.set .TS_MARK_OUT_REASON c 2).event 0x48 0x24 [2]

/-- A start: RESET_CAUSE is handed over, the sampled straps are shown, corrected under R123, device marks are read, every enabled tile
enters self-test (R621) and a configuration sequence begins. -/
def Block.beginStart (b : Block) : Block :=
  let c := b.cfg
  let one := decide (c.pinSrc % 4 = 1)
  let bad := decide (c.pinSrc % 4 = 3) || (one && c.pinChain != 0)
  let b := (b.set .RESET_CAUSE_CAUSE 0 b.pwr.nextCause).set .CFG_STATUS_CFG_SRC 0 c.pinSrc
  let b := (b.set .CFG_STATUS_FAIL_MODE 0 c.pinFail).set .CFG_STATUS_CHAIN_FIRST 0 (if one then 0 else c.pinChain)
  let b := (b.set .CFG_STATUS_STRAP_BAD 0 (b2n bad)).set .REMAP_STATUS_TABLE_FULL 0 0
  let b := if b.remapUsed.length = remapEntries then b.tableFull else b
  let b := (List.range 8).foldl (fun b c => b.startMarks c) b
  let b := b.enabledTiles.foldl (fun b t => b.startTest t) b
  { b with cfg := { b.cfg with phase := .attempt 0, chainLast := b.pwr.now, chainArmed := one } }

/-- Everything outside the always-on domain, the fuses and the NVM die is reset (R65, R116); with KEEP_MEM tier F and the tier S channels
in service keep their contents (R69). Fields whose Survives column holds p are kept. -/
def Block.packageReset (b : Block) (keepMem : Bool) : Block :=
  let p := b.pwr
  let c := b.cfg
  let keep (a : Nat) : Bool :=
    match memOf a with
    | none => false
    | some k => keepMem && (k < 2 || b.on .TS_CHAN_IN_SERVICE (k - 2))
  { Block.reset with
    regs := b.regs.filter fun x => x.1.desc.p
    mem := b.mem.filter fun x => keep x.1
    pwr := { p with released := false, krData := Power.reset.krData, furl := .a0, wakeHeld := false, pairSleep := 0, pairLast := [], lost := 0, kept := keepMem }
    cfg := { Loader.reset with
      pinSrc := c.pinSrc, pinFail := c.pinFail, pinChain := c.pinChain, nvm := c.nvm, fuseKey := c.fuseKey, tap := c.tap }
    ms := { MemSys.reset with
      sectors := b.ms.sectors.filter fun e => keep (e.1 * 32)
      dimms := if keepMem then b.ms.dimms else [] }
    out := b.out
    free := b.free }

/-- Main power is lost (R109, R33): the always-on domain is isolated and a crossing write discarded. Below 2.0 V on VBAT the domain may
lose its state (R110), which a free value decides. -/
def Block.standstill (b : Block) : Block :=
  let p := b.pwr
  let low := decide (p.vbatMv < 2000)
  { Block.reset with
    regs := b.regs.filter fun x => x.1.desc.b
    pwr := { Power.reset with
      vbatMv := p.vbatMv, pattern := p.pattern && (!low || b.freeVal 1 == 0), keyRam := p.keyRam,
      zeroOwed := p.zeroOwed, now := p.now, aonPhase := p.aonPhase }
    cfg := { Loader.reset with nvm := b.cfg.nvm, fuseKey := b.cfg.fuseKey }
    out := b.out
    free := if low then b.free + 1 else b.free }

/-- COLD_START (R60, R110): main power rises. A damaged check pattern sets VBAT_LOST, returns every always-on field to reset, restarts
AON_COUNT and empties the key RAM. -/
def Block.coldStart (b : Block) : Block :=
  if b.pwr.mainUp then b
  else
    let b := { b with pwr := { b.pwr with mainUp := true, nextCause := 1, perst := false } }
    if b.pwr.pattern then b
    else
      let aon : List Fld := [.AON_STATUS_AON_DROP, .AON_STATUS_ZEROED, .AON_COUNT_LO_COUNT, .AON_COUNT_HI_COUNT, .AON_SCRATCH_DATA,
        .AON_LAST_EVENT_RECORD, .KR_CTRL_KR_REFUSED, .KR_CTRL_LOCK]
      let b := (b.resetRegs fun f _ => decide (f ∉ aon)).set .AON_STATUS_VBAT_LOST 0 1
      { b with pwr := { b.pwr with pattern := true, keyRam := none, krData := Power.reset.krData, zeroOwed := false } }

def execColdStart (s : State) := s.actAlways (·.coldStart)

/-- MAIN_POWER_LOSS (R109). -/
def Block.mainLoss (b : Block) : Block := if b.pwr.mainUp then b.standstill else b

def execMainPowerLoss (s : State) := s.actAlways (·.mainLoss)

/-- The lower limit of each main rail in millivolts, in the order of R54 (R842, R844). -/
def railLow (rail : Nat) : Nat := [1710, 776, 825, 1164, 1067, 637, 637].getD rail 0

/-- VDD_HUB below 0.70 V isolates the always-on domain: a write still crossing is discarded (R109, R33). -/
def Block.isolateAon (b : Block) : Block := { b with pwr := { b.pwr with crossing := none } }

/-- RAIL_DROOP (R844, R109): a rail below its limit for more than 2 µs without PERST# low is a loss of main power; VDD_HUB below 0.70 V
isolates the always-on domain however short the droop. -/
def Block.railDroop (b : Block) (rail mv ns : Nat) : Block :=
  let b := if rail = 1 ∧ mv < 700 then b.isolateAon else b
  if b.pwr.perst ∧ mv < railLow rail ∧ 2000 < ns then b.mainLoss else b

def execRailDroop (rail mv ns : Nat) (s : State) := s.actAlways (·.railDroop rail mv ns)

/-- PERST_ASSERT (R65): PERST# low resets everything outside the always-on domain. -/
def Block.perstAssert (b : Block) : Block :=
  if b.pwr.mainUp ∧ b.pwr.perst then
    let b := b.packageReset false
    { b with pwr := { b.pwr with perst := false, nextCause := 2 } }
  else b

def execPerstAssert (s : State) := s.actAlways (·.perstAssert)

/-- PERST_DEASSERT (R62, R122): the straps are sampled and a sequence starts. -/
def Block.perstRise (b : Block) (src fail chain : Nat) : Block :=
  if b.pwr.mainUp ∧ b.pwr.perst = false then
    let b := { b with
      pwr := { b.pwr with perst := true }
      cfg := { b.cfg with pinSrc := src % 4, pinFail := fail % 2, pinChain := chain % 2 } }
    b.beginStart
  else b

def execPerstDeassert (src fail chain : Nat) (s : State) := s.actAlways (·.perstRise src fail chain)

/-- A package reset by register: cause 3, or 4 with KEEP_MEM, and a new sequence under the straps as last sampled (R65, R69). -/
def Block.registerReset (b : Block) (keepMem : Bool) : Block :=
  let b := b.packageReset keepMem
  ({ b with pwr := { b.pwr with nextCause := if keepMem then 4 else 3 } }).beginStart

/-- PKG_RESET (R68): a write of RST_CTRL. With PKG_RESET set, KEY must be 0x7A11; otherwise the write keeps KEEP_MEM. -/
def Block.pkgReset (b : Block) (val : Nat) : Block :=
  if val.testBit 0 ∧ bits val 16 16 = 0x7A11 then b.registerReset (val.testBit 1)
  else
    let b := (b.set .RST_CTRL_BADKEY 0 (if val.testBit 2 then 0 else b.get .RST_CTRL_BADKEY)).set .RST_CTRL_KEEP_MEM 0 (bit1 val 1)
    if val.testBit 0 then b.set .RST_CTRL_BADKEY 0 1 else b

def execPkgReset (val : Nat) (s : State) := s.act (·.pkgReset val)

-- VBAT and ZERO# (R58, R110 to R113, R904) -----------------------------------------------------------------------------------

/-- VBAT takes a value: event 0x08 when it falls below 2.1 V with main power up; below 2.0 V without main power the domain may lose its
state (R110, R111). -/
def Block.setVbat (b : Block) (mv : Nat) (damaged : Bool) : Block :=
  let fell := decide (2100 ≤ b.pwr.vbatMv ∧ mv < 2100)
  let hurt := decide (mv < 2000) && !b.pwr.mainUp && damaged
  let b := { b with pwr := { b.pwr with vbatMv := mv, pattern := b.pwr.pattern && !hurt } }
  if fell && b.pwr.mainUp then b.event 0x03 0x08 else b

/-- VBAT_LOW (R111): VBAT below 2.1 V. -/
def execVbatLow (mv : Nat) (s : State) := s.actAlways fun b => if mv < 2100 then b.setVbat mv false else b

/-- VBAT_REMOVED (R110): VBAT below 2.0 V; `damaged` says whether the check pattern failed. -/
def execVbatRemoved (mv : Nat) (damaged : Bool) (s : State) := s.actAlways fun b => if mv < 2000 then b.setVbat mv damaged else b

/-- VBAT_APPLIED (R111): VBAT back above 2.1 V. -/
def execVbatApplied (mv : Nat) (s : State) := s.actAlways fun b => if 2100 ≤ mv then b.setVbat mv false else b

/-- ZERO_ASSERT (R112, R113, R904): ZERO# low for at least 2 ck_aon clears the key RAM and sets ZEROED; the event is written at once after
the release edge and owed otherwise. -/
def Block.zeroPin (b : Block) (ckAon : Nat) : Block :=
  if ckAon < 2 then b
  else
    let b := ({ b with pwr := { b.pwr with keyRam := none } }).set .AON_STATUS_ZEROED 0 1
    if b.pwr.mainUp && b.pwr.released then b.event 0x03 0x09 [0] else { b with pwr := { b.pwr with zeroOwed := true } }

def execZeroAssert (ckAon : Nat) (s : State) := s.actAlways (·.zeroPin ckAon)

-- Always-on writes (R33, R114, R115, R139 to R142) -----------------------------------------------------------------------------

/-- An offset of the always-on registers (R114). -/
def aonOffset (off : Nat) : Bool := decide (0x10100 ≤ off ∧ off < 0x10200 ∨ 0x30100 ≤ off ∧ off < 0x30180)

/-- The words that a write of 4 or 8 bytes covers: each offset with its value. -/
def wordsOf (off size val : Nat) : List (Nat × Nat) :=
  if size = 8 then [(off, val % 2 ^ 32), (off + 4, val / 2 ^ 32 % 2 ^ 32)] else [(off, val % 2 ^ 32)]

/-- The word holds a field of the always-on domain that a write can change: KR_DATA, KR_CTRL and AON_SCRATCH. -/
def aonLive (a : Nat) : Bool := decide (0x10100 ≤ a ∧ a < 0x10124 ∨ 0x30120 ≤ a ∧ a < 0x30130)

/-- A written word would change a field of the always-on domain (R880). -/
def Block.aonChanges (b : Block) (a v : Nat) : Bool :=
  if 0x10100 ≤ a ∧ a < 0x10120 then b.pwr.krData.getD ((a - 0x10100) / 4) 0 != v
  else if a = 0x10120 then
    v.testBit 0 || v.testBit 1 || (v.testBit 2 && !b.on .KR_CTRL_LOCK) || (v.testBit 4 && b.on .KR_CTRL_KR_REFUSED)
  else decide (0x30120 ≤ a ∧ a < 0x30130) && b.get .AON_SCRATCH_DATA ((a - 0x30120) / 4) != v

/-- A write crosses into the always-on domain (R114, R115): one that lands only in RO or reserved bits does not cross. While another
crosses it is dropped with AON_DROP, unless it would change nothing (R880). -/
def Block.aonWrite (b : Block) (who : Requester) (off size val : Nat) : Block :=
  let ws := wordsOf off size val
  if !ws.any fun w => aonLive w.1 then b
  else if b.pwr.crossing.isSome then
    if ws.any fun w => b.aonChanges w.1 w.2 then b.set .AON_STATUS_AON_DROP 0 1 else b
  else { b with pwr := { b.pwr with crossing := some { who := who, off := off, size := size, val := val % 2 ^ (8 * size) } } }

/-- A write of AON_STATUS (R114): applied at once; its three flags are cleared by ones, but for a flag that hardware sets in the same
cycle, which reads 1 (R207). -/
def Block.aonStatus (b : Block) (val hwSet : Nat) : Block :=
  let fs : List (Nat × Fld) := [(1, .AON_STATUS_AON_DROP), (2, .AON_STATUS_ZEROED), (3, .AON_STATUS_VBAT_LOST)]
  fs.foldl (fun b e => if hwSet.testBit e.1 then b.set e.2 0 1 else if val.testBit e.1 then b.set e.2 0 0 else b) b

/-- One always-on word takes its new value. KR_CTRL: LOAD and CLEAR are refused while LOCK is 1 (R142); DEDUCED: CLEAR acts last when both
are set, and LOCK set in the same write comes after both. -/
def Block.applyAonWord (b : Block) (a v : Nat) : Block :=
  if 0x10100 ≤ a ∧ a < 0x10120 then
    { b with pwr := { b.pwr with krData := b.pwr.krData.set ((a - 0x10100) / 4) (v % 2 ^ 32) } }
  else if a = 0x10120 then
    let locked := b.on .KR_CTRL_LOCK
    let b := if v.testBit 4 then b.set .KR_CTRL_KR_REFUSED 0 0 else b
    let b :=
      if locked then if v.testBit 0 ∨ v.testBit 1 then b.set .KR_CTRL_KR_REFUSED 0 1 else b
      else
        let b := if v.testBit 0 then
            ({ b with pwr := { b.pwr with keyRam := some (b.pwr.krData.flatMap (leBytes 4)) } }).event 0x01 0x06 [0]
          else b
        if v.testBit 1 then ({ b with pwr := { b.pwr with keyRam := none } }).event 0x01 0x06 [1] else b
    if v.testBit 2 then b.set .KR_CTRL_LOCK 0 1 else b
  else if 0x30120 ≤ a ∧ a < 0x30130 then b.set .AON_SCRATCH_DATA ((a - 0x30120) / 4) v
  else b

/-- AON_WRITE_APPLIED (R33): the write that crosses is applied whole and AON_PEND falls. -/
def Block.aonApplied (b : Block) : Block :=
  match b.pwr.crossing with
  | none => b
  | some w =>
    let b := { b with pwr := { b.pwr with crossing := none } }
    let b := b.applyAonWord w.off (w.val % 2 ^ 32)
    if w.size = 8 then b.applyAonWord (w.off + 4) (w.val / 2 ^ 32) else b

def execAonWriteApplied (s : State) := s.actAlways (·.aonApplied)

-- Partition resets (R72 to R80, R120, R313, R324, R522, R817, R890) --------------------------------------------------------------

/-- Every submission ring that serves a partition. -/
def Block.partSqs (b : Block) (p : Nat) : List SqRef :=
  (List.range 32).map (SqRef.host p) ++
    (((List.range 16).map fun k => SqRef.post (k / 4) (k % 4)).filter fun q => b.sqPart q == p && b.sqState q != rOff)

/-- The write-combining entries that hold bytes of the partition's running tasks are discarded (R890). -/
def Block.dropWc (b : Block) (p : Nat) : Block :=
  { b with ms := { b.ms with wc := b.ms.wc.filter fun e => !(e.part == p && !e.tiles.isEmpty) } }

/-- The collective operations of a partition end here, and the other members are told (R522). -/
def Block.endColls (b : Block) (p : Nat) : Block :=
  (b.fab.colls.filter fun o => match b.job o.job with | some j => j.part == p | none => false).foldl (fun b o =>
    (b.sendAborts o.group o.seq 0x94 none).closeColl o.group o.seq) b

/-- The pawls of a partition: waiters leave, held ones break with OWNER_RESET (R324). -/
def Block.resetPawls (b : Block) (p : Nat) : Block :=
  let mine := (b.hop.pawls.map (·.1)).filter fun n => b.pawlPart n == some p
  mine.foldl (fun b n => (b.setPawl n { b.pawl n with waiters := [] }).breakPawl p n 0x58) b

/-- The flow-ordered records of a partition are written flow by flow, each flow in order (R313). -/
def Block.releaseFlows (b : Block) (p : Nat) : Block :=
  let mine := sortBy (fun x y => decide (x.flow ≤ y.flow)) (b.hop.tailrace.filter fun e => e.part == p)
  let b := { b with hop := { b.hop with tailrace := b.hop.tailrace.filter fun e => e.part != p } }
  mine.foldl (fun b e => match e.record with | some r => b.writeRecord r e.seq | none => b) b

/-- The descriptors of a ring that had not been handed over complete with ABORTED_RESET, first those fetched, then those whose fetch is
outstanding, which no one has read and whose TAG is therefore 0 (R73, R260). -/
def Block.abortQueue (b : Block) (q : SqRef) : Block :=
  let x := b.sq q
  let unread := b.unfetched q
  let n := b.sqSize q
  let b := b.setSqHead q (posWord n (wordPos n (b.sqHead q) + b.fetching q))
  let b := b.setSq q { x with queue := [], accepts := [], fetches := [], lastFailed := false }
  (x.queue ++ unread).foldl (fun b f => b.completeFetched q f stReset 0) b

/-- The partition's tile memories, vector registers and die-shared SRAM regions are zeroed (R75). -/
def Block.zeroPart (b : Block) (p : Nat) : Block :=
  let tiles := b.partTiles p
  let blocks := (bitList (b.get .DS_GRANT_G0 p) 8).map (fun k => apBase + 0x4000000 + k * 0x40000) ++
    (bitList (b.get .DS_GRANT_G1 p) 8).map fun k => apBase + 0x4200000 + k * 0x40000
  let b := tiles.foldl (fun b t => b.zeroMem (tileMemBase t) 0x200000) b
  let b := blocks.foldl (fun b a => b.zeroMem a 0x40000) b
  let gone (a : Nat) : Bool := tiles.any (fun t => decide (tileMemBase t ≤ a ∧ a < tileMemBase t + 0x200000)) ||
    blocks.any fun x => decide (x ≤ a ∧ a < x + 0x40000)
  { b with ms := { b.ms with
      vregs := b.ms.vregs.filter fun e => decide (e.1 / 32 ∉ tiles)
      sectors := b.ms.sectors.filter fun e => !gone (e.1 * 32) } }

/-- The partition's entries leave both translation caches and both world-node caches (R76). -/
def Block.dropCaches (b : Block) (p : Nat) : Block :=
  { b with ms := { b.ms with
      tc := b.ms.tc.filter fun e => e.part != p
      fills := b.ms.fills.filter fun e => e.part != p
      nodes := b.ms.nodes.filter fun e => e.part != p } }

/-- The requests of a partition that are out: its accesses end, responses to come, host reads included, are sunk (R74), and held host accesses
are forgotten. -/
def Block.sinkRequests (b : Block) (p : Nat) : Block :=
  let mine (r : HostRead) : Bool :=
    match r with
    | .line q _ => q == p
    | .fetch q _ => q == p
    | .data id => match b.job id with | some j => j.part == p | none => false
    | .slot => false
  let held (h : HostAccess) : Bool :=
    match h with
    | .read r => mine r
    | .record q _ => q == p
    | .dataWrite id => match b.job id with | some j => j.part == p | none => false
  { b with
    ms := { b.ms with accs := b.ms.accs.filter fun a => a.part != p }
    fab := { b.fab with reqs := b.fab.reqs.map fun q => if q.part = p then { q with sunk := true } else q }
    link := { b.link with
      reads := b.link.reads.map fun r => if mine r.which then { r with sunk := true } else r
      tagless := b.link.tagless.filter fun r => !mine r.which
      stalled := b.link.stalled.filter fun x => match x with | .data h => !held h.which | _ => true
      waits := b.link.waits.filter fun h => !held h.which } }

/-- The Miller cores whose memory-window accesses a partition's reset ends: any status but DONE faults (R781). -/
def Block.faultWindow (b : Block) (p : Nat) : Block :=
  b.ms.accs.foldl (fun b a => match a.who with
    | .core c => if a.part = p then b.coreFault c (windowBase + a.elems.headD 0) stReset 0 else b
    | _ => b) b

/-- What a partition's waiting operations have been admitted, and the operations themselves, are forgotten. -/
def Block.forgetHeld (b : Block) (p : Nat) : Block :=
  { b with
    ms := { b.ms with dues := [handAgent p, absorbAgent p, frameAgent p].foldl Tab.del b.ms.dues }
    hop := { b.hop with absorbs := b.hop.absorbs.filter (· ≠ p) }
    svc := { b.svc with heldFrames := b.svc.heldFrames.filter fun x => x.part != p } }

/-- A partition reset starts (R72 to R77, R313, R324, R522): tasks stop, every descriptor accepted and not completed gets an
ABORTED_RESET record, tile state is zeroed and cache entries go. -/
def Block.partReset (b : Block) (p : Nat) : Block :=
  if b.resetting p then b
  else
    let b := (b.set .PART_STATUS_RESETTING p 1).endColls p
    let b := (b.dropWc p).resetPawls p
    let mine := b.hop.jobs.filter fun j => j.part == p
    let b := mine.foldl (fun b j => b.stopTasks j) b
    let b := (b.faultWindow p).sinkRequests p
    let b := mine.foldl (fun b j => b.finalize j stReset 0 0 none none) b
    let b := b.releaseFlows p
    let b := (b.partSqs p).foldl (fun b q => b.abortQueue q) b
    ((b.zeroPart p).dropCaches p).forgetHeld p |>.serve

/-- PART_RESET (R72, R80, R817): each bit set starts a reset of its partition; one that is RESETTING is left alone, and a service-owned
one is refused with a violation record. -/
def Block.partResetMask (b : Block) (source mask : Nat) : Block :=
  (bitList mask 8).foldl (fun b p =>
    if b.get .PART_GRANT_OWNER p = 2 then b.violate 0xA0 0xFA p source 0 3 (leBytes 4 0x30008 ++ [4])
    else if b.resetting p then b
    else (b.setB .PART_RESET_PART 0 p).partReset p) b

def execPartReset (mask : Nat) (s : State) := s.act (·.partResetMask 0 mask)

/-- SVC_PART_RESET (R817): a Miller core resets service-owned partitions; a bit that names another is ignored with the same record. -/
def Block.svcPartReset (b : Block) (core mask : Nat) : Block :=
  (bitList mask 8).foldl (fun b p =>
    if b.get .PART_GRANT_OWNER p ≠ 2 then b.violate 0xA0 0xFA p (0x0A + core) 0 3 (leBytes 4 0xA00008 ++ [4])
    else if b.resetting p then b
    else (b.setB .SVC_PART_RESET_PART 0 p).partReset p) b

def execSvcPartReset (core mask : Nat) (s : State) := s.act (·.svcPartReset core mask)

/-- Completion records of a partition's host rings that have still to be written. -/
def Block.recordsHeld (b : Block) (p : Nat) : List HeldRec := b.unwritten.filter fun h => cqPart h.cq == p

/-- PARTITION_RESET_DONE (R73, R79, R120): once every ABORTED_RESET record has been written, the fields of the partition whose Survives
column lacks f return to reset, its rings are OFF, the request bit clears and event 0x01 is written. -/
def Block.partResetDone (b : Block) (p : Nat) : Block :=
  if !b.resetting p || !(b.recordsHeld p).isEmpty then b
  else
    let b := b.resetRegs fun f i => !(f.partOf i == some p && !f.desc.f && !f.desc.live)
    let host (k : Nat) : Bool := decide (k / 32 = p ∧ k < 256)
    let b := { b with
      sqs := b.sqs.filter fun e => !host e.1
      cqs := b.cqs.filter fun e => !host e.1
      link := { b.link with
        retry := b.link.retry.filter fun e => e.1 != p
        lastPoll := b.link.lastPoll.filter fun e => e.1 / 8 != p } }
    let b := (b.settleRings p).set .PART_STATUS_RESETTING p 0
    ((b.clrB .PART_RESET_PART 0 p).clrB .SVC_PART_RESET_PART 0 p).event 0x03 0x01 [] p

def execPartitionResetDone (part : Nat) (s : State) := s.act (·.partResetDone part)

end Sys2Proof.Machine
end

