-- ==== Sys2Proof/Machine/Governor.lean ====
section
/-! DEFINITION. The Governor (spec/09 R426 to R443, spec/19 R845, R902): the 1 ms reading of its five sensors, of package power and of
the core rails, and what it does to clocks, throttles, holds and trips. Sensors are numbered stack 0, stack 1, G0, G1, hub. -/

namespace Sys2Proof.Machine

/-- A threshold in 1/16 °C: 0 WARM, 1 HOT, 2 CRITICAL, 3 RESUME of a stack's table or of the dies' (R443). HOT_T of a stack is limited to
70 to 85 °C. -/
def Block.govT (b : Block) (sensor k : Nat) : Int :=
  let v := if sensor < 2 then
      match k with
      | 0 => b.get .GOV_STACK_T_WARM
      | 1 => min 85 (max 70 (b.get .GOV_STACK_T_HOT))
      | 2 => b.get .GOV_STACK_T_CRIT
      | _ => b.get .GOV_STACK_T_RESUME
    else
      match k with
      | 0 => b.get .GOV_DIE_T_WARM
      | 1 => b.get .GOV_DIE_T_HOT
      | 2 => b.get .GOV_DIE_T_CRIT
      | _ => b.get .GOV_DIE_T_RESUME
  16 * (v : Int)

/-- The state of a sensor: 0 COOL to 3 CRITICAL. -/
def Block.sensorState (b : Block) (n : Nat) : Nat := bits (b.get .GOV_STATE_STATES) (2 * n) 2

/-- A sensor's state after a valid reading (R426): up at once, down one state at a reading, and not below a threshold it meets. -/
def Block.nextState (b : Block) (n old : Nat) (t : Int) : Nat :=
  let up := if b.govT n 2 ≤ t then 3 else if b.govT n 1 ≤ t then 2 else if b.govT n 0 ≤ t then 1 else 0
  if old ≤ up then up
  else match old with
    | 3 => if t < b.govT n 3 then 2 else 3
    | 2 => if t < b.govT n 1 - 48 then 1 else 2
    | 1 => if t < b.govT n 0 - 48 then 0 else 1
    | _ => 0

/-- The register that shows a sensor's temperature (R443). -/
def govTempFld (n : Nat) : Fld :=
  match n with
  | 0 => .GOV_TEMP0_STACK0
  | 1 => .GOV_TEMP0_STACK1
  | 2 => .GOV_TEMP1_G0
  | 3 => .GOV_TEMP1_G1
  | _ => .GOV_TEMP2_HUB

/-- A sensor takes a new state: event 0x10 with the reading, a rise counted, the sticky bits and line 7 (R426, R783). -/
def Block.moveSensor (b : Block) (n old new : Nat) (reading : Nat) : Block :=
  if old = new then b
  else
    let b := b.set .GOV_STATE_STATES 0 (putBits (b.get .GOV_STATE_STATES) (2 * n) 2 new)
    let b := if old < new then b.bump .GOV_RISES_COUNT else b
    let b := if old < 2 ∧ 2 ≤ new then b.set .GOV_SEEN_HOT 0 1 else b
    let b := if new = 3 then b.set .GOV_SEEN_CRIT 0 1 else b
    (b.event 0x02 0x10 ([byteOf n, byteOf old, byteOf new, 0] ++ leBytes 2 reading)).raiseAll 7

/-- One sensor read: its temperature in 1/16 °C, or a failed readout; the third failure in a row makes it CRITICAL (R428). -/
def Block.readSensor (b : Block) (n : Nat) (t : Option Int) : Block :=
  let old := b.sensorState n
  match t with
  | some t =>
    let raw := toW 16 t
    let b := { b with gov := { b.gov with fails := b.gov.fails.set n 0 } }
    let b := (b.set (govTempFld n) 0 raw).clrB .GOV_STATE_SENSOR_FAIL 0 n
    b.moveSensor n old (b.nextState n old t) raw
  | none =>
    let k := b.gov.fails.getD n 0 + 1
    let b := { b with gov := { b.gov with fails := b.gov.fails.set n k } }
    let b := b.set (govTempFld n) 0 0x8000
    if k = 3 then
      let b := ((b.setB .GOV_STATE_SENSOR_FAIL 0 n).set .GOV_SEEN_SENSOR 0 1).event 0x02 0x15
      b.moveSensor n old 3 0x8000
    else b

/-- Sensor n has no power: its die is Furled and its stack in self-refresh. DESIGN CHOICE: it is not read out then, which is no failed
readout, and its temperature is not available. -/
def Block.sensorOff (b : Block) (n : Nat) : Bool := decide (n < 4) && (b.die (n % 2)).gated

/-- Sensor n at a reading of the Governor. -/
def Block.takeSensor (b : Block) (n : Nat) (t : Option Int) : Block :=
  if b.sensorOff n then b.set (govTempFld n) 0 0x8000 else b.readSensor n t

/-- The refresh of stack s is doubled: its state is HOT or CRITICAL, or its last reading is at or above 85 °C (R429, R430). It changes
timing only (R437). -/
def Block.refreshDoubled (b : Block) (s : Nat) : Bool :=
  let raw := b.get (govTempFld s)
  decide (2 ≤ b.sensorState s) || decide (85 * 16 ≤ raw ∧ raw < 0x8000)

/-- The package state follows its sensors (R427). -/
def Block.packageState (b : Block) : Block :=
  let m := (List.range 5).foldl (fun m n => max m (b.sensorState n)) 0
  b.set .GOV_STATE_STATES 0 (putBits (b.get .GOV_STATE_STATES) 10 2 m)

-- Trips (R438, R439) ----------------------------------------------------------------------------------------------------

/-- A reading trips die `d`: its stack at 105 °C or the die at 110 °C. -/
def tripHot (temps : List (Option Int)) (d : Nat) : Bool :=
  (match temps.getD d none with | some t => decide (105 * 16 ≤ t) | none => false) ||
    match temps.getD (2 + d) none with | some t => decide (110 * 16 ≤ t) | none => false

/-- Both sensors of die `d` read below their RESUME_T. -/
def Block.tripCool (b : Block) (temps : List (Option Int)) (d : Nat) : Bool :=
  (match temps.getD d none with | some t => decide (t < b.govT d 3) | none => false) &&
    match temps.getD (2 + d) none with | some t => decide (t < b.govT (2 + d) 3) | none => false

/-- The trip of die `d` at a reading: event 0x13 as it begins, event 0x14 as it ends, when the clock locks and the stack's refill periods
start anew (R895). -/
def Block.tripDie (b : Block) (temps : List (Option Int)) (d : Nat) : Block :=
  if (b.die d).tripped then
    if b.tripCool temps d then
      let b := (b.setDie d { b.die d with tripped := false }).lockDie d
      ((b.restartSluices d).event 0x02 0x14).furlCount
    else b
  else if tripHot temps d then
    let b := b.cutChange d
    (((b.setDie d { b.die d with tripped := true }).set .GOV_SEEN_TRIP 0 1).event 0x02 0x13).furlCount
  else b

-- Notices and holds (R434 to R436, R524 to R527) ---------------------------------------------------------------------------

/-- The first epoch boundary at least `n` counts from now. -/
def Block.boundaryAfter (b : Block) (n : Nat) : Nat := ceilDiv (b.gmc + n) (2 ^ 20) * 2 ^ 20

/-- Sensors whose state went from below `lvl` to at least it since the states word was `old`. -/
def Block.entered (b : Block) (old lvl : Nat) : Bool :=
  (List.range 5).any fun n => decide (bits old (2 * n) 2 < lvl ∧ lvl ≤ b.sensorState n)

/-- The package floods HOLD for its own entry: with a new hold count, or the same one again while it stays CRITICAL (R525). -/
def Block.ownHold (b : Block) : Block :=
  let h := match b.fab.holds.find? fun e => decide (e.origin = b.pkg) && e.resume.isNone with
    | some e => e.hold
    | none => b.boundaryAfter (2 ^ 18)
  (b.flood 0x32 b.pkg h).enterHold b.pkg h

/-- Notices and holds at a reading, `old` the states before it: a notice for a sensor entering HOT, a hold for one entering CRITICAL, the
hold repeated while one is CRITICAL, RESUME when none is (R434, R435, R525, R527). -/
def Block.govHolds (b : Block) (old : Nat) : Block :=
  let member := b.sharesGroup b.pkg
  let crit := decide (3 ≤ bits (b.get .GOV_STATE_STATES) 10 2)
  let b := if member && b.entered old 2 then b.flood 0x34 b.pkg 1 else b
  let ours := b.fab.holds.any fun e => decide (e.origin = b.pkg) && e.resume.isNone
  if b.entered old 3 then
    if member then
      let b := if b.gov.fabricHold && ours then b else b.event 0x02 0x11
      ({ b with gov := { b.gov with fabricHold := true } }).ownHold
    else if b.gov.localHold then b
    else
      let b := b.holdBegins
      ({ b with gov := { b.gov with localHold := true } }).event 0x02 0x11
  else if b.gov.fabricHold && ours then
    if crit then b.ownHold
    else
      let c := b.boundaryAfter (2 ^ 20)
      (b.flood 0x33 b.pkg c).enterResume b.pkg c
  else b

/-- LOCAL_HOLD_END (R436): at a tick boundary after every sensor has left CRITICAL, with event 0x12; collectives go on. -/
def Block.localHoldEnd (b : Block) : Block :=
  if b.gov.localHold && b.atTick && decide (bits (b.get .GOV_STATE_STATES) 10 2 < 3) then
    (({ b with gov := { b.gov with localHold := false } }).event 0x02 0x12).holdEnds
  else b

def execLocalHoldEnd (s : State) := s.act (·.localHoldEnd)

-- Clocks and throttles (R429, R433, R440 to R442, R902) ---------------------------------------------------------------------

/-- The highest code that a core rail's average in millivolts allows (R845, R902). -/
def coreMax (mv : Nat) : Nat := if mv < 650 then 0x10 else if mv < 700 then 0x18 else if mv < 750 then 0x1C else if mv < 850 then 0x20 else 0x24

/-- MIN_CODE as applied (R443). -/
def Block.govMin (b : Block) : Nat := max 0x10 (b.get .GOV_CTRL_MIN_CODE)

/-- POWER_CAP as applied (R443). -/
def Block.govCap (b : Block) : Nat := min 300000 (b.get .GOV_CAP_POWER_CAP)

/-- A bound after a reading that calls for one step down from the running code, one step up toward the code asked for, or neither. -/
def stepBound (bound last want lowest : Nat) (down up : Bool) : Nat :=
  if down then if last ≤ lowest then min bound last else min bound (last - 1)
  else if up then if want ≤ bound + 1 then 0x24 else bound + 1
  else bound

/-- A die's bounds and throttles after a reading: its thermal state, the package power and its rail. -/
def Block.govDie (b : Block) (x : Die) (hot : Bool) (power mv : Nat) : Die :=
  let above := decide (b.govCap < power)
  let under := decide (100 * power < 95 * b.govCap)
  let x := { x with railCode := coreMax mv }
  if b.on .GOV_CTRL_MODE then
    let n := min 12 (x.throttle + 1)
    { x with
      thermThr := if hot then n else x.thermThr - 1, capThr := if above then n else if under then x.capThr - 1 else x.capThr }
  else
    { x with
      thermCode := stepBound x.thermCode x.lastCode x.want b.govMin hot (!hot)
      capCode := stepBound x.capCode x.lastCode x.want b.govMin above (under && !hot)
      thermThr := x.thermThr - 1, capThr := x.capThr - 1 }

/-- The clock of a die that runs and is not changing follows its bounds: straight down, up one code toward the code asked for. In mode
FIXED only the rail's bound moves it. -/
def Block.govClock (b : Block) (d : Nat) : Block :=
  let x := b.die d
  if b.dieOff d || x.change.isSome || !b.pwr.released then b
  else
    let fixed := b.on .GOV_CTRL_MODE
    let bound := if fixed then x.railCode else x.govCode
    if bound < x.lastCode then b.startChange d bound true
    else if x.lastCode < min x.want bound && (!fixed || x.byRail) then b.startChange d (x.lastCode + 1) true
    else b

/-- The Governor acts on die `d` at a reading. -/
def Block.govAct (b : Block) (power mv d : Nat) : Block :=
  let x := b.die d
  let y := b.govDie x (decide (2 ≤ b.sensorState (2 + d))) power mv
  let y := { y with byRail := decide (x.lastCode < x.want) && (decide (x.railCode < x.want ∨ y.railCode < x.want) || x.byRail) }
  (b.setDie d y).govClock d

/-- GOVERNOR_READING (R426 to R442, R902): `temps` the five sensors in 1/16 °C, none where a readout failed, `power` the package's average
in milliwatts, `rails` the averages of VDD_CORE_G0, VDD_CORE_G1, VDD_HUB and VDDQ_S in millivolts. What a trip held is served at its end. -/
def Block.governor (b : Block) (temps : List (Option Int)) (power : Nat) (rails : List Nat) : Block :=
  if !b.pwr.mainUp || !b.pwr.perst then b
  else
    let old := b.get .GOV_STATE_STATES
    let mv (k : Nat) : Nat := rails.getD k 0
    let b := ((b.set .RAIL_MV0_CORE_G0 0 (mv 0)).set .RAIL_MV0_CORE_G1 0 (mv 1)).set .RAIL_MV1_HUB 0 (mv 2)
    let b := ((b.set .RAIL_MV1_VDDQ_S 0 (mv 3)).set .RAIL_MV2_CORE_MAX_G0 0 (coreMax (mv 0))).set .RAIL_MV2_CORE_MAX_G1 0 (coreMax (mv 1))
    let b := b.set .GOV_POWER_MW 0 power
    let b := ((List.range 5).foldl (fun b n => b.takeSensor n (temps.getD n none)) b).packageState
    let tripped := b.dies.map (·.tripped)
    let b := (b.tripDie temps 0).tripDie temps 1
    let back := (b.dies.zip tripped).any fun e => e.2 && !e.1.tripped
    let full := b.on .GOV_CTRL_MODE && decide (b.govCap < power) && decide (12 ≤ (b.die 0).throttle ∧ 12 ≤ (b.die 1).throttle)
    let b := (if full then b.event 0x02 0x16 else b).govHolds old
    let b := (b.govAct power (mv 0) 0).govAct power (mv 1) 1
    let capped (x : Die) : Bool := if b.on .GOV_CTRL_MODE then decide (0 < x.capThr) else decide (x.capCode < x.want ∨ 0 < x.capThr)
    let b := b.set .GOV_STATE_CAP_ACTIVE 0 (b2n (b.dies.any capped))
    if back then b.serveArrived else b

end Sys2Proof.Machine
end

