-- ==== Sys2Proof/Machine/Regs.lean ====
section
/-! DEFINITION. The set-up space as an address map (spec/05 R195 to R217): which field and instance a word belongs to, what each field
reads as, and reads of 4 and 8 bytes. A field whose value follows from other state is computed here; every other field is read from the
register file. -/

namespace Sys2Proof.Machine

-- The address map ------------------------------------------------------------------------------------------------------

/-- The instance and the remainder of an offset from a field's base, index by index. -/
def locate : List (Nat × Nat) → Nat → Nat → Option (Nat × Nat)
  | [], r, i => some (i, r)
  | (n, st) :: ds, r, i => if r / st < n then locate ds (r % st) (i * n + r / st) else none

/-- The instance of a field whose register covers the byte at offset `o`. -/
def Fld.at (f : Fld) (o : Nat) : Option Nat :=
  let d := f.desc
  if o < d.base then none
  else match locate d.dims (o - d.base) 0 with
    | some (i, r) => if r < d.size then some i else none
    | none => none

/-- The offset of instance `i` within a list of dimensions, last index first. -/
def spread : List (Nat × Nat) → Nat → Nat
  | [], _ => 0
  | (n, st) :: ds, i => let inner := ds.foldl (fun k d => k * d.1) 1
                        i / inner % n * st + spread ds (i % inner)

/-- The offset of the register that holds instance `i` of a field. -/
def Fld.addr (f : Fld) (i : Nat) : Nat := f.desc.base + spread f.desc.dims i

/-- The fields of the register that covers the word at offset `o`. -/
def fieldsAt (o : Nat) : List (Fld × Nat) := Fld.all.filterMap fun f => (f.at o).map fun i => (f, i)

/-- The log windows (R900). -/
def logWindow (o : Nat) : Bool := decide (0xF10000 ≤ o ∧ o < 0xF30000 ∨ 0xF40000 ≤ o ∧ o < 0xF50000)

/-- The tile whose register window holds offset `o`. -/
def tileWindow (o : Nat) : Option Nat := if 0x700000 ≤ o ∧ o < 0x800000 then some ((o - 0x700000) / 0x8000) else none

/-- The word lies in the window of a disabled tile (R4). -/
def Block.deadWindow (b : Block) (o : Nat) : Bool := match tileWindow o with | some t => decide (t ∉ b.enabledTiles) | none => false

/-- The partition whose window holds offset `o` (R196). -/
def windowPart (o : Nat) : Option Nat := if 0x100000 ≤ o ∧ o < 0x180000 then some ((o - 0x100000) / 0x10000) else none

-- Values that follow from other state -------------------------------------------------------------------------------------

/-- A partition is ACTIVE: one of its rings is not OFF, or one of its tasks is running (R222). -/
def Block.partActive (b : Block) (p : Nat) : Bool :=
  !b.ringsOff p ||
    ((List.range 16).any fun k => let q := SqRef.post (k / 4) (k % 4)
                                  b.sqPart q == p && b.sqState q != rOff) ||
    b.hop.jobs.any fun j => j.part == p && j.running != []

/-- Slot record `s` of the NVM die (R125): STATE, GENERATION, LENGTH. -/
def slotRecAt (s : Nat) : Nat := 0x07C00000 + 64 * s
def Block.slotState (b : Block) (s : Nat) : Nat := ofLe (b.readNvm (slotRecAt s) 4)
def Block.slotGen (b : Block) (s : Nat) : Nat := ofLe (b.readNvm (slotRecAt s + 4) 4)
def Block.slotLen (b : Block) (s : Nat) : Nat := ofLe (b.readNvm (slotRecAt s + 8) 8)
def slotEmpty : Nat := 0xFFFFFFFF
def slotWriting : Nat := 0xFFFF0000
def slotValid : Nat := 0

/-- SLOT_STATE's code of a slot. -/
def Block.slotCode (b : Block) (s : Nat) : Nat :=
  let st := b.slotState s
  if st = slotEmpty then 0 else if st = slotWriting then 1 else if st = slotValid then 2 else 3

/-- A frame reload is available (R179). -/
def Block.reloadOk (b : Block) : Bool :=
  match b.cfg.loadedSlot with
  | some s => b.on .CFG_STATUS_DONE && b.slotGen s == b.cfg.loadedGen
  | none => false

/-- The committed anti-rollback entry with the largest value (R151, R152): its number and value. -/
def Block.arbEntry (b : Block) : Option (Nat × Nat) :=
  (List.range 32).foldl (fun best j =>
    let v := ofLe (b.readNvm (0x07C01000 + 16 * j) 8)
    let c := ofLe (b.readNvm (0x07C01008 + 16 * j) 8)
    if v ^^^ c = 0x5A5A5A5A5A5A5A5A then
      match best with
      | some (_, w) => if w < v then some (j, v) else best
      | none => some (j, v)
    else best) none

/-- The anti-rollback counter. -/
def Block.arbValue (b : Block) : Nat := match b.arbEntry with | some (_, v) => v | none => 0

/-- The jobs of a partition. -/
def Block.partJobs (b : Block) (p : Nat) : List Job := b.hop.jobs.filter fun j => j.part == p

/-- Ready jobs of one priority, sixteen bits each (HOP_READY). -/
def Block.readyCount (b : Block) (p : Nat) : Nat :=
  (List.range 4).foldl (fun n k =>
    n + min 65535 ((b.partJobs p).filter fun j => j.readyPrio == some k).length * 2 ^ (16 * k)) 0

/-- The pawls of a partition. -/
def Block.partPawls (b : Block) (p : Nat) : List Pawl := (b.hop.pawls.filter fun e => b.pawlPart e.1 == some p).map (·.2)

/-- The pawl that PAWL_QUERY names. -/
def Block.queriedPawl (b : Block) (p : Nat) : Pawl :=
  let i := b.get .PAWL_QUERY_INDEX p
  if i < b.get .PART_HOP_PAWL_COUNT p then b.pawl (b.pawlNo p i) else Pawl.reset

/-- The run that RUN_QUERY names. -/
def Block.queriedRun (b : Block) (p : Nat) : Option Run := (b.runs p)[b.get .RUN_QUERY_RUN p]?

/-- The partition that holds a tile's group, with the tile enabled. -/
def Block.tileHolder (b : Block) (t : Nat) : Option Nat := (List.range 8).find? fun p => decide (t ∈ b.partTiles p)

/-- The COLLIDE bit of the register at an offset. -/
def Block.collided (b : Block) (o : Nat) : Nat := b2n (decide (o ∈ b.link.collide))

/-- The offset that a partition window's COLLIDE query names. -/
def Block.partQuery (b : Block) (p : Nat) : Nat := 0x100000 + p * 0x10000 + b.get .PART_COLLIDE_QUERY_OFFSET p * 4

/-- The clock-lock bits a CLK_LOCK field shows (R52). -/
def Block.clkBits (b : Block) (f : Fld) : Nat :=
  (List.range f.desc.width).foldl (fun n j => if b.clkLock (f.desc.lo + j) then setBit n j else n) 0

/-- PWR_STATUS.STATE (R121). -/
def Block.pwrState (b : Block) : Nat :=
  match b.pwr.furl with
  | .furled => 2
  | .a0 => if (b.die 0).a1 && (b.die 1).a1 then 1 else 0
  | _ => 3

/-- FAB_HOLD_AT (R530): H of the latest entry, or the resume count once every entry has resumed. -/
def Block.holdAt (b : Block) : Nat :=
  let hs := b.fab.holds
  if hs != [] && hs.all (fun h => h.resume.isSome) then hs.foldl (fun m h => max m (h.resume.getD 0)) 0
  else match hs.getLast? with | some h => h.hold | none => 0

/-- Two flags as a number, the first at bit 0. -/
def twoBits (x y : Bool) : Nat := b2n x + 2 * b2n y

/-- What a field reads as where that follows from other state. -/
def Block.derived (b : Block) (f : Fld) (i : Nat) : Option Nat :=
  match f with
  | .IDENT_GRADE => some b.grade
  | .CLK_LOCK_CORE_G0 | .CLK_LOCK_CORE_G1 | .CLK_LOCK_HUB | .CLK_LOCK_GMC | .CLK_LOCK_PCIE | .CLK_LOCK_MF | .CLK_LOCK_CFG
  | .CLK_LOCK_MS | .CLK_LOCK_FAB | .CLK_LOCK_ETH | .CLK_LOCK_TENT | .CLK_LOCK_AON => some (b.clkBits f)
  | .CORE_CLK_BUSY => some (b2n (b.die i).change.isSome)
  | .CORE_CLK_ACTUAL => some (b.actual i)
  | .DIE_RESET_BUSY => some (twoBits (b.die 0).recovering (b.die 1).recovering)
  | .RAIL_STATUS_GOOD => some (if b.pwr.mainUp then 0x7F else 0)
  | .RAIL_STATUS_VBAT_LOW => some (b2n (decide (b.pwr.vbatMv < 2100)))
  | .RAIL_MV2_VBAT => some b.pwr.vbatMv
  | .PWR_STATUS_STATE => some b.pwrState
  | .PWR_STATUS_DIE_A1 => some (twoBits (b.die 0).a1 (b.die 1).a1)
  | .AON_STATUS_AON_PEND => some (b2n b.pwr.crossing.isSome)
  | .ARB_VALUE_VALUE => some b.arbValue
  | .SLOT_CTRL_BUSY => some (b2n b.cfg.slotOp.isSome)
  | .SLOT_STATE_A => some (b.slotCode 0)
  | .SLOT_STATE_B => some (b.slotCode 1)
  | .SLOT_STATE_RELOAD_OK => some (b2n b.reloadOk)
  | .GEN_A_GEN => some (b.slotGen 0)
  | .GEN_B_GEN => some (b.slotGen 1)
  | .KR_CTRL_VALID => some (b2n b.pwr.keyRam.isSome)
  | .HOST_LINK_ATS_EN => some (bit1 b.link.ats 0)
  | .COLLIDE_BIT_COLLIDE => some (b.collided (b.get .COLLIDE_QUERY_OFFSET * 4))
  | .PART_COLLIDE_BIT_COLLIDE => some (b.collided (b.partQuery i))
  | .PART_STATUS_OWNER => some (b.get .PART_GRANT_OWNER i)
  | .PART_STATUS_ACTIVE => some (b2n (b.partActive i))
  | .PART_STATUS_VF_ENABLED => some (b2n (b.vfLive (i + 1)))
  | .DB_CTRL_SNOOPING => some (b2n (b.snooping i && b.link.lines.any fun e => e.1 == i))
  | .HOP_USE_JOBS => some b.jobsUsed
  | .HOP_USE_TAILRACE => some b.hop.tailrace.length
  | .HOP_PUSE_JOBS => some (b.partJobsUsed i)
  | .HOP_PUSE_TAILRACE => some (b.hop.tailrace.filter fun e => e.part == i).length
  | .HOP_READY_COUNT => some (b.readyCount i)
  | .CTX_KILL_CTX => some (b.killing i)
  | .HOP_WAITS_DELAYED => some ((b.partJobs i).filter fun j => match j.phase with | .delayed _ => true | _ => false).length
  | .HOP_WAITS_PAWL_WAITERS => some ((b.partPawls i).foldl (fun n x => n + x.waiters.length) 0)
  | .FLOW_STATE_HELD => some (b.hop.tailrace.filter fun e => e.part == i && e.flow == b.get .FLOW_QUERY_FLOW i).length
  | .FLOW_STATE_HEAD_RUNNING => some (match b.flowHead i (b.get .FLOW_QUERY_FLOW i) with | some e => b2n e.record.isNone | none => 0)
  | .PAWL_INFO_HELD => some (b2n (b.queriedPawl i).owner.isSome)
  | .PAWL_INFO_BROKEN => some (b2n (b.queriedPawl i).broken)
  | .PAWL_INFO_CTX => some ((b.queriedPawl i).owner.getD 0)
  | .PAWL_INFO_WAITERS => some (min 255 (b.queriedPawl i).waiters.length)
  | .PAWL_INFO_LEASE_LEFT => some (match (b.queriedPawl i).leaseDue with | some d => ceilDiv (d - b.gmc) b.tick | none => 0)
  | .PAWL_INFO_BREAK_CAUSE => some (b.queriedPawl i).cause
  | .TF_STATUS_TRAINED => some (bits b.cfg.selfTest 2 2)
  | .TF_FREE_G0 => some (if b.bit .TF_STATUS_TRAINED 0 0 then b.freeUnits 0 else 0)
  | .TF_FREE_G1 => some (if b.bit .TF_STATUS_TRAINED 0 1 then b.freeUnits 1 else 0)
  | .PRELOADED_UNITS => some (b.ms.preloaded.foldl (fun n e => n + ivSize e.2) 0)
  | .TS_FREE_UNITS => some b.freeS
  | .PL_F_USED_UNITS => some (b.usedUnits i 0)
  | .PL_S_USED_UNITS => some (b.usedUnits i 1)
  | .PL_SPILLED_UNITS => some ((b.runs i).foldl (fun n r => if r.prefF ∧ r.tier = 1 then n + r.count else n) 0)
  | .PL_RUNS_COUNT => some (b.runs i).length
  | .RUN_INFO_A_PUNIT => some (match b.queriedRun i with | some r => r.punit | none => 0)
  | .RUN_INFO_A_VALID => some (b2n (b.queriedRun i).isSome)
  | .RUN_INFO_A_PREF_F => some (match b.queriedRun i with | some r => b2n r.prefF | none => 0)
  | .RUN_INFO_A_COUNT => some (match b.queriedRun i with | some r => r.count | none => 0)
  | .RUN_INFO_B_TIER => some (match b.queriedRun i with | some r => r.tier | none => 0)
  | .RUN_INFO_B_FIRST => some (match b.queriedRun i with | some r => r.first | none => 0)
  | .RUN_INFO_B_WAYS_LOG2 => some (match b.queriedRun i with | some r => Nat.log2 r.ways | none => 0)
  | .RUN_INFO_B_PHYS_IDX => some (match b.queriedRun i with | some r => r.idx | none => 0)
  | .GOV_STATE_HOLD => some (b2n b.held)
  | .GOV_STATE_TRIPPED => some (twoBits (b.die 0).tripped (b.die 1).tripped)
  | .GOV_STATE_THROTTLE => some ((b.die 0).throttle + 16 * (b.die 1).throttle)
  | .REMAP_STATUS_ENTRIES => some b.remapUsed.length
  | .SL_EFF_RATE => some (b.sluice i).rate
  | .SL_EFF_NARROWED => some (b2n ((b.narrowTo (i % 10)).isSome && (b.sluice i).run))
  | .SL_LEVEL_BYTES => some (toW 32 (b.sluice i).level)
  | .FAB_EPOCH_EPOCH => some b.epoch
  | .FAB_HOLD_ORIGINS => some b.fab.holds.length
  | .FAB_HOLD_AT_COUNT => some b.holdAt
  | .GRP_CFG_RANK => some (b.myRank i)
  | .GRP_CFG_MEMBERS => some (b.members i).length
  | .GRP_CFG_NEXT_SEQ_LO => some (Tab.get b.fab.nextSeq i 0 % 2 ^ 16)
  | .GRP_DIGEST_CRC => some (b.digest i)
  | .GRP_NEXT_SEQ_SEQ => some (Tab.get b.fab.nextSeq i 0)
  | .GMC_COUNT_COUNT => some b.gmc
  | .GMC_SNAP_COUNT => some b.gmc
  | .MS_ENTRY_ENTRY => some (ofLe (b.readNvm (msBase + 64 * b.get .MS_QUERY_INDEX) 64))
  | .MS_USED_COUNT => some (nub ((b.cfg.nvm.filter fun c => decide (msBase ≤ c.1 ∧ c.1 < msBase + 64 * msSlots)).map fun c =>
      (c.1 - msBase) / 64)).length
  | .TILE_STATE_GRANTED => some (b2n (b.tileHolder i).isSome)
  | .TILE_STATE_PART => some ((b.tileHolder i).getD 0)
  | .TX_TS_TAG_TAG => some (match b.svc.stamps with | (t, _, _) :: _ => t | [] => 0)
  | .TX_TS_TAG_VALID => some (b2n (b.svc.stamps != []))
  | .TX_TS_PTP_STAMP => some (match b.svc.stamps with | (_, t, _) :: _ => t | [] => 0)
  | .TX_TS_GMC_STAMP => some (match b.svc.stamps with | (_, _, g) :: _ => g | [] => 0)
  | .MK_CTRL_BUSY => some (b2n (b.hop.absorbs.contains i))
  | .WORLD_USERS_CURRENT => some (b.worldUsers true i)
  | .WORLD_USERS_OLDER => some (b.worldUsers false i)
  | .TENT_STATUS_LOADED => some (b2n b.cfg.bitstream)
  | .TENT_STATUS_ISOLATED => some (b2n !b.pwr.released)
  | _ => none

/-- What a field reads as. WO and SC fields read as zero. -/
def Block.value (b : Block) (f : Fld) (i : Nat) : Nat :=
  match f.desc.acc with
  | .wo => 0
  | .sc => 0
  | _ => (b.derived f i).getD (b.get f i) % 2 ^ f.desc.width

-- Reads (R199 to R203, R211 to R214) ----------------------------------------------------------------------------------------

/-- The 32 bits of the log record that a window word falls in. -/
def Block.logWord (b : Block) (o : Nat) : Nat :=
  if o < 0xF30000 then fieldAt (Tab.get b.evt.slots ((o - 0xF10000) / 32) []) (o % 32) 4
  else fieldAt (Tab.get b.vio.slots ((o - 0xF40000) / 32) []) (o % 32) 4

/-- The word at an offset of the PF layout; reserved offsets and the windows of disabled tiles read as zero. -/
def Block.word (b : Block) (o : Nat) : Nat :=
  if logWindow o then b.logWord o
  else if b.deadWindow o then 0
  else
    (fieldsAt o).foldl (fun n e => n ||| (b.value e.1 e.2) <<< e.1.desc.lo >>> (8 * (o - e.1.addr e.2))) 0 % 2 ^ 32

/-- The offset in the PF layout of an offset a requester names (R196); none for a VF's beyond its window. -/
def reqOffset (who : Requester) (off : Nat) : Option Nat :=
  match who with
  | .vf m => if 1 ≤ m ∧ m ≤ 8 ∧ off < 0x10000 then some (0x100000 + (m - 1) * 0x10000 + off) else none
  | _ => some off

/-- The registers of a service-owned partition's window that its VF reads as zero: every one but PART_STATUS (R198). -/
def Block.vfBlind (b : Block) (who : Requester) (off : Nat) : Bool :=
  match who with
  | .vf m => b.get .PART_GRANT_OWNER (m - 1) == 2 && decide (4 ≤ off)
  | _ => false

/-- The requester's number in the key of a high-half shadow. -/
def reqKey : Requester → Nat
  | .pf => 0
  | .vf m => m
  | .mctp => 9
  | .miller c => 10 + c

/-- The register that covers an offset: its offset and its bytes. -/
def regAt (o : Nat) : Option (Nat × Nat) := ((fieldsAt o).head?).map fun e => (e.1.addr e.2, e.1.desc.size)

/-- The key of the shadow of the high half at an offset (R212). -/
def shadowKey (who : Requester) (o : Nat) : Nat := reqKey who * 2 ^ 24 + o

/-- A set-up read: its value, and the block with the shadow latched or the error bit set. AON_COUNT_LO and AON_COUNT_HI, two registers of
four bytes, follow the split-read rule as the halves of one (R121). -/
def Block.readSetup (b : Block) (who : Requester) (off size : Nat) : Nat × Block :=
  if !((size == 4 || size == 8) && off % size == 0) then (2 ^ (8 * size) - 1, b.set .GLOBAL_ERR_MMIO_SIZE 0 1)
  else match reqOffset who off with
    | none => (0, b)
    | some o =>
      if b.vfBlind who off then (0, b)
      else if size = 8 then (b.word o + b.word (o + 4) * 2 ^ 32, b)
      else match regAt o with
        | none => (b.word o, b)
        | some (a, n) =>
          if a = 0x30110 then
            (b.word o, { b with link := { b.link with shadows := Tab.put b.link.shadows (shadowKey who 0x30114) (b.word 0x30114) } })
          else if a = 0x30114 then (Tab.get b.link.shadows (shadowKey who o) 0, b)
          else if n ≤ 4 ∨ b.deadWindow o then (b.word o, b)
          else if a = 0x600000 then (0xFFFFFFFF, b.set .GLOBAL_ERR_SPLIT_GMC 0 1)
          else if (o - a) % 8 = 0 then
            (b.word o, { b with link := { b.link with shadows := Tab.put b.link.shadows (shadowKey who (o + 4)) (b.word (o + 4)) } })
          else (Tab.get b.link.shadows (shadowKey who o) 0, b)

/-- The function behind a requester is in D3hot (R182). PRESUMED, from PCI Express: it takes no memory request; a read of it answers all
ones at the host, and a write is lost. -/
def Block.inD3 (b : Block) : Requester → Bool
  | .pf => b.link.d3.testBit 0
  | .vf m => b.link.d3.testBit m
  | _ => false

/-- A set-up read answered to its requester. -/
def Block.readReg (b : Block) (who : Requester) (off size : Nat) : Block :=
  if b.inD3 who then b.send (.regRead who (2 ^ (8 * size) - 1))
  else
    let (v, b) := b.readSetup who off size
    b.send (.regRead who v)

/-- SPLIT_READ_LOW (R212): a 4-byte read of a low half. -/
def execSplitReadLow (who : Requester) (off : Nat) (s : State) := s.act (·.readReg who off 4)

/-- GMC_COUNT_SPLIT_READ (R217): a 4-byte read of GMC_COUNT. -/
def execGmcCountSplitRead (who : Requester) (s : State) := s.act (·.readReg who 0x600000 4)

/-- MISALIGNED_READ (R200): all ones and MMIO_SIZE. -/
def execMisalignedRead (who : Requester) (off size : Nat) (s : State) := s.act (·.readReg who off size)

end Sys2Proof.Machine
end

