-- ==== Sys2Proof/Machine/Miller.lean ====
section
/-! DEFINITION. The Miller cores as the package serves them, the Tenter fabric and the PTP clock (spec/17 R777 to R797, R819): the core's
address map and its faults, the memory window, message mailboxes, the watchdog and timer, user logic, and the PHC. The cores' own
instructions are RISC-V and lie outside the spec. -/

namespace Sys2Proof.Machine

-- The address map (R777, R778, R780) -------------------------------------------------------------------------------------

/-- Hub SRAM that core `c` may use: its private SRAM under both addresses, and the shared 3 MiB. -/
def coreSram (c a : Nat) : Bool :=
  decide (a < 0x80000 ∨ 0x10000000 + 0x80000 * c ≤ a ∧ a < 0x10000000 + 0x80000 * (c + 1) ∨ 0x10200000 ≤ a ∧ a < 0x10500000)

/-- Tenter block memory in the Miller view. -/
def coreTenter (a : Nat) : Bool := decide (0x30000000 ≤ a ∧ a < 0x30200000)

/-- One byte of the Miller view that core `c` may access: atomics reach hub SRAM and Tenter block memory only. -/
def coreMay (c a : Nat) (atomic : Bool) : Bool :=
  coreSram c a || coreTenter a ||
    (!atomic && decide (0x20000000 ≤ a ∧ a < 0x21000000 ∨ 0x31000000 ≤ a ∧ a < 0x31010000 ∨
      0x1000000000000000 ≤ a ∧ a < 0x2000000000000000))

/-- MILLER_ACCESS_FAULT (R778, R780): an access of `size` bytes outside the core's map. The STATUS and CAUSE that M_ERR takes are not
stated: they are free. -/
def Block.millerAccess (b : Block) (c a size : Nat) (atomic : Bool) : Block :=
  if 4 ≤ c ∨ (List.range (max 1 size)).all (fun i => coreMay c (a + i) atomic) then b
  else b.took.took.coreFault c a (b.freeVal 8) (b.took.freeVal 8)

def execMillerAccessFault (core addr size : Nat) (atomic : Bool) (s : State) := s.act (·.millerAccess core addr size atomic)

-- The memory window (R781) ---------------------------------------------------------------------------------------------------

/-- MEMORY_WINDOW_ACCESS (R781): a load of `size` bytes, or a store of `data`, at fabric address `a` on behalf of M_PART, which must be
service-owned; any status but DONE faults. -/
def Block.windowAccess (b : Block) (c a size : Nat) (store : Bool) (data : List Byte) : Block :=
  let p := b.get .M_PART_PART c
  let new (kind : AccKind) (reqs : List Req) (l : List Byte) : Access :=
    { id := 0, kind := kind, who := .core c, part := p, die := 2, crit := false, todo := reqs, elems := [a], data := l, bad := none }
  if 4 ≤ c then b
  else if b.get .PART_GRANT_OWNER p ≠ 2 then b.coreFault c (windowBase + a) stAddr 0xF7
  else if store then (b.addAccess (new .store (storeReqs a data.length) data)).serve
  else (b.addAccess (new (.load 0) (blockReqs a size) (zeros size))).serve

def execMemoryWindowAccess (core addr size : Nat) (store : Bool) (strikes : List Strike) (data : List Byte) (s : State) :=
  s.act fun b => (b.strike strikes).windowAccess core (addr % 2 ^ 60) size store data

-- Message mailboxes (R784 to R786) ---------------------------------------------------------------------------------------------

/-- SVC_MB_RING (R784): core `c` rings each target core. -/
def Block.mbRing (b : Block) (c mask : Nat) : Block :=
  (bitList mask 4).foldl (fun b t => (b.setB .M_MB_CORE_SRC t c).raiseLine t 1) b

def execSvcMbRing (core mask : Nat) (s : State) := s.act fun b => if core < 4 then b.mbRing core mask else b

/-- H2M_RING (R785): line 0 at each core named. -/
def Block.h2mRing (b : Block) (mask : Nat) : Block := (bitList mask 4).foldl (fun b c => b.raiseLine c 0) b

def execH2mRing (mask : Nat) (s : State) := s.act (·.h2mRing mask)

/-- A core's bit of M2H_PEND set and M2H_VECTOR sent on the PF (R785). -/
def Block.m2h (b : Block) (c : Nat) : Block := (b.setB .M2H_PEND_CORE 0 c).sendMsix 0 (b.get .M2H_VECTOR_VECTOR)

/-- M2H_RING (R785): core `c` rings the host. -/
def execM2hRing (core : Nat) (s : State) := s.act fun b => if core < 4 then b.m2h core else b

-- Watchdog and timer (R780, R819) ------------------------------------------------------------------------------------------------

/-- A write of M_WD_KICK, or of M_WD, starts the watchdog's interval anew. -/
def Block.kick (b : Block) (c : Nat) : Block := { b with svc := { b.svc with kicks := Tab.put b.svc.kicks c b.gmc } }

/-- WATCHDOG_EXPIRY (R819): M_WD × 1,024 counts without a kick; the interval then starts anew. -/
def Block.watchdog (b : Block) (c : Nat) : Block :=
  let limit := b.get .M_WD_LIMIT c
  if c < 4 ∧ limit ≠ 0 ∧ Tab.get b.svc.kicks c 0 + limit * 1024 ≤ b.gmc then
    (((b.set .M_STATUS_WD_FIRED c 1).event 0xA0 0x01).m2h c).kick c
  else b

def execWatchdogExpiry (core : Nat) (s : State) := s.act (·.watchdog core)

/-- MACHINE_TIMER_INTERRUPT (R780): the GMC is at or above a core's M_TIMECMP. -/
def execMachineTimerInterrupt (core : Nat) (s : State) := s.act fun b =>
  if core < 4 ∧ b.get .M_TIMECMP_COUNT core ≤ b.gmc then b.send (.coreTimer core) else b

-- The Tenter fabric (R789 to R793) -------------------------------------------------------------------------------------------------

/-- TENTER_ACCESS_TIMEOUT (R792): user logic has not answered a core's access for 1,024 ck_hub: a read returns all ones, a write is
dropped. -/
def execTenterAccessTimeout (core size : Nat) (write : Bool) (s : State) := s.act fun b =>
  let b := b.bump .TENT_TIMEOUTS_COUNT
  if write then b else b.send (.coreData core (List.replicate size 0xFF))

/-- User logic runs: a bitstream is loaded, the fabric has been released, and USER_RESET does not hold it. -/
def Block.userLogic (b : Block) : Bool := b.cfg.bitstream && b.pwr.released && b.svc.userHold == 0

/-- The GPIO and the differential pairs as user logic drives them, with values that only the opaque bitstream gives; nothing else drives
them (R789). -/
def Block.drivePins (b : Block) : Block :=
  if b.userLogic then ({ b with svc := { b.svc with userPins := some (b.freeVal 56) } }).took
  else { b with svc := { b.svc with userPins := none } }

/-- USER_RESET (R789, R793): user logic is held in reset for 16 cycles of each user clock, a time that its bitstream sets and a free value
stands for; meanwhile the pins are high-impedance or idle. Configuration and block memory stay. -/
def Block.userReset (b : Block) : Block :=
  let b := ({ b with svc := { b.svc with userHold := 1 + b.freeVal 12 } }).took
  ((b.set .TENT_CTRL_USER_RESET 0 1).drivePins).event 0xA0 0x03

def execUserReset (s : State) := s.act (·.userReset)

/-- One nanosecond of a USER_RESET: at its end user logic runs and drives its pins again. -/
def Block.userTick (b : Block) : Block :=
  match b.svc.userHold with
  | 0 => b
  | 1 => (({ b with svc := { b.svc with userHold := 0 } }).set .TENT_CTRL_USER_RESET 0 0).drivePins
  | n + 2 => { b with svc := { b.svc with userHold := n + 1 } }

/-- TENTER_USER_INTERRUPT (R783): a rising edge on user interrupt `n` sets line 16 + n at every core. -/
def execTenterUserInterrupt (n : Nat) (s : State) := s.act fun b => if n < 8 ∧ b.userLogic then b.raiseAll (16 + n) else b

/-- USER_PORT_WRITE (R791): a write of user logic to block memory; a hub write of the same cycle is applied first, and a core's read of
that cycle (its core, offset and bytes) returns the words as they stood before either. -/
def Block.userWrite (b : Block) (off : Nat) (data : List Byte) (hub : Option (Nat × List Byte)) (read : Option (Nat × Nat × Nat)) :
    Block :=
  let inside (o : Nat) (l : List Byte) : List Byte := l.take (0x200000 - o)
  let b := match read with
    | some (c, o, n) => b.send (.coreData c (b.readMem (tenterBase + o) n))
    | none => b
  let b := match hub with
    | some (o, l) => b.writeMem (tenterBase + o) (inside o l)
    | none => b
  if b.userLogic then b.writeMem (tenterBase + off) (inside off data) else b

def execUserPortWrite (off : Nat) (data : List Byte) (hub : Option (Nat × List Byte)) (s : State) (read : Option (Nat × Nat × Nat) := none) :=
  s.act (·.userWrite off data hub read)

-- The PHC (R796, R797, R801) -------------------------------------------------------------------------------------------------------

/-- The PHC in nanoseconds of PTP time. -/
def Block.ptp (b : Block) : Nat := b.svc.phc / 2 ^ 32

/-- PHC_STEP (R796): the signed value is added in one cycle. -/
def Block.phcStep (b : Block) (v : Nat) : Block :=
  { b with svc := { b.svc with phc := toW 96 ((b.svc.phc : Int) + sext 64 v * 2 ^ 32) } }

def execPhcStep (val : Nat) (s : State) := s.act (·.phcStep val)

/-- The PHC's advance in one ck_gmc: 1 + ADJ × 2^-32 ns, ADJ applied as at most ±2,147,483 (R796). -/
def Block.phcTick (b : Block) : Block :=
  let adj := min 2147483 (max (-2147483) (sext 32 (b.get .PHC_ADJ_ADJ)))
  { b with svc := { b.svc with phc := toW 96 ((b.svc.phc : Int) + 2 ^ 32 + adj) } }

/-- PHC_SNAP (R797): the GMC and the PHC of one cycle. -/
def Block.phcSnap (b : Block) : Block := (b.set .PHC_SNAP_GMC_COUNT 0 b.gmc).set .PHC_SNAP_PTP_COUNT 0 b.ptp

def execPhcSnap (s : State) := s.act (·.phcSnap)

/-- TX_TS_POP (R801): the head of the transmit stamp FIFO goes. -/
def Block.popStamp (b : Block) : Block := { b with svc := { b.svc with stamps := b.svc.stamps.drop 1 } }

def execTxTsPop (s : State) := s.act (·.popStamp)

-- Ethernet modes and links (R119, R783, R795) ------------------------------------------------------------------------------------------

/-- ETH_MODE written (R795, R880): a change is dropped while any port is enabled. -/
def Block.writeEthMode (b : Block) (m : Nat) : Block :=
  let m := m % 2
  if m = b.get .SVC_CTRL_ETH_MODE then b
  else if (List.range 4).any fun p => b.on .ETH_CFG_ENABLE p then b.set .SVC_CTRL_MODE_REFUSED 0 1
  else b.set .SVC_CTRL_ETH_MODE 0 m

def execEthModeWrite (mode : Nat) (s : State) := s.act (·.writeEthMode mode)

/-- The port exists in the chosen mode, is enabled, and its pins are enabled by the release edge (R149, R794). -/
def Block.ethLive (b : Block) (p : Nat) : Bool :=
  b.pwr.released && b.on .ETH_CFG_ENABLE p && decide (p < 4) && (b.get .SVC_CTRL_ETH_MODE == 0 || p == 0)

/-- The port's link is up. -/
def Block.ethUp (b : Block) (p : Nat) : Bool := b.ethLive p && b.on .ETH_STATUS_LINK p

/-- ETH_LINK_CHANGE (R783): a link comes up on a live port, or goes down: line 6 and event 0x02. -/
def Block.ethLink (b : Block) (p : Nat) (link fec : Bool) : Block :=
  if 4 ≤ p ∨ b.on .ETH_STATUS_LINK p = link ∨ (link && !b.ethLive p) then b
  else (((b.set .ETH_STATUS_LINK p (b2n link)).set .ETH_STATUS_FEC_LOCK p (b2n fec)).raiseAll 6).event 0xA0 0x02

def execEthLinkChange (port : Nat) (link fec : Bool) (s : State) := s.act (·.ethLink port link fec)

/-- ETH_PORT_RESET (R88, R119): the nine counters and the status of each port named return to reset; event 0x04. -/
def Block.ethPortReset (b : Block) (mask : Nat) : Block :=
  (bitList mask 4).foldl (fun b p =>
    let clear : List Fld := [.ETH_STATUS_LINK, .ETH_STATUS_FEC_LOCK, .LAST_DROP_REASON, .LAST_DROP_TYPE, .LAST_DROP_SEQ]
    let b := clear.foldl (fun b f => b.set f p 0) b
    let b := (List.range 9).foldl (fun b i => b.set .ETH_COUNT_COUNT (p * 9 + i) 0) b
    b.event 0x03 0x04) b

def execEthPortReset (mask : Nat) (s : State) := s.act (·.ethPortReset mask)

end Sys2Proof.Machine
end

