-- ==== Sys2Proof/Machine/Frames.lean ====
section
/-! DEFINITION. Ethernet frames (spec/17 R580, R794 to R809): the fields of a frame, the receive filter and the checks of service frames,
delivery to mailboxes and general queues with the Tally record, rejects, replayed frames, and the transmit queues with their stamps. A
frame is held without its FCS. -/

namespace Sys2Proof.Machine

-- Fields of a frame (IEEE 802.3, IPv4, IPv6, UDP; R7, R809) -----------------------------------------------------------------

/-- A big-endian number of `n` bytes at offset `o`. -/
def beAt (f : List Byte) (o n : Nat) : Nat := ofBe (slice f o n)

def frDst (f : List Byte) : List Byte := slice f 0 6
def frSrc (f : List Byte) : List Byte := slice f 6 6
/-- One IEEE 802.1Q tag. -/
def frVlan (f : List Byte) : Bool := beAt f 12 2 == 0x8100
/-- Offset of the network header. -/
def frNet (f : List Byte) : Nat := if frVlan f then 18 else 14
def frType (f : List Byte) : Nat := beAt f (frNet f - 2) 2
/-- The group bit of the destination, which broadcast has too. -/
def frGroup (f : List Byte) : Bool := (fieldAt f 0 1).testBit 0

/-- IPv4 without fragmentation, carrying UDP. -/
def frV4 (f : List Byte) : Bool :=
  let n := frNet f
  frType f == 0x0800 && beAt f n 1 / 16 == 4 && decide (5 ≤ beAt f n 1 % 16) && beAt f (n + 6) 2 % 0x4000 == 0 && beAt f (n + 9) 1 == 17

/-- IPv6 without extension header, carrying UDP. -/
def frV6 (f : List Byte) : Bool :=
  let n := frNet f
  frType f == 0x86DD && beAt f n 1 / 16 == 6 && beAt f (n + 6) 1 == 17

/-- Offset of the UDP header. -/
def frUdp (f : List Byte) : Nat := frNet f + (if frV6 f then 40 else beAt f (frNet f) 1 % 16 * 4)
def udpLen (f : List Byte) : Nat := beAt f (frUdp f + 4) 2
/-- Source and destination IP addresses. -/
def frIpSrc (f : List Byte) : List Byte := if frV6 f then slice f (frNet f + 8) 16 else slice f (frNet f + 12) 4
def frIpDst (f : List Byte) : List Byte := if frV6 f then slice f (frNet f + 24) 16 else slice f (frNet f + 16) 4

/-- A service frame: IPv4 or IPv6 with UDP to SVC_UDP, its UDP header inside the frame. -/
def isService (port : Nat) (f : List Byte) : Bool :=
  (frV4 f || frV6 f) && decide (frUdp f + 8 ≤ f.length) && beAt f (frUdp f + 2) 2 == port

/-- Offset of the service header, and its fields (R809). -/
def svcOff (f : List Byte) : Nat := frUdp f + 8
def svField (f : List Byte) (o n : Nat) : Nat := fieldAt f (svcOff f + o) n
def svType (f : List Byte) : Nat := svField f 0x05 1
def svPart (f : List Byte) : Nat := svField f 0x06 1 % 8
def svStream (f : List Byte) : Nat := svField f 0x08 4
def svSeq (f : List Byte) : Nat := svField f 0x0C 4
def svPartNo (f : List Byte) : Nat := svField f 0x10 2
def svParts (f : List Byte) : Nat := svField f 0x12 2
def svLen (f : List Byte) : Nat := svField f 0x14 4
def svSent (f : List Byte) : Nat := svField f 0x18 8
/-- The payload of a service frame. -/
def svBody (f : List Byte) : List Byte := slice f (svcOff f + 32) (svLen f)

/-- MAGIC, the bytes 4F 5A 53 56. -/
def svMagic : Nat := 0x56535A4F

/-- The ones' complement sum of a list of bytes in 16-bit big-endian words. -/
def onesSum : List Byte → Nat
  | [] => 0
  | [a] => a.toNat * 256
  | a :: c :: r => a.toNat * 256 + c.toNat + onesSum r

/-- A sum folded to 16 bits. -/
def foldSum (n : Nat) : Nat := let m := n % 65536 + n / 65536; m % 65536 + m / 65536

/-- The UDP pseudo-header of addresses and length. -/
def pseudo (src dst : List Byte) (len : Nat) : List Byte := src ++ dst ++ beBytes 4 len ++ [0, 0, 0, 17]

/-- The IPv4 header checksum, and the UDP checksum where one is required, are right (check 1 of R806). -/
def sumsOk (f : List Byte) : Bool :=
  let n := frNet f
  let u := slice f (frUdp f) (udpLen f)
  let udp := foldSum (onesSum (pseudo (frIpSrc f) (frIpDst f) (udpLen f) ++ u)) == 0xFFFF
  if frV6 f then beAt f (frUdp f + 6) 2 != 0 && udp
  else foldSum (onesSum (slice f n (beAt f n 1 % 16 * 4))) == 0xFFFF && (beAt f (frUdp f + 6) 2 == 0 || udp)

-- The receive queues (R802, R803) -------------------------------------------------------------------------------------------

/-- A queue register set: its fields and instance. -/
structure QRegs where
  base : Fld
  buf : Fld
  log2 : Fld
  slot : Fld
  core : Fld
  enable : Fld
  head : Fld
  tail : Fld
  i : Nat
  deriving DecidableEq, Repr

def svcQ (p : Nat) : QRegs :=
  { base := .SVCQ_BASE_ADDR, buf := .SVCQ_BUF_ADDR, log2 := .SVCQ_CFG_LOG2_ENTRIES, slot := .SVCQ_CFG_SLOT, core := .SVCQ_CFG_CORE,
    enable := .SVCQ_CFG_ENABLE, head := .SVCQ_HEAD_INDEX, tail := .SVCQ_TAIL_INDEX, i := p }

def genQ (port : Nat) : QRegs :=
  { base := .GENQ_BASE_ADDR, buf := .GENQ_BUF_ADDR, log2 := .GENQ_CFG_LOG2_ENTRIES, slot := .GENQ_CFG_SLOT, core := .GENQ_CFG_CORE,
    enable := .GENQ_CFG_ENABLE, head := .GENQ_HEAD_INDEX, tail := .GENQ_TAIL_INDEX, i := port }

def txQ (port : Nat) : QRegs :=
  { base := .TXQ_BASE_ADDR, buf := .TXQ_BUF_ADDR, log2 := .TXQ_CFG_LOG2_ENTRIES, slot := .TXQ_CFG_SLOT, core := .TXQ_CFG_CORE,
    enable := .TXQ_CFG_ENABLE, head := .TXQ_HEAD_INDEX, tail := .TXQ_TAIL_INDEX, i := port }

/-- Entries of a queue: 2^LOG2_ENTRIES, LOG2_ENTRIES taken as 4 to 10. -/
def Block.qSize (b : Block) (q : QRegs) : Nat := 2 ^ min 10 (max 4 (b.get q.log2 q.i))
def Block.qSlot (b : Block) (q : QRegs) : Nat := if b.on q.slot q.i then 10240 else 2048
def Block.qUsed (b : Block) (q : QRegs) : Nat := (b.get q.tail q.i + 2 ^ 16 - b.get q.head q.i) % 2 ^ 16
def Block.qFull (b : Block) (q : QRegs) : Bool := b.qUsed q == b.qSize q
def Block.qCore (b : Block) (q : QRegs) : Nat := b.get q.core q.i
/-- Miller-view addresses of entry `k` of `n` bytes and of slot `k`. -/
def Block.qEntry (b : Block) (q : QRegs) (n k : Nat) : Nat := b.get q.base q.i * 64 + n * (k % b.qSize q)
def Block.qBuf (b : Block) (q : QRegs) (k : Nat) : Nat := b.get q.buf q.i * 64 + b.qSlot q * (k % b.qSize q)

/-- A frame's slot and entry are written, then Q_TAIL moves (R803) and the routed core's line rises (R783). -/
def Block.enqueueFrame (b : Block) (q : QRegs) (line : Nat) (f entry : List Byte) : Block :=
  let k := b.get q.tail q.i
  let c := b.qCore q
  let b := (b.hubWrite c (b.qBuf q k) f).hubWrite c (b.qEntry q 32 k) entry
  (b.set q.tail q.i (k + 1)).raiseLine c line

/-- A receive entry (R802). -/
def rxEntry (arrival ptp : Nat) (f : List Byte) (off port : Nat) (replayed : Bool) (tally : Nat) : List Byte :=
  leBytes 8 arrival ++ leBytes 8 ptp ++ leBytes 2 f.length ++ leBytes 2 off ++
    [byteOf port, byteOf (b2n replayed + 2 * b2n (frVlan f) + 4 * b2n (frType f == 0x86DD)), 0, 0] ++ leBytes 4 tally ++ zeros 4

-- Sending (R794, R808) -----------------------------------------------------------------------------------------------------

/-- A port's counter `i` (R821). -/
def Block.ethCount (b : Block) (port i : Nat) : Block := b.bump .ETH_COUNT_COUNT (port * 9 + i)

def ecRx : Nat := 0
def ecFilter : Nat := 1
def ecErr : Nat := 2
def ecSvcIn : Nat := 3
def ecSvcDrop : Nat := 4
def ecRejSent : Nat := 5
def ecRejSup : Nat := 6
def ecTx : Nat := 7
def ecTsLost : Nat := 8

/-- A frame leaves a port whose link is up. -/
def Block.sendFrame (b : Block) (port : Nat) (f : List Byte) : Block :=
  if b.ethUp port then (b.send (.frame port f)).ethCount port ecTx else b

/-- The MAC address of a port: its first octet is the register's least significant byte. -/
def Block.mac (b : Block) (port : Nat) : List Byte := leBytes 6 (b.get .MAC_ADDR port)

/-- A service payload sent back to where a frame came from: its source MAC address, IP address and UDP port, from SVC_UDP. The header
fields that no rule gives (type of service, identification, time to live, traffic class, flow label) are free. -/
def Block.replyTo (b : Block) (port : Nat) (f payload : List Byte) : Block :=
  let (free, b) := b.freeBytes 4
  let len := payload.length + 8
  let ipS := frIpDst f
  let ipD := frIpSrc f
  let head := beBytes 2 (b.get .SVC_UDP_PORT) ++ slice f (frUdp f) 2 ++ beBytes 2 len
  let sum := 0xFFFF - foldSum (onesSum (pseudo ipS ipD len ++ head ++ [0, 0] ++ payload))
  let udp := head ++ beBytes 2 (if sum = 0 then 0xFFFF else sum) ++ payload
  let net := if frV6 f then
      beBytes 4 (6 * 2 ^ 28 + ofBe free % 2 ^ 28) ++ beBytes 2 len ++ [17, free.getD 0 0] ++ ipS ++ ipD
    else
      let h := [0x45, free.getD 0 0] ++ beBytes 2 (len + 20) ++ [free.getD 1 0, free.getD 2 0, 0, 0, free.getD 3 0, 17]
      h ++ beBytes 2 (0xFFFF - foldSum (onesSum (h ++ ipS ++ ipD))) ++ ipS ++ ipD
  let frame := frSrc f ++ b.mac port ++ slice f 12 (frNet f - 12) ++ net ++ udp
  b.sendFrame port (padTo (max 60 frame.length) frame)

/-- A service header (R809) with its payload. -/
def svcBytes (type part stream seq no parts sent : Nat) (body : List Byte) : List Byte :=
  leBytes 4 svMagic ++ [1, byteOf type, byteOf part, 0] ++ leBytes 4 stream ++ leBytes 4 seq ++ leBytes 2 no ++ leBytes 2 parts ++
    leBytes 4 body.length ++ leBytes 8 sent ++ body

/-- A REJECT frame for a dropped frame (R808, R810): STREAM 0, SEQ from the port's reject count. -/
def Block.sendReject (b : Block) (port : Nat) (f : List Byte) (reason : Nat) : Block :=
  let seq := Tab.get b.svc.rejSeq port 0
  let body := [byteOf reason, byteOf (svType f), 0, 0] ++ leBytes 4 (svStream f) ++ leBytes 4 (svSeq f) ++ leBytes 2 (svPartNo f) ++ [0, 0]
  let b := { b with svc := { b.svc with rejSeq := Tab.put b.svc.rejSeq port ((seq + 1) % 2 ^ 32) } }
  (b.replyTo port f (svcBytes 0x0F (svPart f) 0 seq 0 1 b.ptp body)).ethCount port ecRejSent

-- Receiving (R794, R806 to R808) ----------------------------------------------------------------------------------------------

def csBadMagic : Nat := 0xE8
def csBadVersion : Nat := 0xE9
def csBadType : Nat := 0xEA
def csBadLength : Nat := 0xEB
def csBadHeader : Nat := 0xEC
def csNoService : Nat := 0xED
def csQueueFull : Nat := 0xEE
def csTooLong : Nat := 0xEF
def csBadSum : Nat := 0xF6

/-- The first check of R806 that a service frame fails. -/
def Block.frameFault (b : Block) (f : List Byte) : Option Nat :=
  let q := svcQ (svPart f)
  if !sumsOk f then some csBadSum
  else if svField f 0 4 ≠ svMagic then some csBadMagic
  else if svField f 4 1 ≠ 1 then some csBadVersion
  else if svType f ∉ [0x01, 0x02, 0x04, 0x06] then some csBadType
  else if svLen f + 40 ≠ udpLen f ∨ f.length < frUdp f + udpLen f then some csBadLength
  else if 8 ≤ svField f 6 1 ∨ svField f 7 1 ≠ 0 ∨ svParts f = 0 ∨ 4096 < svParts f ∨ svParts f ≤ svPartNo f then some csBadHeader
  else if b.get .PART_GRANT_OWNER q.i ≠ 2 ∨ b.on q.enable q.i = false then some csNoService
  else if b.qSlot q < f.length then some csTooLong
  else if b.qFull q then some csQueueFull
  else none

/-- A service frame dropped (R806 to R808): SVC_DROP, LAST_DROP, at most one violation record of the port and reason in 2^20 counts, and
a REJECT unless an exception or the rate limit holds it back. -/
def Block.dropFrame (b : Block) (port : Nat) (f : List Byte) (reason : Nat) : Block :=
  let now := b.gmc / 2 ^ 20
  let b := (((b.ethCount port ecSvcDrop).set .LAST_DROP_REASON port reason).set .LAST_DROP_TYPE port (svType f)).set .LAST_DROP_SEQ port
    (svSeq f)
  let key := port * 256 + reason
  let b := if Tab.find b.svc.seen key = some now then b
    else
      let b := { b with svc := { b.svc with seen := Tab.put b.svc.seen key now } }
      b.violate 0xA0 reason 0xFF (0x20 + port) 0 3
        ([byteOf (svType f), 0, 0, 0] ++ leBytes 4 (svStream f) ++ leBytes 4 (svSeq f) ++ leBytes 2 (svPartNo f))
  if !b.on .ETH_CFG_REJECT_EN port || reason == csBadSum || frGroup f || svType f == 0x0F then b
  else
    let (at_, n) := Tab.get b.svc.rejects port (now, 0)
    let n := if at_ = now then n else 0
    if b.get .ETH_CFG_REJ_PER_MS port ≤ n then b.ethCount port ecRejSup
    else
      let b := { b with svc := { b.svc with rejects := Tab.put b.svc.rejects port (now, n + 1) } }
      b.sendReject port f reason

/-- A service frame that has passed R806 is recorded by Tally (R575) and delivered to its frame mailbox. -/
def Block.deliverGo (b : Block) (port : Nat) (f : List Byte) (arrival : Nat) (replayed : Bool) : Block :=
  let p := svPart f
  let seq := b.get .TALLY_SEQ_SEQ p
  let b := if b.tallyOn p then
      b.tallyPut p { arrival := arrival, cond := b.condWord, kind := 2, source := 0x20 + port, ring := 0, form := 1, body := f }
    else b
  let kept := b.tallyOn p && b.get .TALLY_SEQ_SEQ p != seq && (Tab.find b.hop.tallyLost p).isNone
  (b.enqueueFrame (svcQ p) 2 f (rxEntry arrival b.ptp f (svcOff f) port replayed (if kept then seq else 0xFFFFFFFF))).ethCount port ecSvcIn

/-- Delivery of a service frame: it waits while the memory of its Tally record cannot serve it, in the order of arrival (R102, R421). -/
def Block.deliver (b : Block) (port : Nat) (f : List Byte) (arrival : Nat) (replayed : Bool) : Block :=
  let p := svPart f
  let hold (b : Block) : Block :=
    { b with svc := { b.svc with heldFrames := b.svc.heldFrames ++ [{ part := p, port := port, bytes := f, arrival := arrival, replayed := replayed }] } }
  if b.svc.heldFrames.any fun x => x.part == p then hold b
  else match b.attempt (frameAgent p) fun b => ((), b.deliverGo port f arrival replayed) with
    | (some _, b) => b
    | (none, b) => hold b

/-- A service frame, live or replayed, checked and delivered or dropped. -/
def Block.takeService (b : Block) (port : Nat) (f : List Byte) (arrival : Nat) (replayed : Bool) : Block :=
  match b.frameFault f with
  | some r => b.dropFrame port f r
  | none => b.deliver port f arrival replayed

/-- A frame for the general queue of its port; one that finds the queue disabled or full, or does not fit a slot, is dropped and counted
as an error. -/
def Block.takeGeneral (b : Block) (port : Nat) (f : List Byte) : Block :=
  let q := genQ port
  if !b.on q.enable port || b.qFull q || decide (b.qSlot q < f.length) then b.ethCount port ecErr
  else b.enqueueFrame q 3 f (rxEntry b.gmc b.ptp f 0 port false 0xFFFFFFFF)

/-- The receive filter: the port's MAC address, broadcast, or one of the multicast entries; MAC control frames do not pass (R794). -/
def Block.filterPass (b : Block) (port : Nat) (f : List Byte) : Bool :=
  let d := ofLe (frDst f)
  frType f != 0x8808 &&
    (d == b.get .MAC_ADDR port || d == 2 ^ 48 - 1 ||
      (List.range 8).any fun e => b.on .MCAST_VALID (port * 8 + e) && d == b.get .MCAST_ADDR (port * 8 + e))

/-- FRAME_RECEIVE (R794, R798, R799, R806): a frame, without its FCS, arrives at a port whose link is up. `good` is false when its FCS or
coding is in error. In replay a live service frame is discarded and counted (R580). -/
def Block.receive (b : Block) (port : Nat) (f : List Byte) (good : Bool) : Block :=
  if !b.ethUp port then b
  else if !good || decide (f.length < 60 ∨ 9212 < f.length) then b.ethCount port ecErr
  else if !b.filterPass port f then b.ethCount port ecFilter
  else
    let b := b.ethCount port ecRx
    if !isService (b.get .SVC_UDP_PORT) f then b.takeGeneral port f
    else if svField f 0 4 = svMagic ∧ b.replayOn (svPart f) ∧ b.get .PART_GRANT_OWNER (svPart f) = 2 then
      b.bump .REPLAY_DROPPED_COUNT (svPart f)
    else b.takeService port f b.gmc false

def execFrameReceive (port : Nat) (frame : List Byte) (good : Bool) (s : State) := s.act (·.receive port frame good)

/-- The next FRAME record of a partition's replay, once the memory that holds it can be read. -/
def Block.nextFrame (b : Block) (p : Nat) : Option (Option ReplayRec) × Block :=
  b.attempt (frameAgent p) (·.peek (·.replayFind p (fun r => r.kind == 2) (b.replayFuel p) (b.get .REPLAY_POS_OFFSET p) 0))

/-- REPLAY_FRAME_DELIVERY (R580, R804): the next FRAME record from REPLAY_POS on, once its count has come, is delivered as if it had
arrived on its port. -/
def Block.replayFrame (b : Block) (p : Nat) : Block :=
  if !b.replayOn p then b
  else match b.nextFrame p with
    | (none, b) => b
    | (some none, b) => b
    | (some (some r), b) =>
      let due := (r.arrival + b.get .REPLAY_OFFSET_COUNTS p) % 2 ^ 64
      if b.gmc < due then b
      else (b.set .REPLAY_POS_OFFSET p (r.off + r.size)).takeService (r.source - 0x20) r.body due true

def execReplayFrameDelivery (part : Nat) (s : State) := s.act (·.replayFrame part)

-- Transmitting (R800, R801, R805) --------------------------------------------------------------------------------------------------

/-- Bytes of a list replaced from an offset. -/
def overwrite (l : List Byte) (o : Nat) (x : List Byte) : List Byte := l.take o ++ x ++ l.drop (o + x.length)

/-- The PTP header at `o` carries a Sync message. -/
def ptpSync (f : List Byte) (o : Nat) : Bool := fieldAt f o 1 % 16 == 0

/-- originTimestamp of a one-step Sync: the egress time in seconds and nanoseconds, big-endian; with UDP_CSUM the UDP checksum anew
(R800). -/
def oneStep (f : List Byte) (o ns : Nat) (csum : Bool) : List Byte :=
  let f := overwrite f (o + 34) (beBytes 6 (ns / 1000000000) ++ beBytes 4 (ns % 1000000000))
  if !csum then f
  else
    let u := overwrite (slice f (o - 8) (beAt f (o - 4) 2)) 6 [0, 0]
    let sum := 0xFFFF - foldSum (onesSum (pseudo (frIpSrc f) (frIpDst f) u.length ++ u))
    overwrite f (o - 2) (beBytes 2 (if sum = 0 then 0xFFFF else sum))

/-- A transmit stamp enters the FIFO with line 5, or is lost (R801). -/
def Block.pushStamp (b : Block) (port tag : Nat) : Block :=
  if 64 ≤ b.svc.stamps.length then b.ethCount port ecTsLost
  else ({ b with svc := { b.svc with stamps := b.svc.stamps ++ [(tag, b.ptp, b.gmc)] } }).raiseAll 5

/-- FRAME_TRANSMIT (R800, R801, R805): the entry at Q_HEAD is sent, stamped as flagged, and Q_HEAD moves. An entry whose LENGTH no frame
has (R794) is passed over. -/
def Block.transmit (b : Block) (port : Nat) : Block :=
  let q := txQ port
  if !b.ethUp port || !b.on q.enable port || b.qUsed q == 0 then b
  else
    let k := b.get q.head port
    let c := b.qCore q
    let (e, b) := b.hubRead c (b.qEntry q 16 k) 16
    let n := fieldAt e 4 2
    if n < 60 ∨ 9212 < n then b.set q.head port (k + 1)
    else
      let (f, b) := b.hubRead c (fieldAt e 0 4) n
      let flags := fieldAt e 6 1
      let o := fieldAt e 7 1
      let one := flags.testBit 1 && ptpSync f o
      let b := b.sendFrame port (if one then oneStep f o b.ptp (flags.testBit 2) else f)
      let b := if flags.testBit 0 || (flags.testBit 1 && !one) then b.pushStamp port (fieldAt e 8 4) else b
      b.set q.head port (k + 1)

def execFrameTransmit (port : Nat) (s : State) := s.act (·.transmit port)

end Sys2Proof.Machine
end

