-- ==== Sys2Proof/Machine/Aes.lean ====
section
/-! DEFINITION. AES-256 in Galois/Counter mode (FIPS 197, NIST SP 800-38D), as the image's body is encrypted (spec/04): 96-bit IV, 128-bit
tag. -/

namespace Sys2Proof.Machine

/-- The S-box of FIPS 197. -/
def aesSbox : List Nat :=
  [0x63, 0x7C, 0x77, 0x7B, 0xF2, 0x6B, 0x6F, 0xC5, 0x30, 0x01, 0x67, 0x2B, 0xFE, 0xD7, 0xAB, 0x76] ++
  [0xCA, 0x82, 0xC9, 0x7D, 0xFA, 0x59, 0x47, 0xF0, 0xAD, 0xD4, 0xA2, 0xAF, 0x9C, 0xA4, 0x72, 0xC0] ++
  [0xB7, 0xFD, 0x93, 0x26, 0x36, 0x3F, 0xF7, 0xCC, 0x34, 0xA5, 0xE5, 0xF1, 0x71, 0xD8, 0x31, 0x15] ++
  [0x04, 0xC7, 0x23, 0xC3, 0x18, 0x96, 0x05, 0x9A, 0x07, 0x12, 0x80, 0xE2, 0xEB, 0x27, 0xB2, 0x75] ++
  [0x09, 0x83, 0x2C, 0x1A, 0x1B, 0x6E, 0x5A, 0xA0, 0x52, 0x3B, 0xD6, 0xB3, 0x29, 0xE3, 0x2F, 0x84] ++
  [0x53, 0xD1, 0x00, 0xED, 0x20, 0xFC, 0xB1, 0x5B, 0x6A, 0xCB, 0xBE, 0x39, 0x4A, 0x4C, 0x58, 0xCF] ++
  [0xD0, 0xEF, 0xAA, 0xFB, 0x43, 0x4D, 0x33, 0x85, 0x45, 0xF9, 0x02, 0x7F, 0x50, 0x3C, 0x9F, 0xA8] ++
  [0x51, 0xA3, 0x40, 0x8F, 0x92, 0x9D, 0x38, 0xF5, 0xBC, 0xB6, 0xDA, 0x21, 0x10, 0xFF, 0xF3, 0xD2] ++
  [0xCD, 0x0C, 0x13, 0xEC, 0x5F, 0x97, 0x44, 0x17, 0xC4, 0xA7, 0x7E, 0x3D, 0x64, 0x5D, 0x19, 0x73] ++
  [0x60, 0x81, 0x4F, 0xDC, 0x22, 0x2A, 0x90, 0x88, 0x46, 0xEE, 0xB8, 0x14, 0xDE, 0x5E, 0x0B, 0xDB] ++
  [0xE0, 0x32, 0x3A, 0x0A, 0x49, 0x06, 0x24, 0x5C, 0xC2, 0xD3, 0xAC, 0x62, 0x91, 0x95, 0xE4, 0x79] ++
  [0xE7, 0xC8, 0x37, 0x6D, 0x8D, 0xD5, 0x4E, 0xA9, 0x6C, 0x56, 0xF4, 0xEA, 0x65, 0x7A, 0xAE, 0x08] ++
  [0xBA, 0x78, 0x25, 0x2E, 0x1C, 0xA6, 0xB4, 0xC6, 0xE8, 0xDD, 0x74, 0x1F, 0x4B, 0xBD, 0x8B, 0x8A] ++
  [0x70, 0x3E, 0xB5, 0x66, 0x48, 0x03, 0xF6, 0x0E, 0x61, 0x35, 0x57, 0xB9, 0x86, 0xC1, 0x1D, 0x9E] ++
  [0xE1, 0xF8, 0x98, 0x11, 0x69, 0xD9, 0x8E, 0x94, 0x9B, 0x1E, 0x87, 0xE9, 0xCE, 0x55, 0x28, 0xDF] ++
  [0x8C, 0xA1, 0x89, 0x0D, 0xBF, 0xE6, 0x42, 0x68, 0x41, 0x99, 0x2D, 0x0F, 0xB0, 0x54, 0xBB, 0x16]

def aesSub (x : Nat) : Nat := aesSbox.getD x 0

/-- Multiplication by x in GF(2^8). -/
def aesXtime (a : Nat) : Nat := if a < 128 then 2 * a else (2 * a) ^^^ 0x11B

def xorL (a b : List Nat) : List Nat := List.zipWith (· ^^^ ·) a b

/-- The round constant of key word 8i. -/
def aesRcon (i : Nat) : Nat := 2 ^ (i - 1)

/-- Key word i from the words before it, newest first. -/
def aesNextWord (i : Nat) (ws : List (List Nat)) : List Nat :=
  let prev := ws.headD []
  let t :=
    if i % 8 = 0 then xorL ((prev.tail ++ prev.take 1).map aesSub) [aesRcon (i / 8), 0, 0, 0]
    else if i % 8 = 4 then prev.map aesSub
    else prev
  xorL (ws.getD 7 []) t

/-- The 60 key words of a 32-byte key. -/
def aesWords (key : List Nat) : List (List Nat) :=
  let first := (List.range 8).map fun i => (key.drop (4 * i)).take 4
  ((List.range 52).foldl (fun ws i => aesNextWord (8 + i) ws :: ws) first.reverse).reverse

/-- The sixteen bytes of round key r. -/
def aesRoundKey (ws : List (List Nat)) (r : Nat) : List Nat := ((ws.drop (4 * r)).take 4).flatten

/-- ShiftRows, bytes in column order. -/
def aesShift (s : List Nat) : List Nat := (List.range 16).map fun i => s.getD ((i + 4 * (i % 4)) % 16) 0

/-- MixColumns of one column. -/
def aesMix (a b c d : Nat) : List Nat :=
  let m3 (x : Nat) : Nat := aesXtime x ^^^ x
  [aesXtime a ^^^ m3 b ^^^ c ^^^ d, a ^^^ aesXtime b ^^^ m3 c ^^^ d, a ^^^ b ^^^ aesXtime c ^^^ m3 d, m3 a ^^^ b ^^^ c ^^^ aesXtime d]

def aesMixAll (s : List Nat) : List Nat :=
  (List.range 4).flatMap fun c => aesMix (s.getD (4 * c) 0) (s.getD (4 * c + 1) 0) (s.getD (4 * c + 2) 0) (s.getD (4 * c + 3) 0)

/-- One block encrypted under expanded key words. -/
def aesBlock (ws : List (List Nat)) (b : List Nat) : List Nat :=
  let s := xorL b (aesRoundKey ws 0)
  let s := (List.range 13).foldl (fun s r => xorL (aesMixAll (aesShift (s.map aesSub))) (aesRoundKey ws (r + 1))) s
  xorL (aesShift (s.map aesSub)) (aesRoundKey ws 14)

/-- Multiplication in GF(2^128) of GCM: bit 127 of a number is the first bit of its block. -/
def gcmMul (x y : Nat) : Nat :=
  ((List.range 128).foldl (fun (p : Nat × Nat) i =>
    (if x.testBit (127 - i) then p.1 ^^^ p.2 else p.1,
      if p.2 % 2 = 1 then (p.2 >>> 1) ^^^ (0xE1 <<< 120) else p.2 >>> 1)) (0, y)).1

/-- A list in pieces of sixteen, the last one filled with zeros. -/
def gcmBlocks (l : List Byte) : List Nat := (List.range (ceilDiv l.length 16)).map fun i => ofBe (slice l (16 * i) 16)

/-- The counter block of body block j: IV, then j + 2 as a big-endian word. -/
def gcmCounter (iv : List Byte) (j : Nat) : List Nat := (iv ++ beBytes 4 (j + 2)).map (·.toNat)

def natBytes (l : List Byte) : List Nat := l.map (·.toNat)

/-- Bytes from block `j` of the body on, encrypted or decrypted. -/
def aesCtr (key iv : List Byte) (j : Nat) (l : List Byte) : List Byte :=
  let ws := aesWords (natBytes key)
  ((List.range (ceilDiv l.length 16)).flatMap fun i =>
    List.zipWith (fun (a : Byte) (k : Nat) => a ^^^ byteOf k) (slice l (16 * i) 16) (aesBlock ws (gcmCounter iv (j + i)))).take l.length

/-- The tag of additional data and ciphertext. -/
def gcmTag (key iv aad cipher : List Byte) : List Byte :=
  let ws := aesWords (natBytes key)
  let toByte (l : List Nat) : List Byte := l.map byteOf
  let h := ofBe (toByte (aesBlock ws (List.replicate 16 0)))
  let lens := ofBe (beBytes 8 (8 * aad.length) ++ beBytes 8 (8 * cipher.length))
  let s := (gcmBlocks aad ++ gcmBlocks cipher ++ [lens]).foldl (fun y x => gcmMul (y ^^^ x) h) 0
  let e := toByte (aesBlock ws ((iv ++ beBytes 4 1).map (·.toNat)))
  List.zipWith (· ^^^ ·) (beBytes 16 s) e

end Sys2Proof.Machine
end

