-- ==== Sys2Proof/Machine/ImageCheck.lean ====
section
/-! DEFINITION. The Puaranu image and its checks (spec/04 R127 to R140): the header, the section table, the section contents. Every check
answers the cause code of R138, or nothing when it passes. -/

namespace Sys2Proof.Machine

-- Header fields (R127) ----------------------------------------------------------------------------------------------------

def imMagic (h : List Byte) : Nat := fieldAt h 0x00 4
def imFormat (h : List Byte) : Nat := fieldAt h 0x04 2
def imSections (h : List Byte) : Nat := fieldAt h 0x06 2
def imLen (h : List Byte) : Nat := fieldAt h 0x08 8
def imPart (h : List Byte) : Nat := fieldAt h 0x10 4
def imSteppings (h : List Byte) : Nat := fieldAt h 0x14 4
def imGrades (h : List Byte) : Nat := fieldAt h 0x18 1
def imFlags (h : List Byte) : Nat := fieldAt h 0x19 1
def imKeyId (h : List Byte) : Nat := fieldAt h 0x1A 1
def imSerial (h : List Byte) : Nat := fieldAt h 0x20 8
def imVersion (h : List Byte) : Nat := fieldAt h 0x28 8
def imBuild (h : List Byte) : Nat := fieldAt h 0x30 8
def imIv (h : List Byte) : List Byte := slice h 0x38 12
def imSerialBound (h : List Byte) : Bool := (imFlags h).testBit 0
def imAutoAdvance (h : List Byte) : Bool := (imFlags h).testBit 1

/-- BODY_OFFSET (R128). -/
def imBody (h : List Byte) : Nat := ceilDiv (0x100 + 32 * imSections h) 64 * 64

/-- Bytes all zero. -/
def allZero (l : List Byte) : Bool := l.all (· == 0)

/-- Step 2 of R138. DEDUCED: an IMAGE_LEN that leaves no room for header, table and tag is a fault of the header. -/
def headerOk (h : List Byte) : Bool :=
  decide (imMagic h = 0x52415550 ∧ imFormat h = 1 ∧ 1 ≤ imSections h ∧ imSections h ≤ 64 ∧ imLen h ≤ Config.slotBytes ∧ imLen h % 64 = 16 ∧
    imBody h + 16 ≤ imLen h ∧ imSteppings h ≠ 0 ∧ imGrades h ≠ 0 ∧ imGrades h < 4 ∧ imFlags h < 4) &&
    (imSerialBound h || imSerial h == 0) && allZero (slice h 0x1B 5) && allZero (slice h 0x44 188)

-- The section table (R128 to R134) ---------------------------------------------------------------------------------------------

/-- Entry `i` of the section table. -/
def sectionAt (l : List Byte) (i : Nat) : Section :=
  let e := 0x100 + 32 * i
  { type := fieldAt l e 1, ignorable := (fieldAt l (e + 1) 1).testBit 0, offset := fieldAt l (e + 8) 8, length := fieldAt l (e + 16) 8,
    dest := fieldAt l (e + 24) 8 }

/-- The reserved parts of entry `i` are zero. -/
def entryClean (l : List Byte) (i : Nat) : Bool :=
  let e := 0x100 + 32 * i
  decide (fieldAt l (e + 1) 1 < 2) && allZero (slice l (e + 2) 6)

/-- The section table of an image. -/
def sectionsOf (l : List Byte) : List Section := (List.range (imSections l)).map (sectionAt l)

/-- Sections lie in the body in table order without overlap, each on a multiple of 64 and before the tag (R128, R129). -/
def inOrder (stop : Nat) : Nat → List Section → Bool
  | _, [] => true
  | at_, x :: r => decide (at_ ≤ x.offset ∧ x.offset % 64 = 0 ∧ 1 ≤ x.length ∧ x.offset + x.length ≤ stop) &&
      inOrder stop (x.offset + x.length) r

/-- LENGTH and DEST of a section of each type (R131); an unlisted type must be IGNORABLE (R132). A DATA section lies in tier F, or in a
tier S range (R134). -/
def sectionOk (x : Section) : Bool :=
  match x.type with
  | 0x01 => x.length % 16 == 0 && decide (x.length ≤ 0x10000) && x.dest == 0
  | 0x02 => true
  | 0x03 => x.length == 32 && x.dest == 0
  | 0x04 => decide (x.length ≤ 0xC00000) && x.dest == 0
  | 0x05 => x.dest == 0
  | 0x06 => x.length % 64 == 0 && x.dest % 64 == 0 &&
      (decide (x.dest + x.length ≤ 0xC00000000) || decide (0x10000000000 ≤ x.dest ∧ x.dest < 0x20000000000))
  | 0x07 => x.dest == 0
  | _ => x.ignorable

/-- How many sections of a type an image has. -/
def countType (ss : List Section) (t : Nat) : Nat := (ss.filter fun x => x.type == t).length

/-- Step 8 of R138. -/
def tableOk (l : List Byte) : Bool :=
  let ss := sectionsOf l
  (List.range (imSections l)).all (entryClean l) && inOrder (imLen l - 16) (imBody l) ss && ss.all sectionOk &&
    decide (countType ss 0x01 ≤ 4 ∧ countType ss 0x02 ≤ 8 ∧ countType ss 0x03 ≤ 1 ∧ countType ss 0x04 ≤ 1 ∧
      countType ss 0x05 = countType ss 0x04 ∧ countType ss 0x06 ≤ 32)

-- Steps 3 to 8 ------------------------------------------------------------------------------------------------------------------

/-- The image key (R139, R140): the fuse key, or what the key RAM holds. -/
def Block.imageKey (b : Block) : Option (List Byte) := if b.on .CFG_STATUS_KEY_SRC then b.pwr.keyRam else some b.cfg.fuseKey

/-- Steps 2 to 7 of R138 on the header of an image, in their order. DESIGN CHOICE: a KEY_ID above 1, which R127 does not list, matches
neither key source and fails step 7. -/
def Block.checkHead (b : Block) (l : List Byte) : Option Nat :=
  if !headerOk l then some 0x01
  else if imPart l ≠ 0x4400 then some 0x02
  else if !(imSteppings l).testBit (b.get .IDENT_STEPPING) then some 0x03
  else if !(imGrades l).testBit b.grade then some 0x04
  else if imSerialBound l && imSerial l != b.get .SERIAL_SERIAL then some 0x05
  else if imVersion l < b.arbValue then some 0x06
  else if imKeyId l ≠ b.get .CFG_STATUS_KEY_SRC then some 0x07
  else if b.imageKey.isNone then some 0x08
  else none

/-- Steps 2 to 8 of R138 on the plaintext of an image, in their order. -/
def Block.checkPlain (b : Block) (l : List Byte) : Option Nat :=
  match b.checkHead l with
  | some c => some c
  | none => if tableOk l then none else some 0x09

-- Steps 9 and 10 ------------------------------------------------------------------------------------------------------------------

/-- The body of an image: from BODY_OFFSET to the tag. -/
def imageBody (l : List Byte) : List Byte := slice l (imBody l) (imLen l - 16 - imBody l)

/-- Step 9 of R138: the GCM tag over header, table and body. -/
def tagOk (key l : List Byte) : Bool :=
  gcmTag key (imIv l) (l.take (imBody l)) (imageBody l) == slice l (imLen l - 16) 16

/-- The decrypted body of an image. -/
def imagePlain (key l : List Byte) : List Byte := aesCtr key (imIv l) 0 (imageBody l)

/-- The contents of a section within a decrypted body that starts at `body`. -/
def sectionBytes (plain : List Byte) (body : Nat) (x : Section) : List Byte := slice plain (x.offset - body) x.length

/-- The set-up blocks a SETTINGS record may target (R136). -/
def settingsBlock (o : Nat) : Bool :=
  decide (0x20000 ≤ o ∧ o < 0x20200 ∨ 0x100000 ≤ o ∧ o < 0x180000 ∨ 0x300000 ≤ o ∧ o < 0x400000 ∨ 0x400000 ≤ o ∧ o < 0x480000 ∨
    0x480000 ≤ o ∧ o < 0x500000 ∨ 0x500000 ≤ o ∧ o < 0x600000 ∨ 0x600000 ≤ o ∧ o < 0x700000 ∨ 0x800000 ≤ o ∧ o < 0x900000 ∨
    0xA00000 ≤ o ∧ o < 0xB00000)

/-- The bits of the word at an offset that lie in RW fields. -/
def rwMask (o : Nat) : Nat :=
  (fieldsAt o).foldl (fun m e =>
    if e.1.desc.acc = .rw then m ||| (((2 ^ e.1.desc.width - 1) <<< e.1.desc.lo) >>> (8 * (o - e.1.addr e.2))) % 2 ^ 32 else m) 0

/-- A SETTINGS record that step 10 accepts (R136): an aligned offset of a permitted block, a mask over RW fields, reserved bytes zero. -/
def settingOk (r : List Byte) : Bool :=
  let o := fieldAt r 0 4
  o % 4 == 0 && settingsBlock o && clearBits (fieldAt r 4 4) (rwMask o) == 0 && fieldAt r 12 4 == 0

/-- The records of a SETTINGS section. -/
def settingsOf (l : List Byte) : List (List Byte) := (List.range (l.length / 16)).map fun i => slice l (16 * i) 16

/-- Frame `i`'s record in an ESSENTIAL_MAP. -/
def mapRecord (m : List Byte) (i : Nat) : List Byte := slice m (0x10 + 16 * i) 16

/-- Frames of the Tenter configuration memory. -/
def tenterFrames : Nat := 81920

/-- A frame record: MASK_INDEX below MASK_COUNT, whatever its class, and reserved bytes zero (R137, R130). DESIGN CHOICE: a CLASS above 2,
for which no rule has an encoding, fails too. -/
def mapRecordOk (masks : Nat) (r : List Byte) : Bool :=
  decide (fieldAt r 0 1 ≤ 2 ∧ fieldAt r 1 3 < masks) && fieldAt r 12 4 == 0

/-- The first `n` frame records from the start of a list pass. -/
def mapRecordsOk (masks : Nat) : Nat → List Byte → Bool
  | 0, _ => true
  | n + 1, l => mapRecordOk masks (padTo 16 l) && mapRecordsOk masks n (l.drop 16)

/-- An ESSENTIAL_MAP that step 10 accepts (R137). -/
def mapOk (m : List Byte) : Bool :=
  let masks := fieldAt m 4 4
  fieldAt m 0 4 == tenterFrames && m.length == 0x140010 + 128 * masks && fieldAt m 8 8 == 0 &&
    mapRecordsOk masks tenterFrames (m.drop 0x10)

/-- A MILLER_CODE destination inside hub SRAM (R131, spec/17). -/
def codeOkAt (x : Section) : Bool := decide (0x10000000 ≤ x.dest ∧ x.dest + x.length ≤ 0x10500000)

/-- Step 10 of R138 for one section; `chain` for an image from the chain input (R133). -/
def contentOk (chain : Bool) (plain : List Byte) (body : Nat) (x : Section) : Bool :=
  match x.type with
  | 0x01 => (settingsOf (sectionBytes plain body x)).all settingOk
  | 0x02 => codeOkAt x
  | 0x05 => mapOk (sectionBytes plain body x)
  | 0x06 => !chain
  | _ => true

/-- Steps 9 and 10 of R138. -/
def checkBody (key : List Byte) (chain : Bool) (l : List Byte) : Option Nat :=
  if !tagOk key l then some 0x0A
  else if !(sectionsOf l).all (contentOk chain (imagePlain key l) (imBody l)) then some 0x09
  else none

-- Slots (R126) ----------------------------------------------------------------------------------------------------------------------

/-- The first byte of a slot in the NVM die. -/
def slotBase (s : Nat) : Nat := s * Config.slotBytes

/-- The header and section table of the image in a slot. -/
def Block.slotHead (b : Block) (s : Nat) : List Byte := b.readNvm (slotBase s) 0x900

/-- The whole image in a slot. -/
def Block.slotImage (b : Block) (s : Nat) : List Byte := b.readNvm (slotBase s) (imLen (b.slotHead s))

/-- Steps 1 to 8 of R138 on a slot. -/
def Block.checkSlot (b : Block) (s : Nat) : Option Nat := if b.slotState s ≠ slotValid then some 0x0B else b.checkPlain (b.slotHead s)

/-- Steps 1 to 10 of R138 on a slot, as OP VERIFY runs them (R173): the RESULT code. -/
def Block.verifySlot (b : Block) (s : Nat) : Nat :=
  match b.checkSlot s with
  | some c => c
  | none => (checkBody (b.imageKey.getD []) false (b.slotImage s)).getD 0

end Sys2Proof.Machine
end

