-- ==== Sys2Proof/Machine/Nvm.lean ====
section
/-! DEFINITION. The NVM die in use (spec/04 R146, R151 to R155, R172 to R180; spec/05 R229 to R232): the anti-rollback counter, slot
operations and sessions, and the configuration scrubber. -/

namespace Sys2Proof.Machine

-- Sources ---------------------------------------------------------------------------------------------------------------

/-- The sources of a sequence, in order (R123): 0 slot A, 1 slot B, 2 chain input. -/
def Block.sources (b : Block) : List Nat :=
  match b.get .CFG_STATUS_CFG_SRC with
  | 1 => [2]
  | 2 => [0, 1, 2]
  | _ => [0, 1]

/-- Source number `k` of the running sequence. -/
def Block.source (b : Block) (k : Nat) : Nat := b.sources.getD k 0

/-- The source of the attempt that runs. -/
def Block.attemptSource (b : Block) : Option Nat :=
  match b.cfg.phase with
  | .attempt k => some (b.source k)
  | .body k => some (b.source k)
  | .tagged k => some (b.source k)
  | _ => none

-- The anti-rollback counter (R151 to R155) -----------------------------------------------------------------------------------

/-- A new value is written to the entry after the one in force: erase, VALUE, COMMIT; event 0x03 (R153). -/
def Block.arbWrite (b : Block) (v : Nat) : Block :=
  let j := match b.arbEntry with | some (j, _) => (j + 1) % 32 | none => 0
  let old := b.arbValue
  let a := 0x07C01000 + 16 * j
  let b := ((b.eraseNvm a 16).programNvm a (leBytes 8 v)).programNvm (a + 8) (leBytes 8 (v ^^^ 0x5A5A5A5A5A5A5A5A))
  b.event 0x01 0x03 (leBytes 8 old ++ leBytes 8 v)

/-- ARB_SET_GO (R155): a value above the counter and not above the loaded version is written, any other refused. -/
def Block.arbSet (b : Block) : Block :=
  let v := b.get .ARB_SET_VALUE
  if b.arbValue < v ∧ v ≤ b.get .LOADED_VERSION_VERSION then b.arbWrite v else b.set .ARB_CTRL_ARB_REFUSED 0 1

def execArbSetGo (s : State) := s.act (·.arbSet)

-- Slot records (R125) --------------------------------------------------------------------------------------------------------

/-- A slot record written anew. -/
def Block.writeSlotRec (b : Block) (s state gen len : Nat) : Block :=
  (b.eraseNvm (slotRecAt s) 64).programNvm (slotRecAt s) (leBytes 4 state ++ leBytes 4 gen ++ leBytes 8 len)

/-- Only the STATE of a slot record changes. -/
def Block.setSlotState (b : Block) (s state : Nat) : Block := b.writeSlotRec s state (b.slotGen s) (b.slotLen s)

/-- A slot erased, its record left in a STATE. -/
def Block.clearSlot (b : Block) (s state : Nat) : Block := (b.setSlotState s state).eraseNvm (slotBase s) Config.slotBytes

/-- LENGTH and GENERATION are written and STATE becomes valid (R172, R230). -/
def Block.sealSlot (b : Block) (s len : Nat) : Block := b.writeSlotRec s slotValid ((b.slotGen s + 1) % 2 ^ 32) len

/-- Another slot operation or session runs (R175, R232). -/
def Block.slotBusy (b : Block) : Bool := b.cfg.slotOp.isSome || b.cfg.session.isSome

/-- A running attempt reads the slot, so that writes to it are refused (R146). -/
def Block.slotInUse (b : Block) (s : Nat) : Bool := b.attemptSource == some s

-- Slot operations by SLOT_CTRL (R172 to R175) -----------------------------------------------------------------------------------

/-- GO is refused (R175): an operation or session runs, OP is none of 1 to 3, SLOT_LEN is above a slot, or a running attempt reads the
slot that is to be written. -/
def Block.slotRefused (b : Block) (op slot : Nat) : Bool :=
  b.slotBusy || decide (op = 0 ∨ 3 < op ∨ Config.slotBytes < b.get .SLOT_LEN_LEN) || (op != 3 && b.slotInUse slot)

/-- The next read of the image by PF DMA is sent or held for its translation: at most 4,096 bytes, to the end of a page (R182). A read that
cannot be sent fails (R881, R882). -/
def Block.slotRead (b : Block) (o : SlotOp) : Option Block :=
  let a := b.get .SLOT_SRC_ADDR + o.done
  if b.get .HOST_LINK_RATE = 0 then none else some (b.askRead .slot 0 a (min (4096 - a % 4096) (o.len - o.done)))

def Block.setSlotOp (b : Block) (o : SlotOp) : Block := { b with cfg := { b.cfg with slotOp := some o } }

/-- The image read of a PROGRAM has failed: the operation ends with a code that no rule states. -/
def Block.slotReadFail (b : Block) (o : SlotOp) : Block := (b.setSlotOp { o with reading := false, result := max 1 (b.freeVal 8) }).took

/-- The image of a PROGRAM is read on, or its last byte has been programmed. -/
def Block.slotNext (b : Block) (o : SlotOp) : Block :=
  if o.len ≤ o.done then b.setSlotOp { o with reading := false }
  else ((b.setSlotOp o).slotRead o).getD (b.slotReadFail o)

/-- An image read of a PROGRAM has ended: its bytes are programmed and the next read follows. -/
def Block.slotData (b : Block) (data : Option (List Byte)) : Block :=
  match b.cfg.slotOp with
  | none => b
  | some o =>
    if !o.reading then b
    else match data with
      | some l =>
        let a := b.get .SLOT_SRC_ADDR + o.done
        let n := min (4096 - a % 4096) (o.len - o.done)
        (b.programNvm (slotBase o.slot + o.done) (slice l 0 n)).slotNext { o with done := o.done + n }
      | none => b.slotReadFail o

/-- SLOT_CTRL.GO: the operation starts, or the request is refused with SLOT_BADREQ. -/
def Block.slotGo (b : Block) (op slot : Nat) : Block :=
  if b.slotRefused op slot then b.set .SLOT_CTRL_SLOT_BADREQ 0 1
  else
    let o : SlotOp := { op := op, slot := slot, result := 0, len := 0, done := 0, reading := false }
    if op = 1 then (b.clearSlot slot slotWriting).slotNext { o with len := b.get .SLOT_LEN_LEN, reading := true }
    else if op = 2 then (b.clearSlot slot slotEmpty).setSlotOp o
    else b.setSlotOp { o with result := b.verifySlot slot }

/-- SLOT and OP are written with GO. -/
def Block.slotCtrl (b : Block) (op slot : Nat) : Block :=
  let slot := slot % 2
  ((b.set .SLOT_CTRL_SLOT 0 slot).set .SLOT_CTRL_OP 0 op).slotGo op slot

/-- The reads of an image return one after the other, as far as they need no translation. -/
def Block.slotFeed (image : List Byte) : Nat → Block → Block
  | 0, b => b
  | n + 1, b =>
    match b.cfg.slotOp, b.readDone .slot with
    | some o, some (_, b) => Block.slotFeed image n (b.slotData (some (image.drop o.done)))
    | _, _ => b

/-- SLOT_PROGRAM (R172): GO with OP PROGRAM; `image` is what the reads of SLOT_LEN bytes at SLOT_SRC return. -/
def Block.slotProgram (b : Block) (slot : Nat) (image : List Byte) : Block :=
  let idle := !b.cfg.slotOp.isSome
  let b := b.slotCtrl 1 slot
  if idle then Block.slotFeed image (b.get .SLOT_LEN_LEN / 4096 + 2) b else b

def execSlotProgram (slot : Nat) (image : List Byte) (s : State) := s.act (·.slotProgram slot image)

/-- SLOT_CTRL_ERASE (R173): GO with OP ERASE. -/
def execSlotCtrlErase (slot : Nat) (s : State) := s.act (·.slotCtrl 2 slot)

/-- SLOT_CTRL_VERIFY (R173): GO with OP VERIFY. -/
def execSlotCtrlVerify (slot : Nat) (s : State) := s.act (·.slotCtrl 3 slot)

/-- SLOT_OP_DONE (R172 to R174): the operation ends: a programmed slot becomes valid, BUSY clears, RESULT and event 0x04 report it. -/
def Block.slotOpDone (b : Block) : Block :=
  match b.cfg.slotOp with
  | none => b
  | some o =>
    if o.reading then b
    else
      let b := if o.op = 1 ∧ o.result = 0 then b.sealSlot o.slot o.len else b
      let b := { b with cfg := { b.cfg with slotOp := none } }
      (b.set .SLOT_CTRL_RESULT 0 o.result).event 0x01 0x04 [byteOf o.slot, byteOf o.op, byteOf o.result]

def execSlotOpDone (s : State) := s.act (·.slotOpDone)

-- Slot sessions over MCTP (R229 to R232): the STATUS of R227 and the block ------------------------------------------------------------

def mOk : Nat := 0
def mBusy : Nat := 1
def mBadCommand : Nat := 2
def mBadArgument : Nat := 3
def mDenied : Nat := 4
def mOutOfOrder : Nat := 5

/-- A slot request over MCTP is refused: another operation or session runs, or the slot is being read and is to be written (R175). -/
def Block.mctpSlotRefusal (b : Block) (slot : Nat) (writes : Bool) : Option (Nat × Block) :=
  if 1 < slot then some (mBadArgument, b)
  else if b.slotBusy then some (mBusy, b.set .SLOT_CTRL_SLOT_BADREQ 0 1)
  else if writes && b.slotInUse slot then some (mDenied, b.set .SLOT_CTRL_SLOT_BADREQ 0 1)
  else none

/-- SLOT_BEGIN (R229). -/
def Block.sessionBegin (b : Block) (slot len : Nat) : Nat × Block :=
  if Config.slotBytes < len then (mBadArgument, b)
  else match b.mctpSlotRefusal slot true with
    | some r => r
    | none =>
      let b := b.clearSlot slot slotWriting
      let x : SlotSession := { slot := slot, length := len, next := 0, since := b.pwr.now }
      (mOk, { b with cfg := { b.cfg with session := some x } })

/-- A SLOT_WRITE has been received, whatever its answer: the 60 s of the session start over (R231). -/
def Block.sessionHeard (b : Block) : Block :=
  { b with cfg := { b.cfg with session := b.cfg.session.map fun x => { x with since := b.pwr.now } } }

/-- The answer to a SLOT_WRITE (R229): offsets run contiguously from 0. -/
def Block.sessionPut (b : Block) (off : Nat) (data : List Byte) : Nat × Block :=
  if data = [] ∨ 1024 < data.length then (mBadArgument, b)
  else match b.cfg.session with
    | none => (mOutOfOrder, b)
    | some x =>
      if off ≠ x.next then (mOutOfOrder, b)
      else if x.length < off + data.length then (mBadArgument, b)
      else if b.slotInUse x.slot then (mDenied, b.set .SLOT_CTRL_SLOT_BADREQ 0 1)
      else
        let b := b.programNvm (slotBase x.slot + off) data
        (mOk, { b with cfg := { b.cfg with session := some { x with next := off + data.length } } })

/-- SLOT_WRITE (R229, R231). -/
def Block.sessionWrite (b : Block) (off : Nat) (data : List Byte) : Nat × Block := b.sessionHeard.sessionPut off data

/-- SLOT_COMMIT (R230). -/
def Block.sessionCommit (b : Block) : Nat × Block :=
  match b.cfg.session with
  | none => (mOutOfOrder, b)
  | some x =>
    if x.next < x.length then (mOutOfOrder, b)
    else
      let b := b.sealSlot x.slot x.length
      (mOk, ({ b with cfg := { b.cfg with session := none } }).event 0x01 0x04 [byteOf x.slot, 1, 0])

/-- SLOT_ERASE over MCTP: the slot is erased and left empty. -/
def Block.sessionErase (b : Block) (slot : Nat) : Nat × Block :=
  match b.mctpSlotRefusal slot true with
  | some r => r
  | none => (mOk, (b.clearSlot slot slotEmpty).event 0x01 0x04 [byteOf slot, 2, 0])

/-- SLOT_VERIFY over MCTP: the status, the RESULT code and the block. -/
def Block.sessionVerify (b : Block) (slot : Nat) : Nat × Nat × Block :=
  match b.mctpSlotRefusal slot false with
  | some (st, b) => (st, 0, b)
  | none => (mOk, b.verifySlot slot, b.event 0x01 0x04 [byteOf slot, 3, byteOf (b.verifySlot slot)])

/-- SLOT_SESSION_TIMEOUT (R231): 60 s without a SLOT_WRITE end the session; the slot stays in state writing. -/
def Block.sessionExpire (b : Block) : Block :=
  match b.cfg.session with
  | none => b
  | some x => if x.since + 60000000000 ≤ b.pwr.now then { b with cfg := { b.cfg with session := none } } else b

def execSlotSessionTimeout (s : State) := s.act (·.sessionExpire)

-- The configuration scrubber (R176 to R180) --------------------------------------------------------------------------------------------

/-- The 128 bytes of a Tenter configuration frame. -/
def Block.frame (b : Block) (i : Nat) : List Byte := Tab.get b.cfg.frames i (zeros 128)

/-- A frame written; all-zero frames are not listed. -/
def Block.setFrame (b : Block) (i : Nat) (l : List Byte) : Block :=
  { b with cfg := { b.cfg with frames := if allZero l then Tab.del b.cfg.frames i else Tab.put b.cfg.frames i l } }

/-- CLASS of a frame in the loaded ESSENTIAL_MAP. -/
def Block.frameClass (b : Block) (i : Nat) : Nat := fieldAt (mapRecord b.cfg.emap i) 0 1

/-- Configuration bit `n` of a frame is essential: by its class, or by its mask when the class is 2. -/
def Block.essentialBit (b : Block) (i n : Nat) : Bool :=
  let r := mapRecord b.cfg.emap i
  match fieldAt r 0 1 with
  | 0 => false
  | 1 => true
  | _ => ((slice b.cfg.emap (0x140010 + 128 * fieldAt r 1 3 + n / 8) 1).headD 0).toNat.testBit (n % 8)

/-- The frame's bytes as the source slot holds them, decrypted, when their CRC agrees (R178). -/
def Block.reloadFrame (b : Block) (i : Nat) : Option (List Byte) :=
  let r := mapRecord b.cfg.emap i
  let src := fieldAt r 4 4
  let l :=
    if src = 0xFFFFFFFF then zeros 128
    else
      let o := b.cfg.loadedBits - b.cfg.loadedBody + src
      let cipher := b.readNvm (slotBase (b.cfg.loadedSlot.getD 0) + b.cfg.loadedBody + o / 16 * 16) 144
      slice (aesCtr (b.imageKey.getD []) b.cfg.loadedIv (o / 16) cipher) (o % 16) 128
  if crc32 l = fieldAt r 8 4 then some l else none

/-- A frame with some bits of one of its words flipped; check bits, 64 and up, lie outside the frame. -/
def flipBits (l : List Byte) (word : Nat) (flips : List Nat) : List Byte :=
  (flips.filter (· < 64)).foldl (fun l n => l.set (word * 8 + n / 8) (l.getD (word * 8 + n / 8) 0 ^^^ byteOf (2 ^ (n % 8)))) l

/-- The bit that a word's check bits locate: the flipped one of a single flip, none of two; for three or more the code is not stated, so
whether they locate a bit, and which of the 72, is free. -/
def Block.locateFlip (b : Block) (flips : List Nat) : Option Nat × Block :=
  match flips with
  | [n] => (some n, b)
  | [_, _] => (none, b)
  | _ => (if b.freeVal 1 = 1 then some (b.took.freeVal 7 % 72) else none, b.took.took)

/-- The number of a word of a frame. -/
def wordKey (frame word : Nat) : Nat := frame * 16 + word

/-- The bits of a word that are wrong (R177). -/
def Block.upsetAt (b : Block) (key : Nat) : List Nat := Tab.get b.cfg.upsets key []

def Block.setUpset (b : Block) (key : Nat) (l : List Nat) : Block :=
  { b with cfg := { b.cfg with upsets := if l = [] then Tab.del b.cfg.upsets key else Tab.put b.cfg.upsets key l } }

/-- Flips strike a word: two flips of one bit undo each other, and check bits, 64 and up, lie outside the frame. -/
def Block.strikeWord (b : Block) (u : Upset) : Block :=
  if tenterFrames ≤ u.frame ∨ 16 ≤ u.word then b
  else
    let key := wordKey u.frame u.word
    let old := b.upsetAt key
    let new := nub u.flips
    (b.setFrame u.frame (flipBits (b.frame u.frame) u.word new)).setUpset key
      (sortBy (fun x y => decide (x ≤ y)) (old.filter (· ∉ new) ++ new.filter (· ∉ old)))

/-- A frame written anew, its check bits with it (R178). -/
def Block.rewriteFrame (b : Block) (i : Nat) (l : List Byte) : Block :=
  let b := b.setFrame i l
  { b with cfg := { b.cfg with upsets := b.cfg.upsets.filter fun e => e.1 / 16 != i } }

/-- An essential upset was recovered: SCRUB_ESS, SCRUB_LAST and event 0x05. -/
def Block.scrubEssential (b : Block) (frame word : Nat) : Block :=
  let b := ((b.bump .SCRUB_ESS_COUNT).set .SCRUB_LAST_FRAME 0 frame).set .SCRUB_LAST_UNREC 0 0
  (b.event 0x01 0x05 (leBytes 4 frame ++ [byteOf word])).raiseAll 9

/-- An upset was left in place: SCRUB_UNREC, SCRUB_LAST and event 0x07. -/
def Block.scrubLeft (b : Block) (frame : Nat) : Block :=
  let b := ((b.bump .SCRUB_UNREC_COUNT).set .SCRUB_LAST_FRAME 0 frame).set .SCRUB_LAST_UNREC 0 1
  (b.event 0x01 0x07 (leBytes 4 frame ++ [byteOf (b.frameClass frame)])).raiseAll 9

/-- A frame is reloaded and `count` records it; a reload whose CRC disagrees leaves it (R178). -/
def Block.scrubReload (b : Block) (frame : Nat) (count : Block → Block) : Block :=
  match b.reloadFrame frame with
  | some l => count (b.rewriteFrame frame l)
  | none => b.scrubLeft frame

/-- One word read by the scrubber and treated as R177 says. After a correction in place its check bits agree with it. A word that was
rewritten with its frame in this pass is sound. -/
def Block.scrubWord (b : Block) (key : Nat) : Block :=
  let flips := b.upsetAt key
  let frame := key / 16
  let word := key % 16
  if flips = [] then b
  else
    let r := b.locateFlip flips
    let b := r.2
    let canReload := b.on .SCRUB_CTRL_RELOAD_EN && b.reloadOk
    match r.1 with
    | some n =>
      let fixed := (b.setFrame frame (flipBits (b.frame frame) word [n])).setUpset key []
      if !(decide (n < 64) && b.essentialBit frame (word * 64 + n)) then fixed.bump .SCRUB_CORR_COUNT
      else if canReload then b.scrubReload frame (·.scrubEssential frame word)
      else fixed.scrubEssential frame word
    | none =>
      if canReload then
        b.scrubReload frame fun b => if b.frameClass frame = 0 then b.bump .SCRUB_CORR_COUNT else b.scrubEssential frame word
      else b.scrubLeft frame

/-- SCRUB_PASS (R176, R177): with EN set and a bitstream loaded, every frame is read once and each upset in it treated, in frame order: those
that have struck since the last pass, and those it left in place. -/
def Block.scrubPass (b : Block) (upsets : List Upset) : Block :=
  let b := upsets.foldl (fun b u => b.strikeWord u) b
  if b.on .SCRUB_CTRL_EN && b.cfg.bitstream && b.pwr.released then
    ((sortBy (fun x y => decide (x ≤ y)) (b.cfg.upsets.map (·.1))).foldl (fun b k => (b.scrubWord k).logsRest) b).bump .SCRUB_CYCLES_COUNT
  else b

def execScrubPass (upsets : List Upset) (s : State) := s.act (·.scrubPass upsets)

end Sys2Proof.Machine
end

