-- ==== Sys2Proof/Machine/Service.lean ====
section
/-! DEFINITION. The planning and ageing services (spec/17 R811 to R816): the telemetry record, what the services take from the frame
mailboxes and answer, and the revocation of plans by a repair CHECK. What a service decides (a plan, a score, the descriptors it posts)
is an operand; what the rules fix of its answers is computed here. -/

namespace Sys2Proof.Machine

/-- A temperature of the telemetry record: 0x8000 while its die is off (R227, R233). -/
def Block.tempShown (b : Block) (f : Fld) : Nat :=
  if (f = .GOV_TEMP1_G0 && b.dieOff 0) || (f = .GOV_TEMP1_G1 && b.dieOff 1) then 0x8000 else b.value f 0

/-- The telemetry record (spec/05): the GMC count, five temperatures, the Governor's states of stack 0, stack 1 and the package, the power
state, package power and CFG_STATUS. -/
def Block.telemetry (b : Block) : List Byte :=
  let st (i : Nat) : Nat := bits (b.get .GOV_STATE_STATES) (2 * i) 2
  let sensors : List Fld := [.GOV_TEMP1_G0, .GOV_TEMP1_G1, .GOV_TEMP2_HUB, .GOV_TEMP0_STACK0, .GOV_TEMP0_STACK1]
  leBytes 8 (if b.pwr.released then b.gmc else 0) ++ sensors.flatMap (fun f => leBytes 2 (b.tempShown f)) ++
    [byteOf (st 0 + 4 * st 1 + 16 * st 5), byteOf b.pwrState] ++ leBytes 4 (b.value .GOV_POWER_MW 0) ++
    leBytes 4 (b.word 0x10000) ++ zeros 4

-- Mailboxes as the services read them -------------------------------------------------------------------------------------

/-- The oldest frame of partition p's mailbox: its entry's arrival count and port, and its bytes. -/
def Block.mailHead (b : Block) (p : Nat) : Option (Nat × Nat × List Byte) :=
  let q := svcQ p
  if b.get .PART_GRANT_OWNER p ≠ 2 ∨ b.on q.enable q.i = false ∨ b.qUsed q = 0 then none
  else
    let k := b.get q.head q.i
    let c := b.qCore q
    let e := (b.hubRead c (b.qEntry q 32 k) 32).1
    some (fieldAt e 0 8, fieldAt e 0x14 1, (b.hubRead c (b.qBuf q k) (fieldAt e 0x10 2)).1)

/-- The service has taken the oldest frame. -/
def Block.mailTake (b : Block) (p : Nat) : Block := b.bump (svcQ p).head p

/-- The service REJECT reasons (R810). -/
def rjStale : Nat := 0x01
def rjIncomplete : Nat := 0x02
def rjPayload : Nat := 0x03
def rjBusy : Nat := 0x04

/-- SEQ is newer than the last of its STREAM, as serial numbers of 32 bits compare. -/
def Block.newer (b : Block) (p : Nat) (f : List Byte) : Bool :=
  match b.svc.seqs.find? fun x => x.part == p && x.src == frIpSrc f && x.stream == svStream f with
  | none => true
  | some x => let d := (svSeq f + 2 ^ 32 - x.seq) % 2 ^ 32
              decide (1 ≤ d ∧ d < 2 ^ 31)

/-- A message's SEQ becomes the last of its STREAM. -/
def Block.noteSeq (b : Block) (p : Nat) (f : List Byte) : Block :=
  let x : StreamSeq := { part := p, src := frIpSrc f, stream := svStream f, seq := svSeq f }
  let rest := b.svc.seqs.filter fun y => !(y.part == p && y.src == x.src && y.stream == x.stream)
  { b with svc := { b.svc with seqs := rest ++ [x] } }

/-- The frame belongs to the message with this source, STREAM and SEQ. -/
def ofMessage (f : List Byte) (src : List Byte) (stream seq : Nat) : Bool :=
  src == frIpSrc f && stream == svStream f && seq == svSeq f

-- Posting (R787, R788) ---------------------------------------------------------------------------------------------------------

/-- A service core stores descriptors at the tail of a post ring and rings its doorbell; none when the ring is not ACTIVE for the
partition or has no room. -/
def Block.post (b : Block) (p c r : Nat) (descs : List (List Byte)) : Option Block :=
  let q := SqRef.post c r
  let n := b.sqSize q
  let t := b.sqTail q
  let room := n - posDist n (wordPos n (b.sqHead q)) (wordPos n t)
  if 4 ≤ c ∨ 4 ≤ r ∨ b.sqState q ≠ rActive ∨ b.sqPart q ≠ p ∨ room < descs.length then none
  else
    let base := b.get .POST_BASE_ADDR (postIx c r) * 4096
    let b := descs.zipIdx.foldl (fun b e => b.hubWrite c (base + 64 * ((wIndex t + e.2) % n)) (padTo 64 e.1)) b
    some (if descs = [] then b else b.postTail c r (posWord n (wordPos n t + descs.length)))

-- SWEEP (R809 to R811) -----------------------------------------------------------------------------------------------------------

/-- A SWEEP payload of the right length. -/
def sweepOk (f : List Byte) : Bool :=
  let l := svBody f
  decide (48 ≤ svLen f) && svLen f == 48 + 16 * fieldAt l 8 4

/-- Descriptors that build an epoch: launches that bin points, and WORLD_UPDATEs. -/
def epochWork (descs : List (List Byte)) : Bool := descs.all fun d => dOpcode d == 0x10 || dOpcode d == 0x11 || dOpcode d == 0x30

/-- The sweep that a frame belongs to is forgotten. -/
def Block.dropSweep (b : Block) (p : Nat) (f : List Byte) : Block :=
  { b with svc := { b.svc with sweeps := b.svc.sweeps.filter fun x => !(x.part == p && ofMessage f x.src x.stream x.seq) } }

/-- A SWEEP message is complete: the service posts its descriptors, or rejects the message with BUSY. -/
def Block.sweepDone (b : Block) (port : Nat) (f : List Byte) (p c r : Nat) (descs : List (List Byte)) : Block :=
  match if epochWork descs then b.post p c r descs else none with
  | some b => b
  | none => b.sendReject port f rjBusy

/-- SWEEP (R811): the planning service takes a SWEEP fragment. A malformed or stale one is rejected; the fragment that completes its
message makes the service post the descriptors that bin the points and build, predict and swap the next epoch, or reject it with BUSY when
it cannot. -/
def Block.sweep (b : Block) (p c r : Nat) (descs : List (List Byte)) : Block :=
  match b.mailHead p with
  | none => b
  | some (_, port, f) =>
    if svType f ≠ 0x01 then b
    else
      let b := b.mailTake p
      if !sweepOk f then b.sendReject port f rjPayload
      else match b.svc.sweeps.find? fun x => x.part == p && ofMessage f x.src x.stream x.seq with
        | none =>
          if !b.newer p f then b.sendReject port f rjStale
          else
            let x : Sweep := { part := p, src := frIpSrc f, stream := svStream f, seq := svSeq f, parts := svParts f, got := [svPartNo f],
                               since := b.gmc, port := port, frame := f }
            let b := b.noteSeq p f
            if svParts f = 1 then b.sweepDone port f p c r descs
            else { b with svc := { b.svc with sweeps := b.svc.sweeps ++ [x] } }
        | some x =>
          let got := if svPartNo f ∈ x.got then x.got else x.got ++ [svPartNo f]
          if x.parts ≤ got.length then (b.dropSweep p f).sweepDone port f p c r descs
          else { b with svc := { b.svc with sweeps := b.svc.sweeps.map fun y => if y = x then { x with got := got } else y } }

def execSweep (part core ring : Nat) (descs : List (List Byte)) (s : State) := s.act (·.sweep part core ring descs)

/-- SWEEP_WAIT_EXPIRY (R811): the oldest sweep of the partition that has waited SWEEP_WAIT counts is dropped and rejected with
INCOMPLETE. -/
def Block.sweepExpire (b : Block) (p wait : Nat) : Block :=
  match b.svc.sweeps.find? fun x => x.part == p && decide (x.since + wait ≤ b.gmc) with
  | none => b
  | some x => ({ b with svc := { b.svc with sweeps := b.svc.sweeps.erase x } }).sendReject x.port x.frame rjIncomplete

def execSweepWaitExpiry (part wait : Nat) (s : State) := s.act (·.sweepExpire part wait)

-- PLAN_REQ (R810 to R814) ----------------------------------------------------------------------------------------------------------

/-- Bytes of payload that one frame of an answer carries. -/
def answerPiece : Nat := 8192

/-- A message sent in fragments, payload bytes in PARTNO order. -/
def Block.sendMessage (b : Block) (port : Nat) (f : List Byte) (type stream seq : Nat) (body : List Byte) : Block :=
  let parts := max 1 (ceilDiv body.length answerPiece)
  (List.range parts).foldl (fun b k =>
    b.replyTo port f (svcBytes type (svPart f) stream seq k parts b.ptp ((body.drop (k * answerPiece)).take answerPiece))) b

/-- KS of R735. -/
def knotSize (joints : Nat) : Nat := ceilDiv (8 + 8 * joints) 16 * 16

/-- `n` knot records of R735 whose reserved bytes are zero (R10). -/
def knotRecords (joints n : Nat) (l : List Byte) : List Byte :=
  let ks := knotSize joints
  (List.range n).flatMap fun k =>
    padTo ks (slice l (ks * k) 4 ++ zeros 4 ++ slice l (ks * k + 8) (8 * joints))

/-- A PLAN payload (R810). -/
def planBody (request outcome joints knots from_ until_ epoch clear : Nat) (mark records : List Byte) : List Byte :=
  leBytes 4 request ++ [byteOf outcome, byteOf joints, byteOf knots, 0] ++ leBytes 8 from_ ++ leBytes 8 until_ ++ leBytes 4 epoch ++
    leBytes 4 clear ++ padTo 32 mark ++ records

/-- A PLAN_REQ payload of the right length. -/
def planReqOk (f : List Byte) : Bool := svLen f == 24 + 12 * fieldAt (svBody f) 7 1

/-- PLAN_REQ (R812, R813): the planning service answers the request with exactly one PLAN message. With OUTCOME PLANNED its window runs
from T_START to the earliest of VALID_SPAN later, the end of the epoch's last slice and the last knot; with any other, KNOTS is 0. A
malformed request is answered with REFUSED. -/
def Block.planReq (b : Block) (p : Nat) (a : PlanAnswer) : Block :=
  match b.mailHead p with
  | none => b
  | some (arrival, port, f) =>
    if svType f ≠ 0x02 then b
    else
      let b := (b.mailTake p).noteSeq p f
      let l := svBody f
      let request := fieldAt l 0 4
      let joints := fieldAt l 7 1
      let ks := knotSize joints
      let n := a.knots.length / ks
      let outcome := if planReqOk f then a.outcome % 4 else 3
      if outcome ≠ 0 then
        b.sendMessage port f 0x03 a.stream a.seq
          (planBody request outcome joints 0 a.validFrom a.validUntil a.epoch a.minClear a.mark [])
      else
        let t := fieldAt l 0x10 8
        let last := t + fieldAt a.knots (ks * (n - 1)) 4 * 1000
        let stop := min (t + a.span) (min a.sliceEnd last)
        let x : Plan := { part := p, request := request, joints := joints, start := t, until_ := stop, mark := padTo 32 a.mark,
                          arrival := arrival, port := port, frame := f }
        let b := { b with svc := { b.svc with plans := (b.svc.plans.filter fun (y : Plan) => !(y.part == p && y.request == request)) ++ [x] } }
        b.sendMessage port f 0x03 a.stream a.seq
          (planBody request 0 joints n t stop a.epoch a.minClear a.mark (knotRecords joints n a.knots))

def execPlanReq (part : Nat) (answer : PlanAnswer) (s : State) := s.act (·.planReq part answer)

/-- A plan is revoked (R814): a PLAN message with OUTCOME REVOKED whose VALID_UNTIL is the PTP time of the first contact, by the inverse
of its request's mapping (R811). STREAM and SEQ are free. -/
def Block.revoke (b : Block) (x : Plan) (contact epoch clear : Nat) : Block :=
  let stop := toW 64 ((svSent x.frame : Int) + ((contact : Int) - (x.arrival : Int)))
  let b := { b with svc := { b.svc with plans := b.svc.plans.erase x } }
  b.took.took.sendMessage x.port x.frame 0x03 (b.freeVal 32) (b.took.freeVal 32)
    (planBody x.request 4 x.joints 0 x.start stop epoch clear x.mark [])

/-- The contacts that the candidate records of a CHECK report: FIRST_CONTACT, EPOCH, MIN_CLEAR. -/
def Block.contacts (b : Block) (p : Nat) (d : List Byte) : List (Nat × Nat × Nat) × Block :=
  match b.engRead 2 p none (ckParams d) 128 with
  | (.error _, b) => ([], b)
  | (.ok c, b) =>
    (List.range (ckCount d)).foldl (fun (acc : List (Nat × Nat × Nat) × Block) i =>
      match acc.2.engRead 2 p none (cbOutRec c + 32 * i) 32 with
      | (.error _, b) => (acc.1, b)
      | (.ok r, b) =>
        (if fieldAt r 0 1 = 2 then acc.1 ++ [(fieldAt r 8 8, fieldAt r 0x18 4, fieldAt r 0x10 4)] else acc.1, b)) ([], b)

/-- A repair CHECK of a service-owned partition has run: the plan whose REQUEST its TAG gives, while within its window, is revoked by a
contact. -/
def Block.revokeAfter (b : Block) (p : Nat) (d : List Byte) : Block :=
  match b.svc.plans.find? fun x => x.part == p && x.request == dTag d && decide (b.ptp ≤ x.until_) with
  | none => b
  | some x =>
    match b.peek (·.contacts p d) with
    | ((at_, ep, cl) :: _, b) => b.revoke x at_ ep cl
    | ([], b) => b

/-- CHECK (R751 to R761), and what the planning service does with a repair that finds a contact (R814). -/
def Block.checkAndRevoke (b : Block) (id : Nat) (clock : List Nat) : Block :=
  let c := b.check id clock
  match (b.checkersStart (isOp 0x31) id).1 with
  | some (j, _) => if ckRepair j.desc ∧ b.get .PART_GRANT_OWNER j.part = 2 then c.revokeAfter j.part j.desc else c
  | none => c

def execCheckDesc (job : Nat) (clock : List Nat) (strikes : List Strike) (replies : List Reply) (s : State) :=
  s.act (·.runOp (jobAgent job) strikes replies (·.checkAndRevoke job clock))

-- TELEMETRY and STATUS_REQ (R810, R811, R816) --------------------------------------------------------------------------------------------

/-- A TELEMETRY payload of the right length. -/
def telemetryOk (f : List Byte) : Bool :=
  let l := svBody f
  let n := fieldAt l 0x10 2
  decide (1 ≤ n ∧ n ≤ 64) && svLen f == 24 + (4 + 4 * n) * fieldAt l 0x12 2

/-- A SOH payload (R810). -/
def sohBody (pack seq outcome : Nat) (a : SohAnswer) : List Byte :=
  leBytes 8 pack ++ leBytes 4 seq ++ [byteOf outcome, 0, 0, 0] ++ leBytes 4 a.soh ++ leBytes 4 a.low ++ leBytes 4 a.high ++
    leBytes 4 a.imax ++ padTo 32 a.mark

/-- What is known of a pack after another fragment: a new message follows a complete one with the next SEQ, or something is missing. -/
def Pack.add (x : Option Pack) (p : Nat) (f : List Byte) : Pack :=
  let fresh (missing : Bool) : Pack :=
    { part := p, src := frIpSrc f, pack := fieldAt (svBody f) 0 8, stream := svStream f, seq := svSeq f, parts := svParts f,
      got := [svPartNo f], missing := missing }
  match x with
  | none => fresh false
  | some x =>
    if x.seq = svSeq f then { x with got := if svPartNo f ∈ x.got then x.got else x.got ++ [svPartNo f] }
    else fresh (x.missing || decide (x.got.length < x.parts) || svSeq f != (x.seq + 1) % 2 ^ 32)

/-- TELEMETRY (R811, R816): the ageing service takes a TELEMETRY fragment. The last fragment of a message with HISTORY_END is answered with
exactly one SOH frame, INCOMPLETE when a fragment of the pack's history is missing. -/
def Block.takeTelemetry (b : Block) (p : Nat) (a : SohAnswer) : Block :=
  match b.mailHead p with
  | none => b
  | some (_, port, f) =>
    if svType f ≠ 0x04 then b
    else
      let b := b.mailTake p
      let l := svBody f
      let id := fieldAt l 0 8
      if !telemetryOk f then b.sendReject port f rjPayload
      else
        let mine (x : Pack) : Bool := x.part == p && x.src == frIpSrc f && x.pack == id && x.stream == svStream f
        let old := b.svc.packs.find? mine
        let running := match old with | some x => x.seq == svSeq f | none => false
        if !running && !b.newer p f then b.sendReject port f rjStale
        else
          let b := b.noteSeq p f
          let x := Pack.add old p f
          let rest := b.svc.packs.filter fun y => !mine y
          if (fieldAt l 0x14 1).testBit 0 ∧ svPartNo f + 1 = svParts f then
            let short := x.missing || decide (x.got.length < x.parts)
            let outcome := if short then 1 else if a.outcome % 4 = 1 then 3 else a.outcome % 4
            ({ b with svc := { b.svc with packs := rest } }).sendMessage port f 0x05 a.stream a.seq (sohBody id (svSeq f) outcome a)
          else { b with svc := { b.svc with packs := rest ++ [x] } }

def execTelemetry (part : Nat) (answer : SohAnswer) (s : State) := s.act (·.takeTelemetry part answer)

/-- STATUS_REQ (R816): the ageing service answers with one STATUS frame that holds the telemetry record. -/
def Block.statusReq (b : Block) (p stream seq : Nat) : Block :=
  match b.mailHead p with
  | none => b
  | some (_, port, f) => if svType f ≠ 0x06 then b else ((b.mailTake p).noteSeq p f).sendMessage port f 0x07 stream seq b.telemetry

def execStatusReq (part stream seq : Nat) (s : State) := s.act (·.statusReq part stream seq)

end Sys2Proof.Machine
end

