-- ==== Sys2Proof/Machine/RegWrite.lean ====
section
/-! DEFINITION. Set-up writes (spec/05 R199 to R222, R830, R880, and the rules that the registers' own chapters add): who may write what,
the writes that the state of the package refuses, the fields as their access types take a write, and what a write sets going. -/

namespace Sys2Proof.Machine

/-- A write of one register: its sender (none for a SETTINGS record), the offset in the PF layout, 4 or 8 bytes, the value, and the bits
that hardware updates in the same cycle with their values (R207). -/
structure Wr where
  who : Option Requester
  off : Nat
  n : Nat
  val : Nat
  hwMask : Nat
  hwVal : Nat
  deriving DecidableEq, Repr

-- The bits of a field that a write reaches -----------------------------------------------------------------------------------

/-- The written bits of a field, given the bits `x` at the write's offset. -/
def Wr.bitsIn (w : Wr) (x : Nat) (f : Fld) (i : Nat) : Nat :=
  ((x % 2 ^ (8 * w.n)) <<< (8 * (w.off - f.addr i)) >>> f.desc.lo) % 2 ^ f.desc.width

def Wr.mask (w : Wr) (f : Fld) (i : Nat) : Nat := w.bitsIn (2 ^ (8 * w.n) - 1) f i
def Wr.value (w : Wr) (f : Fld) (i : Nat) : Nat := w.bitsIn w.val f i
def Wr.hw (w : Wr) (f : Fld) (i : Nat) : Nat := w.bitsIn w.hwMask f i
def Wr.hwSet (w : Wr) (f : Fld) (i : Nat) : Nat := w.bitsIn (w.hwMask &&& w.hwVal) f i

/-- The value of a field with the written bits replaced. -/
def Block.newVal (b : Block) (w : Wr) (f : Fld) (i : Nat) : Nat := clearBits (b.get f i) (w.mask f i) ||| w.value f i

/-- The write would change a field. -/
def Block.changes (b : Block) (w : Wr) (f : Fld) (i : Nat) : Bool := b.newVal w f i != b.get f i

/-- A write of a field with a bit set. -/
def Wr.sets (w : Wr) (f : Fld) (i : Nat) : Bool := w.value f i != 0

-- COLLIDE (R207 to R210) -------------------------------------------------------------------------------------------------------

/-- The COLLIDE bit of the register at an offset is set, and counted. -/
def Block.setCollide (b : Block) (o : Nat) : Block :=
  let b := if o ∈ b.link.collide then b else { b with link := { b.link with collide := b.link.collide ++ [o] } }
  let b := if b.on .GLOBAL_ERR_COLLIDE_ANY then b else (b.set .GLOBAL_ERR_COLLIDE_ANY 0 1).set .COLLIDE_FIRST_OFFSET 0 o
  b.bumpSat .COLLIDE_COUNT_COUNT

/-- The COLLIDE bit of the register at an offset is cleared. -/
def Block.clearCollide (b : Block) (o : Nat) : Block := { b with link := { b.link with collide := b.link.collide.erase o } }

/-- RWH fields that hold control or state, not a count (R207). -/
def hwWins (f : Fld) : Bool := f = .LINK_DOWN_SHADOW_BITMAP

/-- One field takes a write by its access type (R207, R208). Self-clearing, set-only and write-only fields act elsewhere. -/
def Block.writeField (b : Block) (w : Wr) (f : Fld) (i : Nat) : Block :=
  if w.mask f i = 0 then b
  else match f.desc.acc with
    | .rw => b.set f i (b.newVal w f i)
    | .w1c => b.set f i (clearBits (b.get f i) (clearBits (w.value f i) (w.hwSet f i)) ||| w.hwSet f i)
    | .rwh =>
      if w.hw f i = 0 then b.set f i (b.newVal w f i)
      else if hwWins f then (b.set f i (clearBits (b.get f i) (w.hw f i) ||| w.hwSet f i)).setCollide (f.addr i)
      else (b.set f i (b.newVal w f i)).setCollide (f.addr i)
    | _ => b

-- Grants (R219 to R221) ---------------------------------------------------------------------------------------------------------

/-- Units of tier S that the trained channels hold. -/
def Block.installedS (b : Block) : Nat :=
  (List.range 8).foldl (fun n c => if b.on .TS_CHAN_PRESENT c then n + b.get .TS_CHAN_CAP_GIB c * 512 else n) 0

/-- A Miller core. -/
def Requester.isCore : Requester → Bool
  | .miller _ => true
  | _ => false

/-- The cause for which a grant is refused, in the order of R220: 1 BUSY, 2 CONFLICT, 3 OVER, 4 ABSENT_GROUP, 5 SERVICE. A Miller core may
write the grant of a service-owned partition (R782); no one but a SETTINGS record gives OWNER service (R221). -/
def Block.grantRefusal (b : Block) (who : Option Requester) (p groups owner : Nat) : Option Nat :=
  let others := (List.range 8).filter (· != p)
  let total (f : Nat → Nat) : Nat := others.foldl (fun n q => n + f q) 0
  if b.partActive p || b.resetting p then some 1
  else if others.any fun q => b.get .PART_GRANT_GROUPS q &&& groups != 0 then some 2
  else if 24576 < total (fun q => (b.quota q).1) + b.get .F_QUOTA_UNITS p ∨
      b.installedS < total (fun q => (b.quota q).2) + b.get .S_QUOTA_UNITS p then some 3
  else if (bitList groups 8).any fun g => (b.groupTiles g).isEmpty then some 4
  else if who.isSome && (owner == 2 || (b.get .PART_GRANT_OWNER p == 2 && !who.any Requester.isCore)) then some 5
  else none

/-- PART_GRANT written (R219 to R221, R880): GROUPS, OWNER and the staged quotas apply together, or not at all. -/
def Block.grant (b : Block) (who : Option Requester) (p val : Nat) : Block :=
  let groups := bits val 0 8
  let owner := bits val 8 2
  let staged := (b.get .F_QUOTA_UNITS p, b.get .S_QUOTA_UNITS p)
  if groups = b.get .PART_GRANT_GROUPS p ∧ owner = b.get .PART_GRANT_OWNER p ∧ staged = b.quota p then b
  else match b.grantRefusal who p groups owner with
    | some c => (b.set .GRANT_STATUS_GRANT_REFUSED p 1).set .GRANT_STATUS_CAUSE p c
    | none =>
      let b := (b.set .PART_GRANT_GROUPS p groups).set .PART_GRANT_OWNER p owner
      { b with ms := { b.ms with quotas := Tab.put b.ms.quotas p staged } }

/-- The cause for which a DS_GRANT is refused (R343): 1 BUSY, 2 CONFLICT. -/
def Block.dsRefusal (b : Block) (p g0 g1 : Nat) : Option Nat :=
  if b.partActive p then some 1
  else if ((List.range 8).filter (· != p)).any fun q => b.get .DS_GRANT_G0 q &&& g0 != 0 || b.get .DS_GRANT_G1 q &&& g1 != 0 then some 2
  else none

-- PART_HOP (R326, R328) ------------------------------------------------------------------------------------------------------------

/-- Sum of a field over the partitions but one. -/
def Block.sumOthers (b : Block) (p : Nat) (f : Fld) : Nat := ((List.range 8).filter (· != p)).foldl (fun n q => n + b.get f q) 0

/-- The half of PART_HOP with the quotas: 1 BUSY, 2 OVER_JOBS or OVER_TR. -/
def Block.hopQuotaRefusal (b : Block) (p jobs tr : Nat) : Option Nat :=
  if b.partActive p then some 1
  else if 16384 < b.sumOthers p .PART_HOP_JOB_QUOTA + jobs ∨ 8192 < b.sumOthers p .PART_HOP_TR_QUOTA + tr then some 2
  else none

/-- The half of PART_HOP with the pawl range: 1 BUSY, 3 PAWL_RANGE. -/
def Block.hopPawlRefusal (b : Block) (p base n : Nat) : Option Nat :=
  let overlap (q : Nat) : Bool :=
    let c := b.get .PART_HOP_PAWL_BASE q
    let m := b.get .PART_HOP_PAWL_COUNT q
    decide (0 < n ∧ 0 < m ∧ base < c + m ∧ c < base + n)
  if b.partActive p then some 1
  else if 4096 < base + n ∨ ((List.range 8).filter (· != p)).any overlap then some 3
  else none

def Block.hopRefuse (b : Block) (p cause : Nat) : Block := (b.set .PART_HOP_STAT_HOP_REFUSED p 1).set .PART_HOP_STAT_CAUSE p cause

/-- PART_HOP written: each half is checked and applied on its own; a moved pawl range clears every pawl that leaves or enters. -/
def Block.writeHop (b : Block) (w : Wr) (p : Nat) : Block :=
  let jobs := b.newVal w .PART_HOP_JOB_QUOTA p
  let tr := b.newVal w .PART_HOP_TR_QUOTA p
  let base := b.newVal w .PART_HOP_PAWL_BASE p
  let n := b.newVal w .PART_HOP_PAWL_COUNT p
  let base0 := b.get .PART_HOP_PAWL_BASE p
  let n0 := b.get .PART_HOP_PAWL_COUNT p
  let b := if b.changes w .PART_HOP_JOB_QUOTA p || b.changes w .PART_HOP_TR_QUOTA p then
      match b.hopQuotaRefusal p jobs tr with
      | some c => b.hopRefuse p c
      | none => (b.set .PART_HOP_JOB_QUOTA p jobs).set .PART_HOP_TR_QUOTA p tr
    else b
  if base ≠ base0 ∨ n ≠ n0 then
    match b.hopPawlRefusal p base n with
    | some c => b.hopRefuse p c
    | none =>
      ((b.set .PART_HOP_PAWL_BASE p base).set .PART_HOP_PAWL_COUNT p n).movePawls base0 n0 base n
  else b

-- Writes that state refuses (R880) ---------------------------------------------------------------------------------------------------

/-- What the state of the package does to a write: the whole write is dropped, or some fields keep their values; and the refusal it
leaves. -/
structure WriteGuard where
  drop : Bool
  keep : List Fld
  refuse : Block → Block

def WriteGuard.none : WriteGuard := { drop := false, keep := [], refuse := id }

/-- The write drops as a whole when it would change one of some fields while `held`. -/
def Block.guardAll (b : Block) (w : Wr) (i : Nat) (fs : List Fld) (held : Bool) (refuse : Block → Block) : WriteGuard :=
  if held && fs.any fun f => b.changes w f i then { drop := true, keep := [], refuse := refuse } else WriteGuard.none

/-- Some fields keep their values when the write would change one of them while `held`. -/
def Block.guardSome (b : Block) (w : Wr) (i : Nat) (fs : List Fld) (held : Bool) (refuse : Block → Block) : WriteGuard :=
  if held && fs.any fun f => b.changes w f i then { drop := false, keep := fs, refuse := refuse } else WriteGuard.none

/-- A Mbary port is not OFF. -/
def Block.anyPortUp (b : Block) : Bool := (List.range 8).any fun n => b.portState n != pOff

/-- Some partition is ACTIVE. -/
def Block.anyActive (b : Block) : Bool := (List.range 8).any b.partActive

/-- The cause for which a write of GRP_CFG is refused (R531): 1 IN_FLIGHT, 2 BAD_FANOUT, 3 NOT_MEMBER. -/
def Block.grpRefusal (b : Block) (w : Wr) (g : Nat) : Option Nat :=
  let fan := b.newVal w .GRP_CFG_FANOUT g
  let en := b.newVal w .GRP_CFG_EN g != 0
  if b.fab.colls.any fun o => o.group == g then some 1
  else if en && decide (fan < 2 ∨ 8 < fan) then some 2
  else if en && !b.bit .GRP_MEMBERS_BITMAP g b.pkg then some 3
  else none

def Block.grpRefuse (b : Block) (g cause : Nat) : Block := (b.set .GRP_STATUS_GRP_REFUSED g 1).set .GRP_STATUS_CAUSE g cause

/-- The guard of the register a write reaches, by one of its fields (R275, R276, R315, R343, R531, R532, R539, R585, R795). -/
def Block.guard (b : Block) (w : Wr) (f : Fld) (i : Nat) : WriteGuard :=
  let sq (q : SqRef) (fs : List Fld) : WriteGuard := b.guardAll w i fs (b.sqState q != rOff) (·.setSqRefused q 1)
  let cq (q : CqRef) (fs : List Fld) : WriteGuard := b.guardAll w i fs (b.cqState q != rOff) (·.setCqRefused q 1)
  match f with
  | .SQ_BASE_ADDR => sq (.host (i / 32) (i % 32)) [.SQ_BASE_ADDR]
  | .SQ_CFG_LOG2_SIZE => sq (.host (i / 32) (i % 32)) [.SQ_CFG_LOG2_SIZE, .SQ_CFG_CQ_ID, .SQ_CFG_TALLY_BYTES]
  | .SQ_CTRL_ENABLE =>
    let q := SqRef.host (i / 32) (i % 32)
    b.guardSome w i [.SQ_CTRL_GEN_INIT] (b.sqState q != rOff) (·.setSqRefused q 1)
  | .CQ_BASE_ADDR => cq (.host (i / 32) (i % 32)) [.CQ_BASE_ADDR]
  | .CQ_CFG_LOG2_SIZE => cq (.host (i / 32) (i % 32)) [.CQ_CFG_LOG2_SIZE, .CQ_CFG_ENTRY]
  | .CQ_CTRL_ENABLE =>
    let q := CqRef.host (i / 32) (i % 32)
    b.guardSome w i [.CQ_CTRL_GEN_INIT] (b.cqState q != rOff) (·.setCqRefused q 1)
  | .POST_BASE_ADDR => sq (.post (i / 4) (i % 4)) [.POST_BASE_ADDR]
  | .POST_CFG_LOG2_SIZE => sq (.post (i / 4) (i % 4)) [.POST_CFG_LOG2_SIZE, .POST_CFG_PART, .POST_CFG_TALLY_BYTES]
  | .CORE_CQ_BASE_ADDR => cq (.core i) [.CORE_CQ_BASE_ADDR]
  | .CORE_CQ_CFG_LOG2_SIZE => cq (.core i) [.CORE_CQ_CFG_LOG2_SIZE, .CORE_CQ_CFG_ENTRY]
  | .DB_BASE_ADDR => b.guardAll w i [.DB_BASE_ADDR] (!b.ringsOff i) (·.set .DB_CTRL_DB_REFUSED i 1)
  | .DB_CTRL_EN => b.guardAll w i [.DB_CTRL_EN, .DB_CTRL_FORCE_POLL] (!b.ringsOff i) (·.set .DB_CTRL_DB_REFUSED i 1)
  | .DS_GRANT_G0 =>
    match b.dsRefusal i (b.newVal w .DS_GRANT_G0 i) (b.newVal w .DS_GRANT_G1 i) with
    | some c => b.guardAll w i [.DS_GRANT_G0, .DS_GRANT_G1] true fun b => (b.set .DS_GRANT_DS_REFUSED i 1).set .DS_GRANT_CAUSE i c
    | none => WriteGuard.none
  | .HOP_TICK_TICK => b.guardAll w i [.HOP_TICK_TICK] b.anyActive (·.set .HOP_TICK_TICK_REFUSED 0 1)
  | .FAB_TOPO_PKG =>
    b.guardAll w i [.FAB_TOPO_PKG, .FAB_TOPO_DX, .FAB_TOPO_DY, .FAB_TOPO_DZ] b.anyPortUp (·.set .FAB_CFG_STATUS_TOPO_REFUSED 0 1)
  | .GMC_CFG_REF_PKG => b.guardAll w i [.GMC_CFG_REF_PKG] b.anyPortUp (·.set .GMC_CFG_REF_REFUSED 0 1)
  | .GRP_CFG_PART =>
    match b.grpRefusal w i with
    | some c => b.guardAll w i [.GRP_CFG_PART, .GRP_CFG_FANOUT, .GRP_CFG_EN] true (·.grpRefuse i c)
    | none => WriteGuard.none
  | .GRP_MEMBERS_BITMAP => b.guardAll w i [.GRP_MEMBERS_BITMAP] (b.on .GRP_CFG_EN i) (·.grpRefuse i 4)
  | .SVC_CTRL_SVC_LOCK =>
    let g := b.guardSome w i [.SVC_CTRL_ETH_MODE] ((List.range 4).any fun p => b.on .ETH_CFG_ENABLE p) (·.set .SVC_CTRL_MODE_REFUSED 0 1)
    if b.on .SVC_CTRL_SVC_LOCK then { g with keep := .SVC_CTRL_SVC_LOCK :: g.keep } else g
  | .TALLY_BASE_ADDR | .TALLY_SIZE_SIZE | .REPLAY_BASE_ADDR | .REPLAY_SIZE_SIZE | .REPLAY_OFFSET_COUNTS =>
    b.guardSome w i [f] (b.partActive i) (·.set .TALLY_CTRL_TALLY_REFUSED i 1)
  | .TALLY_CTRL_MODE =>
    b.guardSome w i [.TALLY_CTRL_MODE, .TALLY_CTRL_STOP] (b.partActive i) (·.set .TALLY_CTRL_TALLY_REFUSED i 1)
  | _ => WriteGuard.none

/-- Fields that a write reaches through an operation of their own, not as plain RW fields: ring enables, port modes, grants. -/
def ownWrite (f : Fld) : Bool :=
  f ∈ [Fld.SQ_CTRL_ENABLE, .CQ_CTRL_ENABLE, .POST_CFG_ENABLE, .CORE_CQ_CFG_ENABLE, .PORT_CFG_MODE, .PORT_CFG_ENABLE, .PART_GRANT_GROUPS,
    .PART_GRANT_OWNER, .PART_HOP_JOB_QUOTA, .PART_HOP_TR_QUOTA, .PART_HOP_PAWL_BASE, .PART_HOP_PAWL_COUNT, .COLLIDE_BIT_COLLIDE,
    .PART_COLLIDE_BIT_COLLIDE, .RST_CTRL_KEEP_MEM, .RST_CTRL_BADKEY]

-- What a write sets going ----------------------------------------------------------------------------------------------------------

/-- The core that sends a write. -/
def Wr.core (w : Wr) : Option Nat := match w.who with | some (.miller c) => some c | _ => none

/-- ENABLE of a ring written: 1 on an OFF ring enables it, 0 disables it. -/
def Block.writeSqEnable (b : Block) (w : Wr) (q : SqRef) (f : Fld) (i : Nat) : Block :=
  if w.mask f i = 0 then b
  else if w.sets f i then (if b.sqState q = rOff then b.sqEnable q none else b)
  else if b.on f i then b.sqDisable q else b

def Block.writeCqEnable (b : Block) (w : Wr) (q : CqRef) (f : Fld) (i : Nat) : Block :=
  if w.mask f i = 0 then b
  else if w.sets f i then (if b.cqState q = rOff then b.cqEnable q none else b)
  else if b.on f i then b.cqDisable q else b

/-- PORT_CFG written: ENABLE with a MODE on a disabled port enables it, any other change of MODE or ENABLE takes it out of use first;
FENCE_CLEAR acts last. -/
def Block.writePort (b : Block) (w : Wr) (n : Nat) : Block :=
  let mode := b.newVal w .PORT_CFG_MODE n
  let en := b.newVal w .PORT_CFG_ENABLE n
  let b := if mode = b.get .PORT_CFG_MODE n ∧ en = b.get .PORT_CFG_ENABLE n then b
    else if mode = 0 ∨ en = 0 then b.portDisable n mode (en != 0)
    else (b.portDisable n 0 false).portEnable n mode
  if w.sets .PORT_CFG_FENCE_CLEAR n then b.fenceClear n else b

/-- The interrupt lines that M_IRQ_EN newly enables while pending. -/
def Block.newLines (b : Block) (c old : Nat) : Block :=
  (bitList (clearBits (b.get .M_IRQ_EN_LINES c) old &&& b.get .M_IRQ_PEND_LINES c) 32).foldl (fun b n => b.send (.coreLine c n)) b

/-- Recording or replay of a partition starts anew when TALLY_CTRL is written: nothing is lost yet, and replay begins at REPLAY_BASE. -/
def Block.restartTally (b : Block) (p : Nat) : Block :=
  let b := { b with hop := { b.hop with tallyLost := Tab.del b.hop.tallyLost p } }
  if b.replayOn p then b.set .REPLAY_POS_OFFSET p 0 else b

/-- What a written field sets going. `old` is the block before the write's plain fields were applied. -/
def Block.actField (b old : Block) (w : Wr) (f : Fld) (i : Nat) : Block :=
  let on := w.sets f i
  match f with
  | .GLOBAL_ERR_COLLIDE_ANY =>
    if on && !b.on .GLOBAL_ERR_COLLIDE_ANY then (b.set .COLLIDE_FIRST_OFFSET 0 0).set .COLLIDE_COUNT_COUNT 0 0 else b
  | .COLLIDE_BIT_COLLIDE => if on then b.clearCollide (b.get .COLLIDE_QUERY_OFFSET * 4) else b
  | .PART_COLLIDE_BIT_COLLIDE => if on then b.clearCollide (b.partQuery i) else b
  | .ARB_CTRL_GO => if on then b.arbSet else b
  | .SLOT_CTRL_GO => if on then b.slotGo (b.get .SLOT_CTRL_OP) (b.get .SLOT_CTRL_SLOT) else b
  | .CORE_CLK_GO => if on then b.clkGo i else b
  | .PART_RESET_PART => b.partResetMask (match w.who with | some r => reqSource r | none => 0) (w.value f i)
  | .DIE_RESET_G0 => if on then b.dieReset 1 else b
  | .DIE_RESET_G1 => if on then b.dieReset 2 else b
  | .PORT_RESET_MBARY => b.mbaryReset (w.value f i)
  | .PORT_RESET_ETH => b.ethPortReset (w.value f i)
  | .PWR_CTRL_A1_EN => if w.mask f i != 0 && !on then b.leaveA1 else b
  | .PWR_CTRL_FURL => if on && !w.sets .PWR_CTRL_WAKE i then b.furl else b
  | .PWR_CTRL_WAKE => if on && b.pwr.released then b.wakeForWork else b
  | .PART_GRANT_GROUPS => if w.mask f i = 0 then b else b.grant w.who i (w.val >>> (8 * (w.off - f.addr i)))
  | .PT_XCHG_GO => if on then b.ptXchg i (b.get .PT_XCHG_RUN_A i) (b.get .PT_XCHG_RUN_B i) else b
  | .SQ_CTRL_ENABLE => b.writeSqEnable w (.host (i / 32) (i % 32)) f i
  | .CQ_CTRL_ENABLE => b.writeCqEnable w (.host (i / 32) (i % 32)) f i
  | .POST_CFG_ENABLE => b.writeSqEnable w (.post (i / 4) (i % 4)) f i
  | .CORE_CQ_CFG_ENABLE => b.writeCqEnable w (.core i) f i
  | .POST_TAIL_WORD => if w.n = 8 then b.postTail (i / 4) (i % 4) w.val else b
  | .CORE_CQ_HEADW_WORD => if w.n = 8 then b.cqHeadw i w.val else b
  | .CTX_KILL_CTX => b.ctxKill i (w.value f i)
  | .PAWL_BREAK_GO => if on then b.pawlBreakGo i (b.get .PAWL_BREAK_INDEX i) else b
  | .PART_HOP_JOB_QUOTA => b.writeHop w i
  | .PRELOAD_CTRL_FREE_ALL => if on then ({ b with ms := { b.ms with preloaded := [] } }).event 0x40 0x11 else b
  | .REMAP_CTRL_RETIRE => if on then b.remapRetire (b.get .REMAP_CTRL_CH) else b
  | .TS_CTRL_TAKE_OUT => if on then b.takeOut i 1 else b
  | .PORT_CFG_MODE => b.writePort w i
  | .ETH_CFG_ENABLE => b.settlePlls
  | .FAB_TOPO_PKG => b.gmcTopology
  | .GMC_CFG_REF_PKG => b.gmcTopology
  | .COG_CTRL_GO =>
    if on then b.set .COG_OUT_W 0 (cog (b.get .COG_KEY_VALUE) (b.get .COG_JOB_VALUE) (b.get .COG_STREAM_VALUE) (b.get .COG_INDEX_VALUE))
    else b
  | .MS_CTRL_PIN => if on then b.msPin else b
  | .MS_CTRL_ERASE => if on then b.msErase (w.value .MS_CTRL_KEY i) else b
  | .MK_CTRL_GO =>
    if !on then b
    else if b.get .MK_CTRL_OP i = 1 then b.set .WEIGHTS_MARK_MARK i 0
    else if b.get .MK_CTRL_OP i = 2 then b.mkAbsorb i else b
  | .TALLY_CTRL_MODE =>
    if b.get .TALLY_CTRL_MODE i = old.get .TALLY_CTRL_MODE i ∧ b.get .TALLY_CTRL_STOP i = old.get .TALLY_CTRL_STOP i then b
    else b.restartTally i
  | .TILE_CTRL_TAKE_OUT => if on then b.takeOutTile i else b
  | .TILE_CTRL_RETURN => if on && !w.sets .TILE_CTRL_TAKE_OUT i then b.returnTile i else b
  | .SVC_PART_RESET_PART => match w.core with | some c => b.svcPartReset c (w.value f i) | none => b
  | .SVC_MB_RING_TARGET => match w.core with | some c => b.mbRing c (w.value f i) | none => b
  | .H2M_RING_CORE => b.h2mRing (w.value f i)
  | .M2H_RING_RING => match w.core with | some c => if on then b.m2h c else b | none => b
  | .M_IRQ_EN_LINES => b.newLines i (old.get .M_IRQ_EN_LINES i)
  | .M_WD_LIMIT => if w.mask f i = 0 then b else b.kick i
  | .M_WD_KICK_KICK => if w.mask f i = 0 then b else b.kick i
  | .PHC_STEP_NS => b.phcStep (w.value f i)
  | .PHC_SNAP_GO => if on then b.phcSnap else b
  | .TX_TS_POP_POP => if w.mask f i = 0 then b else b.popStamp
  | .TENT_CTRL_USER_RESET => if on then b.userReset else b
  | _ => b

-- One register written --------------------------------------------------------------------------------------------------------------

/-- The fields of the register that a write reaches. -/
def Wr.fields (w : Wr) : List (Fld × Nat) := fieldsAt w.off

/-- A register takes a write that its guards let through: plain fields, refusals, then what the write sets going. -/
def Block.applyReg (b : Block) (w : Wr) : Block :=
  let fs := w.fields
  let gs := fs.map fun e => b.guard w e.1 e.2
  if gs.any (·.drop) then gs.foldl (fun b g => g.refuse b) b
  else
    let keep : List Fld := gs.flatMap (·.keep)
    let c := fs.foldl (fun c (e : Fld × Nat) => if keep.contains e.1 || ownWrite e.1 then c else c.writeField w e.1 e.2) b
    let c := gs.foldl (fun c g => g.refuse c) c
    fs.foldl (fun c e => c.actField b w e.1 e.2) c

/-- One register written by anyone who may: RST_CTRL by its own rule, reserved offsets dropped with UNMAPPED_WR (R202), log windows
(R900) and disabled tiles (R4) dropped. -/
def Block.writeWord (b : Block) (w : Wr) : Block :=
  if logWindow w.off || b.deadWindow w.off then b
  else if w.off = 0x30000 then b.pkgReset (w.val % 2 ^ 32)
  else if w.fields = [] then b.set .GLOBAL_ERR_UNMAPPED_WR 0 1
  else b.applyReg w

/-- The registers that a write covers: one 64-bit register whole, or each word by itself (R215). -/
def Wr.split (w : Wr) : List Wr :=
  if w.n ≠ 8 ∨ (regAt w.off).isSome ∧ regAt w.off = regAt (w.off + 4) then [w]
  else [{ w with n := 4, val := w.val % 2 ^ 32, hwMask := w.hwMask % 2 ^ 32, hwVal := w.hwVal % 2 ^ 32 },
    { w with off := w.off + 4, n := 4, val := w.val / 2 ^ 32, hwMask := w.hwMask / 2 ^ 32, hwVal := w.hwVal / 2 ^ 32 }]

-- Who may write what (R198, R218, R222, R782, R818) ----------------------------------------------------------------------------------------

/-- A word of the set-up space that core `c` may write (R782). -/
def Block.coreMayWrite (b : Block) (o v : Nat) : Bool :=
  let service (p : Nat) : Bool := b.get .PART_GRANT_OWNER p == 2
  decide (0xA00000 ≤ o ∧ o < 0xB00000 ∨ 0x600100 ≤ o ∧ o < 0x600138 ∨ 0x600208 ≤ o ∧ o < 0x600210 ∨ 0x600220 ≤ o ∧ o < 0x600240 ∨
    0xF00000 ≤ o ∧ o < 0xF00080) ||
  (match windowPart o with | some p => service p | none => false) ||
  (decide (0x601000 ≤ o ∧ o < 0x601800) && service ((o - 0x601000) / 0x100)) ||
  (o == 0x600200 && !v.testBit 1 && service (bits v 3 3))

/-- A register that a requester's write passes by without effect: the grants, quotas and die-shared grants of a VF or core (R222), and the
registers that only the PF writes (R218, R391). -/
def passedBy (who : Requester) (o : Nat) : Bool :=
  let win (x : Nat) : Bool := (windowPart o).isSome && (o - 0x100000) % 0x10000 / 4 == x / 4
  match who with
  | .vf _ => win 0x08 || win 0x10 || win 0x14 || win 0x110
  | .miller _ => win 0x110 || o == 0x18
  | .mctp => win 0x110 || o == 0x18
  | .pf => false

/-- A dropped write recorded (R830, R884). -/
def Block.dropWrite (b : Block) (who : Requester) (blk code part o size : Nat) : Block :=
  b.violate blk code part (reqSource who) 0 3 (leBytes 4 o ++ [byteOf size])

/-- A write that has been let through goes to its registers; those of the always-on domain cross (R114), AON_STATUS excepted, and a
reserved offset there sets UNMAPPED_WR as anywhere (R202). -/
def Block.writeThrough (b : Block) (who : Requester) (o size val hwMask hwVal : Nat) : Block :=
  if aonOffset o then
    let b := if (wordsOf o size val).any fun w => (fieldsAt w.1).isEmpty then b.set .GLOBAL_ERR_UNMAPPED_WR 0 1 else b
    let b := if o = 0x30100 then b.aonStatus (val % 2 ^ 32) (hwMask &&& hwVal) else b
    b.aonWrite who o size val
  else
    let w : Wr := { who := some who, off := o, n := size, val := val % 2 ^ (8 * size), hwMask := hwMask % 2 ^ (8 * size),
                    hwVal := hwVal % 2 ^ (8 * size) }
    w.split.foldl (fun b w => if passedBy who w.off then b else b.writeWord w) b

/-- A write would change a field, as its access type takes it: R880 lets a rule that refuses writes by state act on no other. -/
def Block.alters (b : Block) (w : Wr) (f : Fld) (i : Nat) : Bool :=
  match f.desc.acc with
  | .ro => false
  | .w1c => w.value f i &&& b.get f i != 0
  | .rw => b.changes w f i
  | .rwh => b.changes w f i
  | _ => w.mask f i != 0

/-- A write of the PF would change a field of the registers it reaches. -/
def Block.pfAlters (b : Block) (o size val : Nat) : Bool :=
  let w : Wr := { who := some .pf, off := o, n := size, val := val % 2 ^ (8 * size), hwMask := 0, hwVal := 0 }
  w.split.any fun w => w.fields.any fun e => b.alters w e.1 e.2

/-- SVC_LOCK drops a write of the PF: one that would change a register of the service block outside the mailboxes (R818, R880). -/
def Block.svcLocked (b : Block) (o size val : Nat) : Bool :=
  b.on .SVC_CTRL_SVC_LOCK && decide (0xA00000 ≤ o ∧ o < 0xB00000) && !decide (0xA01800 ≤ o ∧ o < 0xA01900) && b.pfAlters o size val

/-- A set-up write (R199, R201, R205): checked for size and alignment, then for its sender, then applied. -/
def Block.writeSetup (b : Block) (who : Requester) (off size val hwMask hwVal : Nat) : Block :=
  match if b.inD3 who then none else reqOffset who off with
  | none => b
  | some o =>
    let part := match who with | .vf m => m - 1 | _ => 0xFF
    if !((size == 4 || size == 8) && off % size == 0) then (b.set .GLOBAL_ERR_MMIO_SIZE 0 1).dropWrite who 0x00 0x28 part o size
    else match who with
      | .vf m => if !b.vfLive m || b.get .PART_GRANT_OWNER (m - 1) == 2 then b else b.writeThrough who o size val hwMask hwVal
      | .miller _ =>
        if b.coreMayWrite o (val % 2 ^ 32) && (size == 4 || b.coreMayWrite (o + 4) (val / 2 ^ 32)) then
          b.writeThrough who o size val hwMask hwVal
        else b.dropWrite who 0xA0 0xF8 0xFF o size
      | .pf =>
        if b.svcLocked o size val then
          b.dropWrite who 0xA0 0xF9 0xFF o size
        else b.writeThrough who o size val hwMask hwVal
      | .mctp => b.writeThrough who o size val hwMask hwVal

/-- The place of a requester among writes that arrive together: PF, MCTP, Miller cores in core order, then VFs in ascending order (R205). -/
def reqRank : Requester → Nat
  | .pf => 0
  | .mctp => 1
  | .miller c => 2 + c
  | .vf m => 5 + m

/-- Writes that arrive together, in the order in which they are applied; a requester's own keep theirs. -/
def inRank (l : List SetWrite) : List SetWrite := (List.range 14).flatMap fun k => l.filter fun w => reqRank w.who == k

/-- REGISTER_WRITE (R205): `meetMask` names the bits that hardware updates in the same cycle, with their values in `meetVal` (R207); `also`
are the writes that arrive with it. -/
def Block.regWrites (b : Block) (l : List SetWrite) : Block :=
  (inRank l).foldl (fun b w => b.writeSetup w.who w.off w.size w.val w.meetMask w.meetVal) b

def execRegisterWrite (who : Requester) (off size val meetMask meetVal : Nat) (s : State) (also : List SetWrite := []) :=
  s.act (·.regWrites (SetWrite.mk who off size val meetMask meetVal :: also))

/-- AON_WRITE (R114, R115): a set-up write of an always-on register. -/
def execAonWrite (who : Requester) (off size val : Nat) (s : State) :=
  s.act fun b => if aonOffset off then b.writeSetup who off size val 0 0 else b

/-- AON_STATUS_WRITE (R114): a set-up write of AON_STATUS; `meet` names the flags that hardware sets in the same cycle (R207). -/
def execAonStatusWrite (who : Requester) (val : Nat) (s : State) (meet : Nat := 0) := s.act (·.writeSetup who 0x30100 4 val meet meet)

/-- KR_LOAD (R141), KR_CLEAR (R140) and KR_LOCK (R142): a write of KR_CTRL by the PF with that bit, which crosses as every always-on write
does. -/
def execKrLoad (s : State) := s.act (·.writeSetup .pf 0x10120 4 1 0 0)
def execKrClear (s : State) := s.act (·.writeSetup .pf 0x10120 4 2 0 0)
def execKrLock (s : State) := s.act (·.writeSetup .pf 0x10120 4 4 0 0)

/-- PART_GRANT (R219): a write of a partition's PART_GRANT register. -/
def Block.partGrantWrite (b : Block) (who : Requester) (p val : Nat) : Block :=
  if p < 8 then b.writeSetup who (match who with | .vf _ => 0x08 | _ => 0x100008 + 0x10000 * p) 4 val 0 0 else b

def execPartGrant (who : Requester) (part val : Nat) (s : State) := s.act (·.partGrantWrite who part val)

/-- A SETTINGS record applied: new = (old AND NOT MASK) OR (VALUE AND MASK) (R135), by the controller itself. -/
def Block.applySetting (b : Block) (r : List Byte) : Block :=
  let o := fieldAt r 0 4
  let m := fieldAt r 4 4
  let v := clearBits (b.word o) m ||| (fieldAt r 8 4 &&& m)
  b.writeWord { who := none, off := o, n := 4, val := v &&& rwMask o, hwMask := 0, hwVal := 0 }

end Sys2Proof.Machine
end

