-- ==== Sys2Proof/Machine/Image.lean ====
section
/-! DEFINITION. The load sequence (spec/04 R122 to R171): attempts and their failures, the tag check, step 11 and step 12, the landing of
DATA sections, the release edge, and the daisy chain. Repairs that a start makes to memory rows (spec/09 R407, R408) belong to the end of
the tests that bring the memories up. -/

namespace Sys2Proof.Machine

-- Attempts and failures (R138, R156 to R161) ----------------------------------------------------------------------------------

/-- An attempt on source number `k` begins; one on the chain input waits for a new stream. -/
def Block.enterAttempt (b : Block) (k : Nat) : Block :=
  { b with cfg := { b.cfg with
      phase := .attempt k, image := [], sections := [], plain := [], toLand := [], step12 := false
      chainArmed := b.source k == 2 } }

/-- An attempt fails: LAST_CAUSE, event 0x02 and CFG_ERR#, then the next source at once, or halt, or back-off (R156 to R159). -/
def Block.attemptFailed (b : Block) (k cause : Nat) : Block :=
  let b := (b.set .CFG_STATUS_LAST_CAUSE 0 cause).event 0x01 0x02
    [byteOf cause, byteOf (b.source k), byteOf (b.get .CFG_STATUS_ATTEMPTS)]
  let b := { b with cfg := { b.cfg with cfgErr := true } }
  if k + 1 < b.sources.length then b.enterAttempt (k + 1)
  else
    let b := b.enterAttempt k
    let phase := if b.on .CFG_STATUS_FAIL_MODE then LoadPhase.backoff (b.pwr.now + 100000000) else LoadPhase.halted
    { b with cfg := { b.cfg with phase := phase, chainArmed := false, retrying := b.on .CFG_STATUS_FAIL_MODE } }

/-- Steps 1 to 8 passed: the body is read. -/
def Block.enterBody (b : Block) (k : Nat) (image : List Byte) : Block :=
  { b with cfg := { b.cfg with phase := .body k, image := image, sections := sectionsOf image } }

/-- The package heads a chain: the bytes of the slot from IMAGE_LEN up to LENGTH are forwarded once its header has been read and step 2 has
passed (R163, R164). -/
def Block.forwardSlot (b : Block) (s : Nat) : Block :=
  let h := b.slotHead s
  if b.on .CFG_STATUS_CHAIN_FIRST && b.slotState s == slotValid && headerOk h then
    let rest := b.readNvm (slotBase s + imLen h) (min (b.slotLen s) Config.slotBytes - imLen h)
    { b with cfg := { b.cfg with chainOut := b.cfg.chainOut ++ rest } }
  else b

/-- Steps 1 to 8 on a slot, whose bytes read from offset `bad` on, if one is given, are uncorrectable: what has been read before is checked
first, and NVM_READ ends the attempt where the reading stops. -/
def Block.slotFault (b : Block) (s : Nat) (bad : Option Nat) : Option Nat :=
  match bad with
  | none => b.checkSlot s
  | some o =>
    if b.slotState s ≠ slotValid then some 0x0B
    else if o < 256 then some 0x0F
    else if o < imBody (b.slotHead s) then some ((b.checkHead (b.slotHead s)).getD 0x0F)
    else b.checkSlot s

/-- An attempt on a slot: steps 1 to 8 (R126 to R140). The remainder is forwarded once step 2 has passed, whatever follows (R164). -/
def Block.attemptSlot (b : Block) (k s : Nat) (bad : Option Nat) : Block :=
  let c := if bad.any (· < 256) then b else b.forwardSlot s
  match b.slotFault s bad with
  | some e => c.attemptFailed k e
  | none => c.enterBody k (b.slotImage s)

/-- An attempt on the chain input, once its header and section table have come in. -/
def Block.attemptChain (b : Block) (k : Nat) : Block :=
  match b.checkPlain b.cfg.chainIn with
  | some c => b.attemptFailed k c
  | none => b.enterBody k b.cfg.chainIn

/-- Enough of the segment has come for steps 2 to 8: a bad header, or header and section table. -/
def Block.chainReady (b : Block) : Bool :=
  let l := b.cfg.chainIn
  !b.cfg.chainArmed && decide (256 ≤ l.length) && (!headerOk l || decide (imBody l ≤ l.length))

/-- IMAGE_ATTEMPT (R138): the next source is read and steps 1 to 8 run; `nvmBad` is the slot offset of an uncorrectable read. -/
def Block.imageAttempt (b : Block) (nvmBad : Option Nat) : Block :=
  match b.cfg.phase with
  | .attempt k =>
    if b.source k = 2 then
      if b.chainReady then (b.bumpSat .CFG_STATUS_ATTEMPTS).attemptChain k else b
    else (b.bumpSat .CFG_STATUS_ATTEMPTS).attemptSlot k (b.source k) nvmBad
  | _ => b

def execImageAttempt (nvmBad : Option Nat) (s : State) := s.act (·.imageAttempt nvmBad)

/-- A new sequence: step 11 is repeated for what failed it (R161). -/
def Block.newSequence (b : Block) : Block :=
  ({ b with cfg := { b.cfg with tested := b.cfg.tested && b.cfg.selfTest == 15, chainLast := b.pwr.now } }).enterAttempt 0

/-- RETRY_BACKOFF_EXPIRY (R158, R161). -/
def Block.backoffExpiry (b : Block) : Block :=
  match b.cfg.phase with
  | .backoff due => if due ≤ b.pwr.now then b.newSequence else b
  | _ => b

def execRetryBackoffExpiry (s : State) := s.act (·.backoffExpiry)

-- Steps 11 and 12 (R134, R138) -----------------------------------------------------------------------------------------------------

/-- A section bound for tier S. -/
def forTierS (x : Section) : Bool := x.type == 0x06 && decide (0x10000000000 ≤ x.dest)

/-- A tier S destination lies wholly in the installed capacity of trained channels. DEDUCED: a range that runs on into the next channel is
accepted when the first channel holds 128 GiB, because its addresses are then all installed. -/
def Block.installed (b : Block) (a n : Nat) : Bool :=
  let c := (a - memBase 2) / 0x2000000000
  let e := (a + n - 1 - memBase 2) / 0x2000000000
  let top (c : Nat) : Nat := memBase (c + 2) + b.get .TS_CHAN_CAP_GIB c * 2 ^ 30
  decide (a + n ≤ 0x20000000000) && (List.range 8).all fun x => !decide (c ≤ x ∧ x ≤ e) ||
    (b.on .TS_CHAN_PRESENT x && decide (min (a + n) (memBase (x + 3)) ≤ top x))

/-- Step 12. -/
def Block.step12Ok (b : Block) : Bool := (b.cfg.sections.filter forTierS).all fun x => b.installed x.dest x.length

/-- With the image's own checks passed, step 11 is settled once the tests have ended, and step 12 once tier S has trained. -/
def Block.settleChecks (b : Block) : Block :=
  match b.cfg.phase with
  | .tagged k =>
    if !b.cfg.tested then b
    else if bits b.cfg.selfTest 0 2 ≠ 3 then b.attemptFailed k 0x0D
    else if bits b.cfg.selfTest 2 2 ≠ 3 then b.attemptFailed k 0x0E
    else if !b.cfg.tsTrained || b.cfg.step12 then b
    else if b.step12Ok then { b with cfg := { b.cfg with step12 := true } }
    else b.attemptFailed k 0x09
  | _ => b

-- Step 9 and 10 (R133, R136, R137, R143, R144, R777) ----------------------------------------------------------------------------------

/-- The part of hub SRAM a MILLER_CODE section names, in local physical memory (R777). -/
def codeAt (x : Section) : Nat := hubBase + (x.dest - 0x10000000)

/-- MILLER_CODE sections whose destination is hub SRAM. -/
def Block.codeSections (b : Block) : List Section := b.cfg.sections.filter fun x => x.type == 0x02 && codeOkAt x

/-- The decrypted contents of a section of the attempt. -/
def Block.sectionData (b : Block) (x : Section) : List Byte := sectionBytes b.cfg.plain (imBody b.cfg.image) x

/-- The sections of a type in the attempt's image. -/
def Block.sectionsOfType (b : Block) (t : Nat) : List Section := b.cfg.sections.filter fun x => x.type == t

/-- Frames of a bitstream as its map places them, all-zero ones not listed. -/
def framesFrom (bitstream : List Byte) : Nat → Nat → List Byte → Tab (List Byte)
  | 0, _, _ => []
  | n + 1, i, m =>
    let src := fieldAt (m.take 16) 4 4
    let l := if src = 0xFFFFFFFF then [] else slice bitstream src 128
    if allZero l then framesFrom bitstream n (i + 1) (m.drop 16) else (i, l) :: framesFrom bitstream n (i + 1) (m.drop 16)

/-- The bitstream goes into Tenter configuration memory, the fabric isolated (R143). -/
def Block.loadFrames (b : Block) : Block :=
  match b.sectionsOfType 0x04, b.sectionsOfType 0x05 with
  | x :: _, m :: _ =>
    let map := b.sectionData m
    { b with cfg := { b.cfg with
        frames := framesFrom (b.sectionData x) tenterFrames 0 (map.drop 0x10)
        upsets := []
        emap := map } }
  | _, _ => { b with cfg := { b.cfg with frames := [], upsets := [], emap := [] } }

/-- The tag failed: what the attempt wrote to hub SRAM and Tenter configuration memory is zeroed (R144). -/
def Block.wipeAttempt (b : Block) : Block :=
  let b := b.codeSections.foldl (fun b x => b.zeroMem (codeAt x) x.length) b
  if b.sectionsOfType 0x04 = [] then b else { b with cfg := { b.cfg with frames := [], upsets := [], emap := [] } }

/-- The tag passed: Miller code stands in hub SRAM, and the decrypted body is held. -/
def Block.holdSections (b : Block) (key : List Byte) : Block :=
  let b := { b with cfg := { b.cfg with plain := imagePlain key b.cfg.image } }
  b.codeSections.foldl (fun b x => b.writeMem (codeAt x) (b.sectionData x)) b

/-- Steps 9 and 10 on the image that has been read. DEDUCED: a key RAM cleared since step 7 fails the attempt with NO_KEY. -/
def Block.checkImage (b : Block) (k : Nat) (image : List Byte) : Block :=
  let b := { b with cfg := { b.cfg with image := image } }
  match b.imageKey with
  | none => b.wipeAttempt.attemptFailed k 0x08
  | some key =>
    match checkBody key (b.source k == 2) image with
    | some 0x0A => b.wipeAttempt.attemptFailed k 0x0A
    | some c => (b.holdSections key).attemptFailed k c
    | none =>
      let b := (b.holdSections key).loadFrames
      { b with cfg := { b.cfg with phase := .tagged k, toLand := b.sectionsOfType 0x06 } }.settleChecks

/-- IMAGE_TAG_CHECK (R138 steps 9 and 10): the whole body has been read; an uncorrectable NVM read of it fails the attempt. DEDUCED: what
the attempt wrote is then zeroed as for a failed tag (R144), which can no longer pass. -/
def Block.imageTagCheck (b : Block) (nvmBad : Bool) : Block :=
  match b.cfg.phase with
  | .body k =>
    if b.source k = 2 then
      match b.cfg.chainLen with
      | some n => if n ≤ b.cfg.chainIn.length then b.checkImage k (b.cfg.chainIn.take n) else b
      | none => b
    else if nvmBad then b.wipeAttempt.attemptFailed k 0x0F
    else b.checkImage k b.cfg.image
  | _ => b

def execImageTagCheck (s : State) (nvmBad : Bool := false) := s.act (·.imageTagCheck nvmBad)

-- Tests and training (R28, R71, R138 step 11, R339, R407, R408) ----------------------------------------------------------------------------

/-- The row-remap entries of a memory's rows in a STATE, by index. -/
def Block.rowEntries (b : Block) (k : Nat) (states : List Nat) : List Nat :=
  b.remapUsed.filter fun i =>
    decide (fieldAt (b.remapEntry i) 1 1 = remapWhere k 0) && states.contains (fieldAt (b.remapEntry i) 0 1)

/-- The key of a tier F row from pseudo-channel, BANK and ROW (the inverse of R337 and R886). -/
def tfKeyOf (pch bank row : Nat) : Nat :=
  let hi := (bits bank 4 2 <<< 14 ||| row) <<< 4 ||| bits bank 0 4
  hi * 32 + (pch ^^^ bits row 2 5)

/-- A stack that has trained: without KEEP_MEM its SOFT entries are hard-repaired, with event 0x24 each; with KEEP_MEM every entry is applied
to the controller again (R407). -/
def Block.repairStack (b : Block) (k : Nat) : Block :=
  if b.pwr.kept then
    let keys := (b.rowEntries k [0xFE, 0xFC]).map fun i =>
      let e := b.remapEntry i
      tfKeyOf (fieldAt e 2 1) (fieldAt e 3 1) (fieldAt e 4 4)
    { b with ms := { b.ms with remapped := Tab.put b.ms.remapped k (nub keys) } }
  else (b.rowEntries k [0xFE]).foldl (fun b i => (b.programNvm (remapBase + 16 * i) [0xFC]).event 0x40 0x24) b

/-- DIE_SELF_TEST_DONE (R138 step 11, R161): `passed` names the dies (bits 0, 1) and stacks (bits 2, 3) that passed; results of an earlier
sequence stand. -/
def Block.dieSelfTestDone (b : Block) (passed : Nat) : Block :=
  if b.pwr.mainUp && b.pwr.perst && !b.pwr.released && !b.cfg.tested then
    let old := b.cfg.selfTest
    let b := { b with cfg := { b.cfg with selfTest := old ||| passed % 16, tested := true } }
    let b := [0, 1].foldl (fun b k => if passed.testBit (2 + k) && !old.testBit (2 + k) then b.repairStack k else b) b
    b.settleChecks
  else b

def execDieSelfTestDone (passed : Nat) (s : State) := s.act (·.dieSelfTestDone passed)

/-- The faulty sectors of a channel's row that a table entry names. -/
def Block.rowFaults (b : Block) (c : Nat) (e : List Byte) : List Nat :=
  let d := b.dimm c
  (b.ms.sectors.filter fun x =>
    let o := x.1 * 32 - memBase (c + 2)
    memOf (x.1 * 32) == some (c + 2) &&
      decide (tsRank d o = fieldAt e 2 1 ∧ tsBank d o = fieldAt e 3 1 ∧ tsRow d o = fieldAt e 4 4)).map (·.1)

/-- A SOFT row of a channel is hard-repaired, with event 0x25; its contents are read first and written back, lost sectors poisoned (R408).
Without KEEP_MEM the row has no contents to keep. -/
def Block.repairRow (b : Block) (c i : Nat) : Block :=
  let e := b.remapEntry i
  let b := (b.rowFaults c e).foldl (fun b x => b.copySector x) b
  (b.programNvm (remapBase + 16 * i) [0xFC]).event 0x48 0x25

/-- A channel whose DIMM has trained: its capacity is mapped, and it serves unless its device marks took it out (R71, R339, R898). -/
def Block.trainChannel (b : Block) (c : Nat) (d : Dimm) : Block :=
  if d.cap = 0 || !d.trains then b
  else
    let b := (b.set .TS_CHAN_PRESENT c 1).set .TS_CHAN_CAP_GIB c (min d.cap 128)
    let b := b.set .TS_CHAN_IN_SERVICE c (b2n (b.get .TS_MARK_OUT_REASON c == 0))
    let b := { b with ms := { b.ms with dimms := Tab.put b.ms.dimms c d } }
    (b.rowEntries (c + 2) [0xFE]).foldl (fun b i => b.repairRow c i) b

/-- The rate of a channel pair: the highest that every DIMM fitted to it supports, as an MS_RATE code (R28). -/
def pairRate (dimms : List Dimm) (rates : List Nat) (n : Nat) : Nat :=
  let fitted := ([2 * n, 2 * n + 1] : List Nat).filter fun c => (dimms.getD c Dimm.none).cap != 0
  fitted.foldl (fun r c => min r (rates.getD c 0)) 3

/-- TIER_S_TRAINING_DONE (R134, R28, R339): every populated channel has finished training; `dimms` lists the DIMMs of the eight channels,
and `rates` the highest data rate that each supports, as an MS_RATE code. A pair of which neither channel has trained shows no rate. -/
def Block.tierSTrained (b : Block) (dimms : List Dimm) (rates : List Nat) : Block :=
  if b.pwr.mainUp && b.pwr.perst && !b.pwr.released && !b.cfg.tsTrained then
    let b := (List.range 8).foldl (fun b c => b.trainChannel c (dimms.getD c Dimm.none)) b
    let pair (n : Nat) : Nat := if b.pairTrained n then pairRate dimms rates n else 0
    let b := b.set .MS_RATE_PAIR 0 (pair 0 + 4 * pair 1 + 16 * pair 2 + 64 * pair 3)
    { b with cfg := { b.cfg with tsTrained := true } }.settleChecks
  else b

def execTierSTrainingDone (dimms : List Dimm) (rates : List Nat) (s : State) := s.act (·.tierSTrained dimms rates)

-- Landing (R145) --------------------------------------------------------------------------------------------------------------------

/-- A DATA section may land: tier F has trained, both stacks of it, or step 12 has passed. -/
def Block.canLand (b : Block) (x : Section) : Bool := if forTierS x then b.cfg.step12 else bits b.cfg.selfTest 2 2 == 3

/-- A DATA section is written to its destination. -/
def Block.landSection (b : Block) (x : Section) : Block := (b.writePhys x.dest (b.sectionData x)).2

/-- DATA_SECTION_LANDING (R145): after the tag has passed, every section that may land is read from the slot again, decrypted and written; an
uncorrectable NVM read fails the attempt before a byte of it lands. DESIGN CHOICE: the section is decrypted with the key of the first
reading, should the key RAM have been cleared since. -/
def Block.dataLanding (b : Block) (nvmBad : Bool) : Block :=
  match b.cfg.phase with
  | .tagged k =>
    if nvmBad && b.cfg.toLand.any b.canLand then b.attemptFailed k 0x0F else
    let now := b.cfg.toLand.filter b.canLand
    let later := b.cfg.toLand.filter fun x => !b.canLand x
    now.foldl (fun b x => b.landSection x) { b with cfg := { b.cfg with toLand := later } }
  | _ => b

def execDataSectionLanding (s : State) (nvmBad : Bool := false) := s.act (·.dataLanding nvmBad)

-- The release edge (R148 to R150, R154, R533, R860, R904) ---------------------------------------------------------------------------------

/-- EXTEST, EXTEST_PULSE, EXTEST_TRAIN, HIGHZ or CLAMP is loaded in the TAP (R859). -/
def tapHolds (op : Nat) : Bool := op == 0x00 || op == 0x03 || op == 0x04 || op == 0x05 || op == 0x06

/-- Everything the release edge waits for has come (R148, R860). -/
def Block.releaseReady (b : Block) : Bool :=
  b.cfg.tested && b.cfg.selfTest == 15 && b.cfg.tsTrained && b.cfg.step12 && b.cfg.toLand == [] && !tapHolds b.cfg.tap

/-- AUTO_ADVANCE (R154). -/
def Block.autoAdvance (b : Block) : Block :=
  let h := b.cfg.image
  if imAutoAdvance h && decide (b.arbValue < imVersion h) then b.arbWrite (imVersion h) else b

/-- The SETTINGS records, in table order and record order (R135). -/
def Block.applySettings (b : Block) : Block :=
  (b.sectionsOfType 0x01).foldl (fun b x => (settingsOf (b.sectionData x)).foldl (fun b r => b.applySetting r) b) b

/-- What the configuration registers and the controller keep of the image that was loaded (R147, R178, R181). -/
def Block.recordLoad (b : Block) (k : Nat) : Block :=
  let h := b.cfg.image
  let src := b.source k
  let gen := if src = 2 then 0 else b.slotGen src
  let b := (b.set .CFG_STATUS_DONE 0 1).set .CFG_STATUS_SOURCE 0 src
  let b := (b.set .LOADED_VERSION_VERSION 0 (imVersion h)).set .LOADED_BUILD_BUILD 0 (imBuild h)
  let b := (b.set .LOADED_GEN_GEN 0 gen).set .IMAGE_MARK_MARK 0 (ofLe (sha3 h))
  let at_ := match b.sectionsOfType 0x04 with | x :: _ => x.offset | [] => 0
  { b with cfg := { b.cfg with
      phase := .idle, retrying := false, cfgErr := false, cfgDone := true, bitstream := b.sectionsOfType 0x04 != []
      loadedGen := gen, loadedSlot := if src = 2 then none else some src
      loadedIv := imIv h, loadedBody := imBody h, loadedBits := at_ } }

/-- PRELOADED units at the release edge: every one after a KEEP_MEM reset, otherwise those that overlap a DATA destination. -/
def Block.markPreloaded (b : Block) : Block :=
  let units (k : Nat) : List (Nat × Nat) :=
    if b.pwr.kept then (if b.memPlaces k then [(0, b.memCap k)] else [])
    else
      let base := memBase k
      let hit (x : Section) : Nat × Nat :=
        ((x.dest - base) / unitBytes, min (b.memCap k) (ceilDiv (x.dest + x.length - base) unitBytes))
      let join (l : List (Nat × Nat)) (v : Nat × Nat) : List (Nat × Nat) := if v.1 < v.2 then ivCut v.1 v.2 l ++ [v] else l
      sortBy (fun x y => decide (x.1 ≤ y.1))
        (((b.sectionsOfType 0x06).filter fun x => decide (x.dest < memBase (k + 1)) &&
          decide (base < x.dest + x.length)).foldl (fun l x => join l (hit x)) [])
  let pre := ((List.range 10).map fun k => (k, units k)).filter fun e => e.2 != []
  { b with ms := { b.ms with preloaded := pre } }

/-- Each core with a nonzero entry address starts there (R149). -/
def Block.startCores (b : Block) : Block :=
  match b.sectionsOfType 0x03 with
  | [] => b
  | x :: _ =>
    let l := b.sectionData x
    [0, 1, 2, 3].foldl (fun b c =>
      let entry := fieldAt l (8 * c) 8
      if entry = 0 then b else (b.set .M_STATUS_RUNNING c 1).send (.coreStart c entry)) b

/-- The Mbary pins come on (R149): each port that SETTINGS have enabled starts its training. -/
def Block.portsOn (b : Block) : Block :=
  (List.range 8).foldl (fun b n => if b.on .PORT_CFG_ENABLE n ∧ b.get .PORT_CFG_MODE n ≠ 0 then b.portEnable n (b.get .PORT_CFG_MODE n) else b) b

/-- RELEASE_EDGE (R148, R149): the counter is advanced, SETTINGS apply, and one edge starts the package. -/
def Block.releaseEdge (b : Block) : Block :=
  match b.cfg.phase with
  | .tagged k =>
    if !b.releaseReady then b
    else
      let h := b.cfg.image
      let b := (b.autoAdvance.applySettings.recordLoad k).markPreloaded
      let b := ({ b with pwr := { b.pwr with released := true } }).gmcRelease
      let b := ((b.lockDie 0).lockDie 1).startCores.portsOn.drivePins
      let b := b.event 0x01 0x01 (leBytes 8 (b.get .CFG_STATUS_SOURCE) ++ leBytes 8 (imVersion h))
      if b.pwr.zeroOwed then ({ b with pwr := { b.pwr with zeroOwed := false } }).event 0x03 0x09 [1] else b
  | _ => b

def execReleaseEdge (s : State) := s.act (·.releaseEdge)

-- The daisy chain (R162 to R171) -------------------------------------------------------------------------------------------------------

/-- A byte that belongs to the segment under way: collected, or forwarded once the segment is whole; nothing more is taken or forwarded when
step 2 fails (R162, R164). -/
def Block.chainTake (b : Block) (x : Byte) : Block :=
  let c := b.cfg
  if c.chainMute || c.chainIn == [] then b
  else match c.chainLen with
    | some n =>
      if c.chainIn.length < n then { b with cfg := { c with chainIn := c.chainIn ++ [x] } }
      else { b with cfg := { c with chainOut := c.chainOut ++ [x] } }
    | none =>
      let l := c.chainIn ++ [x]
      if l.length < 256 then { b with cfg := { c with chainIn := l } }
      else if headerOk l then { b with cfg := { c with chainIn := l, chainLen := some (imLen l) } }
      else { b with cfg := { c with chainIn := l, chainMute := true } }

/-- The attempt that runs is reading its segment from the chain input and has not read all of it. -/
def Block.segmentOpen (b : Block) : Bool :=
  (match b.cfg.phase with | .attempt k => b.source k == 2 | .body k => b.source k == 2 | _ => false) &&
    !(b.cfg.chainLen.any fun n => decide (n ≤ b.cfg.chainIn.length))

/-- CHAIN_BYTE (R162, R165, R166): a byte arrives on CFG_IN. The first one after at least 1 µs of idle clock, if no segment is being read,
begins a stream: an attempt that waits for one takes it as its segment. DEDUCED: a stream for which no attempt waits is neither taken nor
forwarded. -/
def Block.chainByte (b : Block) (x : Byte) : Block :=
  if !(b.pwr.mainUp && b.pwr.perst) then b
  else
    let fresh := match b.cfg.chainAt with | none => true | some t => decide (t + 1000 ≤ b.pwr.now)
    let b := { b with cfg := { b.cfg with chainAt := some b.pwr.now } }
    if fresh && b.cfg.chainArmed then
      { b with cfg := { b.cfg with chainIn := [x], chainLen := none, chainMute := false, chainArmed := false } }
    else if fresh && !b.segmentOpen then { b with cfg := { b.cfg with chainMute := true } }
    else b.chainTake x

def execChainByte (byte : Byte) (s : State) := s.act (·.chainByte byte)

/-- The chain input has been silent beyond its limits (R165): no first byte for 1,000 ms, or a pause of more than 10 ms in the segment. -/
def Block.chainSilent (b : Block) : Bool :=
  let c := b.cfg
  if c.chainArmed then decide (c.chainLast + 1000000000 ≤ b.pwr.now)
  else
    let whole := match c.chainLen with | some n => decide (n ≤ c.chainIn.length) | none => false
    !whole && !c.chainMute && decide (c.chainAt.getD 0 + 10000000 < b.pwr.now)

/-- CHAIN_TIMEOUT (R165): the attempt on the chain input fails with CHAIN_TIMEOUT. -/
def Block.chainTimeout (b : Block) : Block :=
  match b.cfg.phase with
  | .attempt k => if b.source k = 2 ∧ b.chainSilent then (b.bumpSat .CFG_STATUS_ATTEMPTS).attemptFailed k 0x0C else b
  | .body k => if b.source k = 2 ∧ b.chainSilent then b.attemptFailed k 0x0C else b
  | _ => b

def execChainTimeout (s : State) := s.act (·.chainTimeout)

end Sys2Proof.Machine
end

