-- ==== Sys2Proof/Machine/HostPort.lean ====
section
/-! DEFINITION. The host port (spec/05 R182 to R194, R881 to R883; spec/03 R63 to R66, R885): configuration requests, function-level
resets, power states, the link coming up and going down, completions of host reads and of ATS translations, and invalidations. -/

namespace Sys2Proof.Machine

-- Failed and completed host reads (R278, R279, R280, R881) --------------------------------------------------------------------

/-- Bytes in pieces of 64. -/
def descPieces : Nat → List Byte → List (List Byte)
  | 0, _ => []
  | n + 1, l => padTo 64 l :: descPieces n (l.drop 64)

/-- The eight words of a line. -/
def lineWords (l : List Byte) : List Nat := (List.range 8).map fun k => fieldAt l (8 * k) 8

/-- What a host read that has ended gave: its data, or nothing for a failed host read. -/
def Block.readResult (b : Block) (which : HostRead) (data : Option (List Byte)) : Block :=
  match which with
  | .line p l => b.lineData p l (data.map lineWords)
  | .fetch p r => b.fetchData (.host p r) (data.map fun l => descPieces (ceilDiv l.length 64) l)
  | .data id =>
    match b.job id with
    | none => b
    | some j =>
      match data with
      | some l => (b.copyWrite j (padTo (copyPiece j.desc j.next) l) none).serve
      | none => (b.copyFail j stPoison 0x21 0).serve
  | .slot => b.slotData data

/-- The oldest outstanding read for a purpose ends; a response that is to be sunk is dropped (R74). -/
def Block.readEnds (b : Block) (which : HostRead) (data : Option (List Byte)) : Block :=
  match b.readDone which with
  | some (true, b) => b.readResult which data
  | some (false, b) => b
  | none => b

/-- HOST_READ_COMPLETION (R881): `ok` is false for Unsupported Request or Completer Abort status and for poisoned data. -/
def execHostReadCompletion (which : HostRead) (ok : Bool) (data : List Byte) (s : State) :=
  s.act (·.readEnds which (if ok then some data else none))

/-- HOST_READ_TIMEOUT (R881). -/
def execHostReadTimeout (which : HostRead) (s : State) := s.act (·.readEnds which none)

-- ATS (R182, R187, R188, R281, R883) ----------------------------------------------------------------------------------------------

/-- A translation joins the cache of 1,024; the oldest leaves when it is full. -/
def Block.cacheAts (b : Block) (fn page : Nat) : Block :=
  let l := b.link.atc.filter (· ≠ (fn, page))
  let l := if l.length < 1024 then l else l.tail
  { b with link := { b.link with atc := l ++ [(fn, page)] } }

/-- The oldest held access of a kind on a page of a function. -/
def Block.heldAccess (b : Block) (fn page : Nat) (which : HostAccess) : Option HeldAccess :=
  b.link.waits.find? fun w => w.which == which && w.fn == fn && w.addr / 4096 == page

/-- A held access leaves the list. -/
def Block.dropHeld (b : Block) (h : HeldAccess) : Block := { b with link := { b.link with waits := b.link.waits.erase h } }

/-- A read whose translation has been refused, or that can no longer be sent, fails; a descriptor fetch fails after the older ones of its
ring. -/
def Block.failHeld (b : Block) (which : HostRead) : Block :=
  match which with
  | .fetch p r => b.failFetch (.host p r)
  | _ => b.readResult which none

/-- A data write whose translation has been granted is sent, or stalls; one that has been refused ends its COPY (R883). -/
def Block.settleWrite (b : Block) (h : HeldAccess) (id : Nat) (granted : Bool) : Block :=
  match b.job id with
  | none => b
  | some j =>
    if !granted then (b.copyFail j stPoison 0x24 0).serve
    else if b.canPost (payloads512 h.len) then ((b.dataOut h.fn h.addr h.bytes).copyMoved j h.len h.bad).serve
    else b.stall (.data h)

/-- The records held for a completion ring are tried again in order; when the translation was refused the first is lost and the ring halts
(R281). -/
def Block.settleRecords (b : Block) (q : CqRef) (granted : Bool) : Block :=
  let mine := b.link.held.filter fun h => h.cq == q
  let b := { b with link := { b.link with held := b.link.held.filter fun h => h.cq != q } }
  let again (b : Block) (l : List HeldRec) : Block := l.foldl (fun b h => b.writeRecord h.rec_ h.seq h.entry) b
  match mine, granted with
  | [], _ => b
  | l, true => again b l
  | h :: l, false => again ((b.refuseRecord q).retire h.rec_.sq h.seq) l

/-- TRANSLATION_COMPLETION (R187): the access that waited for a page of a function goes on, or is a failed read or a refused write. -/
def Block.translated (b : Block) (fn page : Nat) (granted : Bool) (which : HostAccess) : Block :=
  match which with
  | .record p r =>
    let q := CqRef.host p r
    if (b.link.held.any fun h => h.cq == q) && b.partFn p == fn && b.cqPage p r == page then
      (if granted then b.cacheAts fn page else b).settleRecords q granted
    else b
  | .read w =>
    match b.heldAccess fn page which with
    | none => b
    | some h => if granted then ((b.cacheAts fn page).dropHeld h).issueRead w h.fn h.addr h.len else (b.dropHeld h).failHeld w
  | .dataWrite id =>
    match b.heldAccess fn page which with
    | none => b
    | some h => ((if granted then b.cacheAts fn page else b).dropHeld h).settleWrite h id granted

def execTranslationCompletion (fn page : Nat) (granted : Bool) (which : HostAccess) (s : State) :=
  s.act (·.translated fn page granted which)

/-- ATS_INVALIDATE (R188): the translations of `count` pages go, and the Invalidation Completion is sent once no read that used them is
outstanding. Writes are posted, so none that used them is outstanding. -/
def Block.atsInvalidate (b : Block) (fn page count : Nat) : Block :=
  let hit (p : Nat) : Bool := decide (page ≤ p ∧ p < page + count)
  let using_ := (b.link.reads.filter fun r => r.fn == fn && (List.range count).any fun i =>
    decide (r.addr < (page + i + 1) * 4096 ∧ (page + i) * 4096 < r.addr + r.len)).map (·.id)
  let b := { b with link := { b.link with atc := b.link.atc.filter fun e => !(e.1 == fn && hit e.2) } }
  if using_ = [] then b.send (.atsDone fn) else { b with link := { b.link with invs := b.link.invs ++ [(fn, using_)] } }

def execAtsInvalidate (fn page count : Nat) (s : State) := s.act (·.atsInvalidate fn page count)

-- The link (R182, R183, R190, R194, R243, R882) -----------------------------------------------------------------------------------------

/-- A held host access that can no longer be sent: a failed read or a refused write. -/
def Block.failWait (b : Block) (h : HeldAccess) : Block :=
  match h.which with
  | .read w => b.failHeld w
  | .dataWrite id => b.settleWrite h id false
  | .record _ _ => b

/-- Doorbell-line reads. R280 does not apply to those that fail with the link (R882). -/
def isLine : HostRead → Bool
  | .line _ _ => true
  | _ => false

/-- A stalled posted write can no longer be sent: an interrupt is discarded, a record and a data write are refused (R882). -/
def Block.failStalled (b : Block) (x : Stalled) : Block :=
  match x with
  | .msix _ _ => b
  | .record h => b.writeRecord h.rec_ h.seq h.entry
  | .data h => b.failWait h

/-- The accesses and records of the functions and partitions named that have not left can no longer be sent (R882). -/
def Block.failHeldOf (b : Block) (fn : Nat → Bool) (part : Nat → Bool) : Block :=
  let mine (x : Stalled) : Bool := match x with
    | .msix f _ => fn f
    | .record h => (match h.cq with | .host p _ => part p | .core _ => false)
    | .data h => fn h.fn
  let lost := b.link.waits.filter fun w => fn w.fn
  let unsent := (b.link.tagless.filter fun r => fn r.fn && !isLine r.which).map (·.which)
  let dead := b.link.stalled.filter mine
  let b := { b with link := { b.link with
      waits := b.link.waits.filter fun w => !fn w.fn
      tagless := b.link.tagless.filter fun r => !fn r.fn
      stalled := b.link.stalled.filter fun x => !mine x } }
  let lineWait (w : HeldAccess) : Bool := match w.which with | .read r => isLine r | _ => false
  let b := unsent.foldl (fun b w => b.failHeld w) b
  let b := (lost.filter fun w => !lineWait w).foldl (fun b w => b.failWait w) b
  let rings := nub ((b.link.held.map (·.cq)).filter fun q => match q with | .host p _ => part p | .core _ => false)
  let b := rings.foldl (fun b q => b.settleRecords q false) b
  dead.foldl (fun b x => b.failStalled x) b

/-- HOST_LINK_DOWN (R882): the link registers read as down, CXL lines and translations are gone, and every outstanding read and held
access fails. -/
def Block.hostLinkDown (b : Block) : Block :=
  if b.get .HOST_LINK_RATE = 0 then b
  else
    let b := ((b.set .HOST_LINK_RATE 0 0).set .HOST_LINK_WIDTH 0 0).set .HOST_LINK_FLIT 0 0
    let b := b.set .HOST_LINK_CXL_CACHE 0 0
    let lost := (b.link.reads.filter fun r => !r.sunk && !isLine r.which).map (·.which)
    let b := { b with link := { b.link with reads := [], invs := [], lines := [], atc := [], retry := [] } }
    let b := lost.foldl (fun b w => b.readResult w none) b
    b.failHeldOf (fun _ => true) fun _ => true

def execHostLinkDown (s : State) := s.act (·.hostLinkDown)

/-- The lines of a partition in snooped mode that it holds (R243) are read. -/
def Block.holdLines (b : Block) (p : Nat) : Block :=
  if b.snooping p then
    ((List.range 8).filter fun l => b.lineUsed p l (· != rOff)).foldl (fun b l =>
      if (p, l) ∈ b.link.lines then b else b.readLine p l) b
  else b

/-- Posted writes a stalled item takes. -/
def Block.stalledCost (b : Block) : Stalled → Nat
  | .msix _ _ => 1
  | .record h => if b.needsCredits h.cq then b.recordCost h.cq else 0
  | .data h => payloads512 h.len

/-- A stalled item leaves, its credits granted; what it needed before it stalled is looked at again. -/
def Block.stalledGo (b : Block) (x : Stalled) : Block :=
  match x with
  | .msix fn v => if b.get .HOST_LINK_RATE = 0 then b else b.msixOut fn v
  | .record h => b.recordGo h
  | .data h =>
    match h.which, b.job (match h.which with | .dataWrite id => id | _ => 0) with
    | .dataWrite _, some j =>
      if b.hostTranslated h.fn h.addr then ((b.dataOut h.fn h.addr h.bytes).copyMoved j h.len h.bad).serve
      else ({ b with link := { b.link with waits := b.link.waits ++ [h] } }).send (.atsRequest h.fn (h.addr / 4096))
    | _, _ => b

/-- Stalled posted traffic leaves in order while credits last (R823). What stalls meanwhile joins the end. -/
def Block.drainStalled : Nat → Block → Block
  | 0, b => b
  | n + 1, b =>
    match b.link.stalled with
    | [] => b
    | x :: _ =>
      let fits : Bool := match b.link.credits with | none => true | some c => decide (b.stalledCost x ≤ c)
      if fits then
        let b := b.stalledGo x
        Block.drainStalled n { b with link := { b.link with stalled := b.link.stalled.tail } }
      else b

/-- The host grants posted-write credits: stalled traffic goes on (R823). -/
def Block.hostFreed (b : Block) (n : Nat) : Block :=
  let b := { b with link := { b.link with credits := b.link.credits.map (· + n) } }
  Block.drainStalled (2 * b.link.stalled.length + b.link.credits.getD 0) b

/-- The flume to the host port. DESIGN CHOICE: no rule numbers the flumes. -/
def hostFlume : Nat := 0

/-- FLUME_WRITE_RESUMED (R37, R823): a flume takes `freed` more entries. In the flume to the host port they are posted-write credits of the
host; any other flume holds nothing that the state does not hold at its two ends, so what its writer waits to do is tried again. -/
def Block.flumeResumed (b : Block) (flume freed : Nat) : Block :=
  if freed = 0 then b else if flume = hostFlume then b.hostFreed freed else b.serve

def execFlumeWriteResumed (flume freed : Nat) (s : State) := s.act (·.flumeResumed flume freed)

/-- CXL.cache is negotiated: at 64 GT/s, in 256-byte flits, or at 32 GT/s, in 68-byte flits and so outside flit mode (R190). -/
def cxlCache (rate : Nat) (flit cxl : Bool) : Bool := cxl && (rate == 6 || (rate == 5 && !flit))

/-- HOST_LINK_UP (R182, R183, R190, R194, R882): the link has trained to at least x4; `rate` is its HOST_LINK.RATE code, `cxl` says that the
partner offers CXL.cache, and `credits` is how many posted writes the host takes before it frees more, none if it withholds no credit
(R823). Doorbell lines are held again where they are snooped. -/
def Block.hostLinkUp (b : Block) (rate width : Nat) (flit cxl : Bool) (credits : Option Nat) : Block :=
  if b.pwr.mainUp && b.pwr.perst && decide (1 ≤ rate ∧ rate ≤ 6) && (width == 4 || width == 8 || width == 16) then
    let b := (b.set .HOST_LINK_RATE 0 rate).set .HOST_LINK_WIDTH 0 width
    let b := (b.set .HOST_LINK_FLIT 0 (b2n (flit || rate == 6))).set .HOST_LINK_CXL_CACHE 0 (b2n (cxlCache rate flit cxl))
    let b := if b.on .HOST_LINK_CXL_CACHE then b else { b with link := { b.link with lines := [] } }
    let b := { b with link := { b.link with credits := credits } }
    ((List.range 8).foldl (fun b p => b.holdLines p) b).hostFreed 0
  else b

def execHostLinkUp (rate width : Nat) (flit cxl : Bool) (s : State) (credits : Option Nat := none) := s.act (·.hostLinkUp rate width flit cxl credits)

-- Functions (R63, R182, R184, R185, R882) -------------------------------------------------------------------------------------------------

/-- A function exists: the PF, or a VF in use. -/
def Block.fnLive (b : Block) (fn : Nat) : Bool := fn == 0 || b.vfLive fn

/-- D3HOT_ENTRY and D3HOT_EXIT (R182, R184): a function's power state alone. -/
def Block.setD3 (b : Block) (fn : Nat) (on : Bool) : Block :=
  if b.pwr.released && b.fnLive fn then
    { b with link := { b.link with d3 := if on then setBit b.link.d3 fn else clrBit b.link.d3 fn } }
  else b

def execD3hotEntry (fn : Nat) (s : State) := s.act (·.setD3 fn true)
def execD3hotExit (fn : Nat) (s : State) := s.act (·.setD3 fn false)

/-- The PCIe state of a function that is reset or ceases to exist. -/
def Block.resetFn (b : Block) (fn : Nat) : Block :=
  { b with link := { b.link with
      d3 := clrBit b.link.d3 fn
      ats := clrBit b.link.ats fn
      msixOn := clrBit b.link.msixOn fn
      atc := b.link.atc.filter fun e => e.1 != fn
      unmasked := b.link.unmasked.filter fun e => e.1 != fn
      pba := b.link.pba.filter fun e => e.1 != fn
      msixTab := b.link.msixTab.filter fun e => e.1 / 2048 != fn
      bars := b.link.bars.filter fun e => e.1 / 2 != fn } }

/-- VF Enable and NumVFs take new values (R185, R882): a partition whose VF ceases to exist while a ring of it is not OFF can make no
host access until its rings are OFF or its VF is back, which holds its doorbell lines again where they are snooped (R243). -/
def Block.setVfs (b : Block) (enable : Bool) (numVfs : Nat) : Block :=
  let was := (List.range 8).filter fun p => b.vfLive (p + 1)
  let b := { b with link := { b.link with vfEnable := enable, numVfs := numVfs } }
  let gone := was.filter fun p => !b.vfLive (p + 1)
  let b := gone.foldl (fun b p => b.resetFn (p + 1)) b
  let orph := (List.range 8).foldl (fun m p =>
    if b.vfLive (p + 1) then clrBit m p else if gone.contains p && !b.ringsOff p then setBit m p else m) b.link.orphans
  let back := (List.range 8).filter fun p => b.link.orphans.testBit p && !orph.testBit p
  let b := { b with link := { b.link with orphans := orph } }
  let b := back.foldl (fun b p => b.holdLines p) b
  let cut := gone.filter fun p => orph.testBit p
  if cut = [] then b else b.failHeldOf (fun fn => cut.contains (fn - 1) && fn != 0) fun p => cut.contains p

/-- Bytes of BAR0 and BAR2 (R186). -/
def barSize (fn bar : Nat) : Nat :=
  if bar = 0 then (if fn = 0 then 2 ^ 24 else 2 ^ 16) else if fn = 0 then 2 ^ 16 else 2 ^ 13

/-- The number of a BAR in the table of base addresses. -/
def barKey (fn bar : Nat) : Nat := fn * 2 + min bar 1

/-- What a function's configuration space gives for an item (R182, R185, R186). A BAR reads as its base with the attributes of a 64-bit,
non-prefetchable memory space in its low four bits. PRESUMED, from PCI Express: the code of those attributes, 4. -/
def Block.cfgValue (b : Block) (fn : Nat) : CfgItem → Nat
  | .vendorId => 0x1FA2
  | .deviceId => if fn = 0 then 0x4400 else 0x4401
  | .classCode => 0x120000
  | .revisionId => b.get .IDENT_STEPPING
  | .subVendorId => 0x1FA2
  | .subDeviceId => if fn = 0 then 0x4400 else 0x4401
  | .bar n => Tab.get b.link.bars (barKey fn n) 0 + 4
  | .totalVfs => if fn = 0 then 8 else 0
  | .vfStride => b2n (fn == 0)
  | .firstVfOffset => b2n (fn == 0)
  | .numVfs => if fn = 0 then b.link.numVfs else 0
  | .vfEnable => b2n (fn == 0 && b.link.vfEnable)
  | .maxPayload => 512
  | .maxReadRequest => 4096
  | .tags => pcieTags
  | .msixVectors => msixSize fn
  | .msixEnable => b2n (b.link.msixOn.testBit fn)
  | .atsUnit => 4096
  | .atsQueueDepth => 32
  | .atsEnable => b2n (b.link.ats.testBit fn)
  | .noSoftReset => 1
  | .powerState => if b.link.d3.testBit fn then 3 else 0
  | .aer => 1
  | .acs => 1

/-- A write of an item: a BAR takes a base aligned to its size, whose low bits read as zero; nothing else of these is writable so. -/
def Block.cfgWrite (b : Block) (fn v : Nat) : CfgItem → Block
  | .bar n => { b with link := { b.link with bars := Tab.put b.link.bars (barKey fn n) (v % 2 ^ 64 / barSize fn n * barSize fn n) } }
  | _ => b

/-- Where BAR2 holds the PBA (R186). -/
def pbaBase (fn : Nat) : Nat := if fn = 0 then 0x8000 else 0x1000

/-- A word of four bytes of BAR2 (R186): the MSI-X table from 0, the PBA at `pbaBase`, zero elsewhere. PRESUMED, from PCI Express: a table
entry is 16 bytes, message address, data and a word whose bit 0 masks the vector; the PBA has a bit for each vector. -/
def Block.bar2Word (b : Block) (fn o : Nat) : Nat :=
  let vec := o / 16
  let e := Tab.get b.link.msixTab (msixKey fn vec) (0, 0)
  if vec < msixSize fn then
    match o / 4 % 4 with
    | 0 => e.1 % 2 ^ 32
    | 1 => e.1 / 2 ^ 32
    | 2 => e.2
    | _ => b2n (decide ((fn, vec) ∉ b.link.unmasked))
  else if pbaBase fn ≤ o ∧ o < pbaBase fn + msixSize fn / 8 then
    ((List.range 32).map fun i => if (fn, (o - pbaBase fn) / 4 * 32 + i) ∈ b.link.pba then 2 ^ i else 0).foldl (· + ·) 0
  else 0

/-- A write of a word of BAR2: of the MSI-X table; the PBA is read only. -/
def Block.bar2Write (b : Block) (fn o v : Nat) : Block :=
  let vec := o / 16
  let e := Tab.get b.link.msixTab (msixKey fn vec) (0, 0)
  let put (e : Nat × Nat) : Block := { b with link := { b.link with msixTab := Tab.put b.link.msixTab (msixKey fn vec) e } }
  if msixSize fn ≤ vec then b
  else match o / 4 % 4 with
    | 0 => put (e.1 / 2 ^ 32 * 2 ^ 32 + v % 2 ^ 32, e.2)
    | 1 => put (e.1 % 2 ^ 32 + v % 2 ^ 32 * 2 ^ 32, e.2)
    | 2 => put (e.1, v % 2 ^ 32)
    | _ => if v.testBit 0 then { b with link := { b.link with unmasked := b.link.unmasked.filter (· ≠ (fn, vec)) } }
      else b.msixUnmask fn (some vec)

/-- The value that a request served after the release edge returns. -/
def Block.cfgRead (b : Block) : CfgRequest → Nat
  | .read fn item => if b.fnLive fn then b.cfgValue fn item else 0
  | .bar2Read fn o => if b.fnLive fn then b.bar2Word fn (o / 4 * 4) else 0
  | _ => 0

/-- A request served after the release edge. -/
def Block.serveCfg (b : Block) (r : CfgRequest) : Block :=
  match r with
  | .read _ _ => b
  | .write fn item v => if b.fnLive fn then b.cfgWrite fn v item else b
  | .vfEnable e n => if n ≤ 8 then b.setVfs e n else b
  | .atsEnable fn e =>
    if !b.fnLive fn then b
    else if e then { b with link := { b.link with ats := setBit b.link.ats fn } }
    else { b with link := { b.link with ats := clrBit b.link.ats fn, atc := b.link.atc.filter fun x => x.1 != fn } }
  | .msixEnable fn e =>
    if !b.fnLive fn then b
    else if e then b.msixUnmask fn none
    else { b with link := { b.link with msixOn := clrBit b.link.msixOn fn } }
  | .msixMask fn v => { b with link := { b.link with unmasked := b.link.unmasked.filter (· ≠ (fn, v)) } }
  | .bar2Read _ _ => b
  | .bar2Write fn o v => if b.fnLive fn then b.bar2Write fn (o / 4 * 4) v else b

/-- CONFIGURATION_REQUEST (R63): answered with Configuration Request Retry Status until the release edge, and served from then on. -/
def Block.cfgRequest (b : Block) (r : CfgRequest) : Block :=
  if b.get .HOST_LINK_RATE = 0 then b
  else if !b.pwr.released then b.send .cfgRetry
  else (b.serveCfg r).send (.cfgServed (b.cfgRead r))

def execConfigurationRequest (req : CfgRequest) (s : State) := s.act (·.cfgRequest req)

-- Function-level resets (R65, R66, R75 to R77, R116, R885, R894) ---------------------------------------------------------------------------

/-- VF_FLR (R65, R198): the partition of a VF is reset; a service-owned one is not. -/
def Block.vfFlr (b : Block) (m : Nat) : Block :=
  if b.pwr.released && b.vfLive m then
    let b := b.resetFn m
    if b.get .PART_GRANT_OWNER (m - 1) = 2 then b else b.partReset (m - 1)
  else b

def execVfFlr (vf : Nat) (s : State) := s.act (·.vfFlr vf)

/-- The grant and placement of a host-owned partition return to reset, its units FREE and not zeroed (R116, R885), its sluices at once
(R894), the pawls that its range loses or gains cleared (R326). -/
def Block.freePart (b : Block) (p : Nat) : Block :=
  let base := b.get .PART_HOP_PAWL_BASE p
  let n := b.get .PART_HOP_PAWL_COUNT p
  let b := b.resetRegs fun f i => !(f.partOf i == some p && (!f.desc.f || f.desc.star) && !f.desc.live && f != .PART_STATUS_RESETTING &&
    !ringField f)
  let b := (b.setRuns p []).movePawls base n (b.get .PART_HOP_PAWL_BASE p) (b.get .PART_HOP_PAWL_COUNT p)
  let b := { b with ms := { b.ms with quotas := Tab.del b.ms.quotas p } }
  (List.range 10).foldl (fun b k => b.stopSluice p k) b
where
  /-- Ring registers, which keep their values until the reset has completed (R73). -/
  ringField (f : Fld) : Bool := f.desc.part == 32

/-- PF_FLR (R65, R66): every host-owned partition is reset and loses its grant and placement; fields that do not survive return to reset,
those of service-owned partitions excepted; the PF's own state and its VFs are gone. -/
def Block.pfFlr (b : Block) : Block :=
  if !b.pwr.released then b
  else
    let owner (p : Nat) : Nat := b.get .PART_GRANT_OWNER p
    let host := (List.range 8).filter fun p => owner p == 1
    let b' := host.foldl (fun b p => (b.partReset p).freePart p) b
    let keep (f : Fld) (i : Nat) : Bool := f.desc.f || f.desc.live ||
      (match f.partOf i with | some p => owner p != 0 | none => false)
    let b' := (b'.resetRegs keep).clearKr.setVfs false 0
    (b'.resetFn 0)

def execPfFlr (s : State) := s.act (·.pfFlr)

end Sys2Proof.Machine
end

