-- ==== Sys2Proof/Machine/Mgmt.lean ====
section
/-! DEFINITION. Management (spec/05 R223 to R237, spec/19 R855 to R864): the MCTP control commands, the Oszoed commands, the SPDM
responder, the TAP and its MCTP pipe, and the I2C port. Message layouts that the spec leaves to DMTF's standards are PRESUMED. -/

namespace Sys2Proof.Machine

-- Bindings and responses (R223, R224, R861, R862) -----------------------------------------------------------------------------

/-- The number of a binding: 0 PCIe VDM, 1 SMBus/I2C, whose packets the TAP carries too (R861). -/
def bindingNo : Binding → Nat
  | .vdm => 0
  | .i2c => 1
  | .tap => 1

/-- A message on a binding is taken: the hub is up, and the binding enabled. The TAP carries packets of the SMBus/I2C binding. While the
package halts, only the TAP and the I2C port answer (R157, R160). -/
def Block.mctpUp (b : Block) (via : Binding) : Bool :=
  b.pwr.mainUp && b.pwr.perst &&
    match via with
    | .vdm => b.on .GLOBAL_CTRL_VDM_EN && b.get .HOST_LINK_RATE != 0 && b.cfg.phase != .halted
    | .i2c => b.on .GLOBAL_CTRL_SMBUS_EN
    | .tap => b.on .GLOBAL_CTRL_SMBUS_EN && b.cfg.tap == 0x20

/-- One step of the packet error code: CRC-8 with x^8 + x^2 + x + 1. -/
def pecByte (c x : Nat) : Nat :=
  (List.range 8).foldl (fun c _ => if c < 128 then 2 * c else (2 * c) % 256 ^^^ 7) (c ^^^ x)

/-- PRESUMED (SMBus). The packet error code of some bytes. -/
def pec (l : List Byte) : Nat := l.foldl (fun c x => pecByte c x.toNat) 0

/-- Bytes in pieces of 64, at least one. -/
def payloads : Nat → List Byte → List (List Byte)
  | 0, _ => []
  | n + 1, l => if l.length ≤ 64 then [l] else l.take 64 :: payloads n (l.drop 64)

/-- PRESUMED (MCTP base, SMBus/I2C binding). A packet of a response: to the requester's address and endpoint, with its tag. -/
def Block.smbusPacket (b : Block) (i n : Nat) (l : List Byte) : List Byte :=
  let (addr, eid, tag) := b.mgmt.tapFrom
  let flags := b2n (i == 0) * 128 + b2n (i + 1 == n) * 64 + i % 4 * 16 + tag
  let body := [byteOf (2 * addr), 0x0F, byteOf (l.length + 5), byteOf (2 * b.get .GLOBAL_CTRL_I2C_ADDR + 1), 0x01, byteOf eid,
    byteOf (b.get .MCTP_EID_EID), byteOf flags] ++ l
  body ++ [byteOf (pec body)]

/-- The bytes of a packet as Capture-DR gives them: VALID on each, START on the first (R862). -/
def pipeWords : List Byte → List Nat
  | [] => []
  | x :: r => (768 + x.toNat) :: r.map fun y => 512 + y.toNat

/-- The packets of a response on PCIe VDM or the I2C bus: payloads of at most 64 bytes, each with its number and how many there are (R224). -/
def packets (binding : Nat) (m : List Byte) : List Out :=
  let ps := payloads (m.length / 64 + 1) m
  (List.range ps.length).map fun i => Out.mctp binding i ps.length (ps.getD i [])

/-- A response goes back by the path its request came (R862). -/
def Block.respond (b : Block) (via : Binding) (m : List Byte) : Block :=
  match via with
  | .tap =>
    let ps := payloads (m.length / 64 + 1) m
    let words := (List.range ps.length).flatMap fun i => pipeWords (b.smbusPacket i ps.length (ps.getD i []))
    { b with mgmt := { b.mgmt with tapOut := b.mgmt.tapOut ++ words } }
  | _ => b.sendAll (packets (bindingNo via) m)

/-- Something done for a message that has been taken. -/
def Block.onMessage (b : Block) (via : Binding) (f : Block → Block) : Block := if b.mctpUp via then f b else b

-- The Oszoed message type (R227 to R233) -------------------------------------------------------------------------------------------

/-- A response of the Oszoed type: its header, and data when STATUS is OK. -/
def Block.oszoed (b : Block) (via : Binding) (command tag status : Nat) (data : List Byte) : Block :=
  b.respond via ([0x7E, 0x1F, 0xA2, 0x01, byteOf command, 0x01] ++ leBytes 2 tag ++ [byteOf status, 0, 0, 0] ++
    if status = mOk then data else [])

/-- Message too long, and a block that is unpowered or not released (R227). -/
def mTooLong : Nat := 6
def mNotReady : Nat := 7

/-- GET_IDENTITY (R227). -/
def Block.getIdentity (b : Block) (via : Binding) (tag : Nat) : Block :=
  b.oszoed via 0x01 tag mOk (([0x0, 0x4, 0x8, 0xC, 0x10008, 0x1000C, 0x10010, 0x10014, 0x10000] : List Nat).flatMap fun o =>
    leBytes 4 (b.word o))

def execGetIdentity (via : Binding) (tag : Nat) (s : State) := s.act (·.onMessage via (·.getIdentity via tag))

/-- The addressed block is unpowered or not released: before the release edge every block but those up to 0x0003_01FF, and the registers
of a grind die that is off. -/
def Block.notReady (b : Block) (off : Nat) : Bool :=
  (!b.pwr.released && decide (0x30200 ≤ off)) || (fieldsAt off).any fun e => e.1.desc.die && b.dieOff (e.1.dieOf e.2)

/-- WIDTH is 4 or 8 and OFFSET lies in the set-up space. -/
def regArgs (off width : Nat) : Bool := (width == 4 || width == 8) && decide (off + width ≤ 0x1000000)

/-- READ_REG (R227): a set-up read by the MCTP endpoint. -/
def Block.mctpRead (b : Block) (via : Binding) (tag off width : Nat) : Block :=
  if !regArgs off width then b.oszoed via 0x02 tag mBadArgument []
  else if b.notReady off then b.oszoed via 0x02 tag mNotReady []
  else
    let r := b.readSetup .mctp off width
    r.2.oszoed via 0x02 tag mOk (leBytes 8 r.1)

def execReadReg (via : Binding) (tag off width : Nat) (s : State) := s.act (·.onMessage via (·.mctpRead via tag off width))

/-- The blocks that WRITE_REG may write (R228). -/
def mctpWritable (off : Nat) : Bool :=
  decide (0x10000 ≤ off ∧ off < 0x10300 ∨ 0x20000 ≤ off ∧ off < 0x20200 ∨ 0x30000 ≤ off ∧ off < 0x30200)

/-- WRITE_REG (R227, R228). -/
def Block.mctpWrite (b : Block) (via : Binding) (tag off width val : Nat) : Block :=
  if !b.on .GLOBAL_CTRL_MCTP_WR_EN || !mctpWritable off then b.oszoed via 0x03 tag mDenied []
  else if !regArgs off width then b.oszoed via 0x03 tag mBadArgument []
  else (b.oszoed via 0x03 tag mOk []).writeSetup .mctp off width val 0 0

def execWriteReg (via : Binding) (tag off width val : Nat) (s : State) :=
  s.act (·.onMessage via (·.mctpWrite via tag off width val))

/-- GET_TELEMETRY (R227). -/
def execGetTelemetry (via : Binding) (tag : Nat) (s : State) :=
  s.act (·.onMessage via fun b => b.oszoed via 0x10 tag mOk b.telemetry)

/-- A slot command answered with its status. -/
def Block.slotReply (via : Binding) (command tag : Nat) (r : Nat × Block) : Block := r.2.oszoed via command tag r.1 []

/-- SLOT_BEGIN (R229). -/
def execSlotBegin (via : Binding) (tag slot length : Nat) (s : State) :=
  s.act (·.onMessage via fun b => Block.slotReply via 0x20 tag (b.sessionBegin slot length))

/-- SLOT_WRITE (R229): a message above 1,088 bytes is TOO_LONG (R224). -/
def Block.slotWrite (b : Block) (via : Binding) (tag off : Nat) (data : List Byte) : Block :=
  if 1088 < 20 + data.length then b.sessionHeard.oszoed via 0x21 tag mTooLong [] else Block.slotReply via 0x21 tag (b.sessionWrite off data)

def execSlotWrite (via : Binding) (tag off : Nat) (data : List Byte) (s : State) :=
  s.act (·.onMessage via (·.slotWrite via tag off data))

/-- SLOT_COMMIT (R230). -/
def execSlotCommit (via : Binding) (tag : Nat) (s : State) :=
  s.act (·.onMessage via fun b => Block.slotReply via 0x22 tag b.sessionCommit)

/-- SLOT_ERASE (R173, R227). -/
def execSlotErase (via : Binding) (tag slot : Nat) (s : State) :=
  s.act (·.onMessage via fun b => Block.slotReply via 0x23 tag (b.sessionErase slot))

/-- SLOT_VERIFY (R173, R227). -/
def Block.slotVerify (b : Block) (via : Binding) (tag slot : Nat) : Block :=
  let r := b.sessionVerify slot
  r.2.2.oszoed via 0x24 tag r.1 [byteOf r.2.1]

def execSlotVerify (via : Binding) (tag slot : Nat) (s : State) := s.act (·.onMessage via (·.slotVerify via tag slot))

/-- RELOAD (R233): a halted or retrying package starts a new sequence, in back-off or in the middle of a later sequence; a released one is
reset by register when KEY is 0x7A11. -/
def Block.reload (b : Block) (via : Binding) (tag key : Nat) : Block :=
  if b.pwr.released then
    if key = 0x7A11 then (b.oszoed via 0x30 tag mOk []).registerReset false else b.oszoed via 0x30 tag mBadArgument []
  else if b.cfg.phase = .halted ∨ b.cfg.retrying then (b.oszoed via 0x30 tag mOk []).newSequence
  else b.oszoed via 0x30 tag mNotReady []

def execReload (via : Binding) (tag key : Nat) (s : State) := s.act (·.onMessage via (·.reload via tag key))

/-- The commands of R227. -/
def oszoedCommands : List Nat := [0x01, 0x02, 0x03, 0x10, 0x20, 0x21, 0x22, 0x23, 0x24, 0x30]

-- MCTP control (R225, R226) ------------------------------------------------------------------------------------------------------

/-- PRESUMED (MCTP base). A control response: the request's instance, command, completion code and data. -/
def Block.control (b : Block) (via : Binding) (tag command code : Nat) (data : List Byte) : Block :=
  b.respond via ([0x00, byteOf (tag % 32), byteOf command, byteOf code] ++ data)

/-- SET_ENDPOINT_ID (R225): operations 0 (set) and 1 (force) take an endpoint ID other than 0x00 and 0xFF; 2 (reset to a static ID, which the
4400 has not) is refused; 3 (set discovered) exists on the PCIe VDM binding. -/
def Block.setEid (b : Block) (via : Binding) (tag op eid : Nat) : Block :=
  let op := op % 4
  if op < 2 then
    if eid % 256 = 0 ∨ eid % 256 = 0xFF then b.control via tag 0x01 0x02 []
    else (b.set .MCTP_EID_EID 0 eid).control via tag 0x01 0x00 [0x00, byteOf eid, 0x00]
  else if op = 3 ∧ via = .vdm then b.control via tag 0x01 0x00 [0x00, byteOf (b.get .MCTP_EID_EID), 0x00]
  else b.control via tag 0x01 0x02 []

def execSetEndpointId (via : Binding) (tag op eid : Nat) (s : State) := s.act (·.onMessage via (·.setEid via tag op eid))

/-- GET_ENDPOINT_ID (R225): a simple endpoint with a dynamic ID. -/
def execGetEndpointId (via : Binding) (tag : Nat) (s : State) :=
  s.act (·.onMessage via fun b => b.control via tag 0x02 0x00 [byteOf (b.get .MCTP_EID_EID), 0x00, 0x00])

/-- GET_MCTP_VERSION_SUPPORT (R225): one version of the base specification or of a supported message type, which no rule numbers. -/
def Block.mctpVersion (b : Block) (via : Binding) (tag type : Nat) : Block :=
  if type ∈ [0xFF, 0x00, 0x05, 0x7E] then
    let r := b.freeBytes 4
    r.2.control via tag 0x04 0x00 (0x01 :: r.1)
  else b.control via tag 0x04 0x80 []

def execGetMctpVersionSupport (via : Binding) (tag type : Nat) (s : State) := s.act (·.onMessage via (·.mctpVersion via tag type))

/-- GET_MESSAGE_TYPE_SUPPORT (R226). -/
def execGetMessageTypeSupport (via : Binding) (tag : Nat) (s : State) :=
  s.act (·.onMessage via fun b => b.control via tag 0x05 0x00 [0x03, 0x00, 0x05, 0x7E])

/-- GET_VENDOR_DEFINED_MESSAGE_SUPPORT (R225, R226): one PCI vendor, 0x1FA2; its command set type is not stated. -/
def Block.vendorSupport (b : Block) (via : Binding) (tag selector : Nat) : Block :=
  if selector % 256 = 0 then
    let r := b.freeBytes 2
    r.2.control via tag 0x06 0x00 ([0xFF, 0x00, 0x1F, 0xA2] ++ r.1)
  else b.control via tag 0x06 0x02 []

def execGetVendorDefinedMessageSupport (via : Binding) (tag selector : Nat) (s : State) :=
  s.act (·.onMessage via (·.vendorSupport via tag selector))

/-- UNSUPPORTED_CONTROL_COMMAND (R225, R227): every other control command is answered with ERROR_UNSUPPORTED_CMD; an Oszoed message with an
unknown COMMAND or VERSION with BAD_COMMAND. -/
def Block.unsupported (b : Block) (via : Binding) (tag : Nat) (oszoed : Bool) (command version : Nat) : Block :=
  if oszoed then
    if version = 1 ∧ command ∈ oszoedCommands then b else b.oszoed via command tag mBadCommand []
  else if command ∈ [0x01, 0x02, 0x04, 0x05, 0x06] then b
  else b.control via tag command 0x05 []

def execUnsupportedControlCommand (via : Binding) (tag : Nat) (oszoed : Bool) (command version : Nat) (s : State) :=
  s.act (·.onMessage via (·.unsupported via tag oszoed command version))

-- SPDM (R234 to R237) --------------------------------------------------------------------------------------------------------------

/-- The connection state of a binding (R235). -/
def Block.spdmState (b : Block) (via : Binding) : Nat := Tab.get b.mgmt.spdm (bindingNo via) 0

def Block.setSpdm (b : Block) (via : Binding) (n : Nat) : Block :=
  { b with mgmt := { b.mgmt with spdm := Tab.put b.mgmt.spdm (bindingNo via) n } }

/-- PRESUMED (SPDM 1.2). A response message, and an ERROR with its code. -/
def Block.spdmSend (b : Block) (via : Binding) (l : List Byte) : Block := b.respond via (0x05 :: l)
def Block.spdmError (b : Block) (via : Binding) (code : Nat) : Block := b.spdmSend via [0x12, 0x7F, byteOf code, 0x00]

/-- A request of version 1.2 in its place: VersionMismatch, or UnexpectedRequest before the state it needs. -/
def Block.spdmRequest (b : Block) (via : Binding) (version need : Nat) (f : Block → Block) : Block :=
  if version ≠ 0x12 then b.spdmError via 0x41 else if b.spdmState via < need then b.spdmError via 0x04 else f b

/-- GET_VERSION (R234, R235): version 1.2 alone; the connection state of this binding starts over. -/
def Block.spdmVersion (b : Block) (via : Binding) : Block :=
  (b.setSpdm via 1).spdmSend via [0x10, 0x04, 0x00, 0x00, 0x00, 0x01, 0x00, 0x12]

def execGetVersion (via : Binding) (s : State) := s.act (·.onMessage via (·.spdmVersion via))

/-- GET_CAPABILITIES (R234): CERT_CAP, CHAL_CAP, MEAS_CAP with signature; the time exponent and the sizes are not stated. -/
def Block.spdmCapabilities (b : Block) (via : Binding) : Block :=
  let r := b.freeBytes 9
  (r.2.setSpdm via 2).spdmSend via ([0x12, 0x61, 0x00, 0x00, 0x00] ++ r.1.take 1 ++ [0x00, 0x00, 0x16, 0x00, 0x00, 0x00] ++ r.1.drop 1)

def execGetCapabilities (via : Binding) (version : Nat) (s : State) :=
  s.act (·.onMessage via (·.spdmRequest via version 1 (·.spdmCapabilities via)))

/-- NEGOTIATE_ALGORITHMS (R234): ECDSA P-384, SHA-384, measurement hash SHA3-256 and the DMTF measurement specification, each where the
requester offers it. -/
def Block.spdmAlgorithms (b : Block) (via : Binding) (asym hash meas : Nat) : Block :=
  let a := asym &&& 0x80
  let h := hash &&& 0x02
  let m := meas &&& 0x01
  let l := [0x12, 0x63, 0x00, 0x00, 0x24, 0x00, byteOf m, 0x00] ++ leBytes 4 (if m = 0 then 0 else 0x10) ++ leBytes 4 a ++ leBytes 4 h ++
    zeros 16
  (if a ≠ 0 ∧ h ≠ 0 then b.setSpdm via 3 else b).spdmSend via l

def execNegotiateAlgorithms (via : Binding) (version asym hash meas : Nat) (s : State) :=
  s.act (·.onMessage via (·.spdmRequest via version 2 (·.spdmAlgorithms via asym hash meas)))

/-- GET_DIGESTS (R234): slot 0 alone. -/
def execGetDigests (via : Binding) (version : Nat) (s : State) :=
  s.act (·.onMessage via (·.spdmRequest via version 3 fun b =>
    b.spdmSend via ([0x12, 0x01, 0x00, 0x01] ++ padTo 48 (sha384 Config.certChain))))

/-- GET_CERTIFICATE (R234): a portion of slot 0's chain that fits a message (R224). -/
def Block.spdmCertificate (b : Block) (via : Binding) (slot off length : Nat) : Block :=
  let chain := Config.certChain
  if slot ≠ 0 ∨ chain.length ≤ off then b.spdmError via 0x01
  else
    let l := (chain.drop off).take (min length 1024)
    b.spdmSend via ([0x12, 0x02, 0x00, 0x00] ++ leBytes 2 l.length ++ leBytes 2 (chain.length - off - l.length) ++ l)

def execGetCertificate (via : Binding) (version slot off length : Nat) (s : State) :=
  s.act (·.onMessage via (·.spdmRequest via version 3 (·.spdmCertificate via slot off length)))

/-- PRESUMED (SPDM 1.2, DMTF measurement specification). A measurement block of R236. -/
def measBlock (index type : Nat) (l : List Byte) : List Byte :=
  [byteOf index, 0x01] ++ leBytes 2 (l.length + 3) ++ [byteOf type] ++ leBytes 2 l.length ++ l

/-- The measurement blocks (R236). Before a release edge the registers behind indices 1, 2 and 5 hold zero (R237). -/
def Block.measurement (b : Block) (index : Nat) : List Byte :=
  match index with
  | 1 => measBlock 1 0x01 (leBytes 32 (b.get .IMAGE_MARK_MARK))
  | 2 => measBlock 2 0x87 (leBytes 8 (b.get .LOADED_VERSION_VERSION))
  | 3 => measBlock 3 0x87 (leBytes 8 b.arbValue)
  | 4 => measBlock 4 0x82 (leBytes 4 (b.word 0) ++ [byteOf (b.get .CFG_STATUS_KEY_SRC), 0, 0, 0])
  | 5 => measBlock 5 0x86 (leBytes 8 (b.get .LOADED_BUILD_BUILD))
  | _ => []

/-- The measurement-summary hash that a CHALLENGE asks for: none; all blocks of R236 in order (0xFF); which of them make the trusted computing
base (1) is not stated, so that digest is free. -/
def Block.summaryHash (b : Block) (kind : Nat) : List Byte × Block :=
  if kind = 0xFF then (sha384 (([1, 2, 3, 4, 5] : List Nat).flatMap b.measurement), b)
  else if kind = 1 then b.freeBytes 48
  else ([], b)

/-- CHALLENGE (R234): the chain's digest, a nonce, the summary hash asked for and a signature; nonce and signature are free values. PRESUMED
(SPDM 1.2): any other hash type is an invalid request. -/
def Block.spdmChallenge (b : Block) (via : Binding) (slot kind : Nat) : Block :=
  if slot ≠ 0 ∨ kind ∉ [0, 1, 0xFF] then b.spdmError via 0x01
  else
    let h := b.summaryHash kind
    let r := h.2.freeBytes 128
    r.2.spdmSend via ([0x12, 0x03, 0x00, 0x01] ++ padTo 48 (sha384 Config.certChain) ++ r.1.take 32 ++ h.1 ++ [0x00, 0x00] ++ r.1.drop 32)

def execChallenge (via : Binding) (version slot : Nat) (nonce : List Byte) (s : State) (kind : Nat := 0) :=
  s.act fun b => match nonce with | _ => b.onMessage via (·.spdmRequest via version 3 (·.spdmChallenge via slot kind))

/-- GET_MEASUREMENTS (R236, R237): index 0 asks how many there are, 0xFF for all; nonce and signature are free values. -/
def Block.spdmMeasurements (b : Block) (via : Binding) (index : Nat) (signed : Bool) : Block :=
  if 5 < index ∧ index ≠ 0xFF then b.spdmError via 0x01
  else
    let which := if index = 0xFF then [1, 2, 3, 4, 5] else if index = 0 then [] else [index]
    let rec_ := which.flatMap b.measurement
    let r := b.freeBytes (if signed then 128 else 32)
    r.2.spdmSend via ([0x12, 0x60, if index = 0 then 0x05 else 0x00, 0x00, byteOf which.length] ++ leBytes 3 rec_.length ++ rec_ ++
      r.1.take 32 ++ [0x00, 0x00] ++ r.1.drop 32)

def execGetMeasurements (via : Binding) (version index : Nat) (signed : Bool) (nonce : List Byte) (s : State) :=
  s.act fun b => match nonce with | _ => b.onMessage via (·.spdmRequest via version 3 (·.spdmMeasurements via index signed))

-- Messages as bytes, from the TAP (R861) ------------------------------------------------------------------------------------------------

/-- An Oszoed request. -/
def Block.oszoedMessage (b : Block) (via : Binding) (m : List Byte) : Block :=
  let cmd := fieldAt m 4 1
  let tag := fieldAt m 6 2
  let a (o n : Nat) : Nat := fieldAt m (0x0C + o) n
  if fieldAt m 1 2 ≠ 0xA21F ∨ (fieldAt m 5 1).testBit 0 then b
  else if 1088 < m.length then (if cmd = 0x21 then b.sessionHeard else b).oszoed via cmd tag mTooLong []
  else if fieldAt m 3 1 ≠ 1 then b.oszoed via cmd tag mBadCommand []
  else match cmd with
    | 0x01 => b.getIdentity via tag
    | 0x02 => b.mctpRead via tag (a 0 4) (a 4 1)
    | 0x03 => b.mctpWrite via tag (a 0 4) (a 4 1) (a 8 8)
    | 0x10 => b.oszoed via 0x10 tag mOk b.telemetry
    | 0x20 => Block.slotReply via 0x20 tag (b.sessionBegin (a 0 1) (a 4 4))
    | 0x21 =>
      if a 4 2 = (m.drop 20).length then b.slotWrite via tag (a 0 4) (m.drop 20) else b.oszoed via 0x21 tag mBadArgument []
    | 0x22 => Block.slotReply via 0x22 tag b.sessionCommit
    | 0x23 => Block.slotReply via 0x23 tag (b.sessionErase (a 0 1))
    | 0x24 => b.slotVerify via tag (a 0 1)
    | 0x30 => b.reload via tag (a 0 2)
    | _ => b.oszoed via cmd tag mBadCommand []

/-- PRESUMED (MCTP base). A control request. -/
def Block.controlMessage (b : Block) (via : Binding) (m : List Byte) : Block :=
  let tag := fieldAt m 1 1 % 32
  if !(fieldAt m 1 1).testBit 7 then b
  else match fieldAt m 2 1 with
    | 0x01 => b.setEid via tag (fieldAt m 3 1) (fieldAt m 4 1)
    | 0x02 => b.control via tag 0x02 0x00 [byteOf (b.get .MCTP_EID_EID), 0x00, 0x00]
    | 0x04 => b.mctpVersion via tag (fieldAt m 3 1)
    | 0x05 => b.control via tag 0x05 0x00 [0x03, 0x00, 0x05, 0x7E]
    | 0x06 => b.vendorSupport via tag (fieldAt m 3 1)
    | c => b.control via tag c 0x05 []

/-- PRESUMED (SPDM 1.2). An SPDM request. -/
def Block.spdmMessage (b : Block) (via : Binding) (m : List Byte) : Block :=
  let v := fieldAt m 1 1
  let p1 := fieldAt m 3 1
  let p2 := fieldAt m 4 1
  match fieldAt m 2 1 with
  | 0x84 => b.spdmVersion via
  | 0xE1 => b.spdmRequest via v 1 (·.spdmCapabilities via)
  | 0xE3 => b.spdmRequest via v 2 (·.spdmAlgorithms via (fieldAt m 9 4) (fieldAt m 13 4) (fieldAt m 7 1))
  | 0x81 => b.spdmRequest via v 3 fun b => b.spdmSend via ([0x12, 0x01, 0x00, 0x01] ++ padTo 48 (sha384 Config.certChain))
  | 0x82 => b.spdmRequest via v 3 (·.spdmCertificate via (p1 % 16) (fieldAt m 5 2) (fieldAt m 7 2))
  | 0x83 => b.spdmRequest via v 3 (·.spdmChallenge via (p1 % 16) p2)
  | 0xE0 => b.spdmRequest via v 3 (·.spdmMeasurements via p2 (p1.testBit 0))
  | _ => b.spdmError via 0x07

/-- A whole MCTP message: its type is the low seven bits of its first byte (R226). No message above 1,088 bytes is assembled (R224); one of
the Oszoed type is answered with TOO_LONG. -/
def Block.message (b : Block) (via : Binding) (m : List Byte) : Block :=
  match fieldAt m 0 1 % 128 with
  | 0x00 => if m.length ≤ 1088 then b.controlMessage via m else b
  | 0x05 => if m.length ≤ 1088 then b.spdmMessage via m else b
  | 0x7E => b.oszoedMessage via m
  | _ => b

/-- A whole packet from the TAP (R861). PRESUMED (SMBus/I2C binding): a packet with a wrong error code, command code or header, or for
another address or endpoint, is dropped; the last packet of a message hands the message over. -/
def Block.pipePacket (b : Block) (l : List Byte) : Block :=
  let n := l.length - 1
  let eid := fieldAt l 5 1
  let flags := fieldAt l 7 1
  let good := decide (9 ≤ l.length ∧ fieldAt l n 1 = pec (l.take n) ∧ fieldAt l 1 1 = 0x0F ∧
    fieldAt l 0 1 = 2 * b.get .GLOBAL_CTRL_I2C_ADDR ∧ fieldAt l 4 1 % 16 = 1 ∧ (eid = 0 ∨ eid = b.get .MCTP_EID_EID) ∧ l.length ≤ 73)
  if !good then b
  else
    let body := (l.drop 8).take (n - 8)
    let msg := if flags.testBit 7 then body else b.mgmt.tapMsg ++ body
    let b := { b with mgmt := { b.mgmt with
        tapMsg := if flags.testBit 6 then [] else msg
        tapFrom := (fieldAt l 3 1 / 2, fieldAt l 6 1, flags % 8) } }
    if flags.testBit 6 then b.onMessage .tap (·.message .tap msg) else b

/-- A packet is whole after its byte count and error code. -/
def pipeWhole (l : List Byte) : Bool := decide (3 ≤ l.length ∧ fieldAt l 2 1 + 4 ≤ l.length)

/-- A byte with VALID 1 joins the inbound packet; START begins a new one (R861). -/
def Block.pipeByte (b : Block) (start : Bool) (x : Byte) : Block :=
  let l := if start then [x] else if b.mgmt.tapPart = [] then [] else b.mgmt.tapPart ++ [x]
  if pipeWhole l then ({ b with mgmt := { b.mgmt with tapPart := [] } }).pipePacket l
  else { b with mgmt := { b.mgmt with tapPart := l } }

-- The TAP (R855 to R862) -------------------------------------------------------------------------------------------------------------

/-- A scan of the instruction register, which captures 0b000001 and takes an opcode for which instruction `loaded` is loaded (R855); a command
that finds its instruction loaded scans the data register only. -/
def Block.scanIr (b : Block) (opcode loaded : Nat) : Block :=
  let b := if b.cfg.tap = opcode then b else b.send (.tdo 6 1)
  { b with cfg := { b.cfg with tap := loaded } }

/-- An instruction is loaded into the TAP, which works while main power is up (R858). -/
def Block.loadTap (b : Block) (op : Nat) (f : Block → Block) : Block := if b.pwr.mainUp then f (b.scanIr op op) else b

/-- The instructions of R859 are accepted only while PERST# is low or the package halts; BYPASS is loaded in their place otherwise. -/
def Block.loadTest (b : Block) (op : Nat) (f : Block → Block) : Block :=
  if !b.pwr.perst || b.cfg.phase == .halted then b.loadTap op f
  else if b.pwr.mainUp then b.scanIr op 0x3F else b

/-- Values driven on the pins through the boundary register. -/
def Block.driveBoundary (b : Block) (v : Nat) : Block := ({ b with mgmt := { b.mgmt with boundary := v } }).send (.pins (some v))

/-- EXTEST, EXTEST_PULSE and EXTEST_TRAIN (R855, R859): `value` is shifted into the boundary register and drives the pins. -/
def execExtest (value : Nat) (s : State) := s.actAlways (·.loadTest 0x00 (·.driveBoundary value))
def execExtestPulse (value : Nat) (s : State) := s.actAlways (·.loadTest 0x03 (·.driveBoundary value))
def execExtestTrain (value : Nat) (s : State) := s.actAlways (·.loadTest 0x04 (·.driveBoundary value))

/-- SAMPLE_PRELOAD (R855): the pins as they stand are shifted out, and `value` is preloaded. -/
def execSamplePreload (pins value : Nat) (s : State) :=
  s.actAlways (·.loadTap 0x01 fun b => ({ b with mgmt := { b.mgmt with boundary := value } }).send (.tdo 0 pins))

/-- IDCODE (R856). -/
def Block.idcode (b : Block) : Block := b.send (.tdo 32 (b.get .IDENT_STEPPING * 2 ^ 28 + 0x04400A3B))

def execIdcode (s : State) := s.actAlways (·.loadTap 0x02 (·.idcode))

/-- HIGHZ (R855, R859): the outputs float. -/
def execHighz (s : State) := s.actAlways (·.loadTest 0x05 (·.send (.pins none)))

/-- CLAMP (R855, R859): the outputs hold the preloaded values. -/
def execClamp (s : State) := s.actAlways (·.loadTest 0x06 fun b => b.send (.pins (some b.mgmt.boundary)))

/-- MCTP_PIPE (R861, R862): one scan of its data register. Capture-DR gives the next response byte; Update-DR takes a byte whose VALID
is 1. While the hub is held in reset (R60) the TAP works on, with no response and no packet behind it. -/
def Block.pipeScan (b : Block) (start : Bool) (byte : Option Byte) : Block :=
  let w := b.mgmt.tapOut.headD 0
  let b := ({ b with mgmt := { b.mgmt with tapOut := b.mgmt.tapOut.tail } }).send (.tdo 10 w)
  match byte with
  | some x => b.pipeByte start x
  | none => b

def execMctpPipe (start : Bool) (byte : Option Byte) (s : State) :=
  s.actAlways (·.loadTap 0x20 fun b => if b.inReset then b.send (.tdo 10 0) else b.pipeScan start byte)

/-- BYPASS (R855): its own opcode and every opcode that the table does not list. -/
def execBypass (opcode : Nat) (s : State) :=
  s.actAlways fun b =>
    if opcode % 64 ∈ [0x00, 0x01, 0x02, 0x03, 0x04, 0x05, 0x06, 0x20] ∨ b.pwr.mainUp = false then b else b.scanIr (opcode % 64) 0x3F

/-- TAP_RESET (R855): IDCODE is loaded. -/
def execTapReset (s : State) := s.actAlways fun b => if b.pwr.mainUp then { b with cfg := { b.cfg with tap := 2 } } else b

-- The I2C port (R864) ---------------------------------------------------------------------------------------------------------------------

/-- I2C_BUS_TIMEOUT (R864): both lines are released, the interface is reset and any partial packet discarded. -/
def Block.i2cTimeout (b : Block) : Block :=
  if b.pwr.mainUp then ({ b with mgmt := { b.mgmt with i2cPart := [] } }).send .i2cRelease else b

def execI2cBusTimeout (s : State) := s.act (·.i2cTimeout)

end Sys2Proof.Machine
end

