-- ==== Sys2Proof/Machine/PawlCycle.lean ====
section
/-! DEFINITION. Pawl events of one ck_hub cycle (spec/07, R325), and the pawl commands, each with what else happens in its cycle. -/

namespace Sys2Proof.Machine

/-- The rank of an event, and its place within the rank: descriptors in acceptance order before tasks by tile number (R325). -/
def pawlRank : PawlEvent → Nat × Nat
  | .release _ _ _ => (1, 0)
  | .renew _ _ _ => (2, 0)
  | .taskEnd _ _ _ => (3, 0)
  | .ctxKill _ _ => (3, 0)
  | .partReset _ => (3, 0)
  | .pawlBreak _ _ => (3, 0)
  | .lease _ => (4, 0)
  | .acquire who _ _ => asked who
  | .tryOnce who _ _ => asked who
  | .limit _ => (7, 0)
where
  asked : PawlAsker → Nat × Nat
    | .job id => (5, id)
    | .task t => (6, t)

/-- One event alone. -/
def Block.pawlEvent (b : Block) (e : PawlEvent) : Block :=
  match e with
  | .release who pawl mended => b.releaseBy who pawl mended
  | .renew who pawl lease => b.renewBy who pawl lease
  | .taskEnd tile status cause => (b.taskSaysEnd tile status cause).serve
  | .ctxKill part mask => b.ctxKill part mask
  | .partReset mask => b.partResetMask 0 mask
  | .pawlBreak part pawl => b.pawlBreakGo part pawl
  | .lease pawl => b.leaseExpiry pawl
  | .acquire who pawl lease => b.pawlAsk false who pawl lease
  | .tryOnce who pawl lease => b.pawlAsk true who pawl lease
  | .limit pawl => b.waitLimitExpiry pawl

/-- The order of two events of a cycle. -/
def pawlBefore (x y : PawlEvent) : Bool :=
  decide ((pawlRank x).1 < (pawlRank y).1 ∨ ((pawlRank x).1 = (pawlRank y).1 ∧ (pawlRank x).2 ≤ (pawlRank y).2))

/-- Events run in order. -/
def Block.pawlEvents (b : Block) (l : List PawlEvent) : Block := l.foldl (fun b e => b.pawlEvent e) b

/-- Every free pawl that has waiters passes to its oldest (R321). -/
def Block.passFree (b : Block) : Block :=
  ((b.hop.pawls.filter fun e => e.2.owner.isNone && !e.2.waiters.isEmpty).map (·.1)).foldl (fun b n =>
    match b.pawlPart n with | some p => b.passPawl p n | none => b) b

/-- A pawl event with the others of its ck_hub cycle, in the order of R325: releases, renewals, breaks and leases falling due, then the
grants to the oldest waiters, then new requests, then limits falling due. -/
def Block.pawlCycle (b : Block) (e : PawlEvent) (also : List PawlEvent) : Block :=
  if also = [] then b.pawlEvent e
  else
    let l := sortBy pawlBefore (e :: also)
    let b := ({ b with hop := { b.hop with oneCycle := true } }).pawlEvents (l.filter fun x => decide ((pawlRank x).1 < 5))
    ({ b with hop := { b.hop with oneCycle := false } }).passFree.pawlEvents (l.filter fun x => decide (5 ≤ (pawlRank x).1))

/-- ACQUIRE (R319, R320). -/
def execAcquire (who : PawlAsker) (pawl lease : Nat) (s : State) (also : List PawlEvent := []) :=
  s.act (·.pawlCycle (.acquire who pawl lease) also)

/-- TRY (R319). -/
def execPawlTry (who : PawlAsker) (pawl lease : Nat) (s : State) (also : List PawlEvent := []) :=
  s.act (·.pawlCycle (.tryOnce who pawl lease) also)

/-- RELEASE (R290, R319, R321, R323). -/
def execRelease (who : PawlFreer) (pawl : Nat) (mended : Bool) (s : State) (also : List PawlEvent := []) :=
  s.act (·.pawlCycle (.release who pawl mended) also)

/-- RENEW (R290, R319). -/
def execRenew (who : PawlFreer) (pawl lease : Nat) (s : State) (also : List PawlEvent := []) :=
  s.act (·.pawlCycle (.renew who pawl lease) also)

/-- PAWL_BREAK (R322). -/
def execPawlBreak (part pawl : Nat) (s : State) (also : List PawlEvent := []) := s.act (·.pawlCycle (.pawlBreak part pawl) also)

/-- LEASE_EXPIRY (R314, R322). -/
def execLeaseExpiry (pawl : Nat) (s : State) (also : List PawlEvent := []) := s.act (·.pawlCycle (.lease pawl) also)

/-- WAIT_LIMIT_EXPIRY (R314, R320). -/
def execWaitLimitExpiry (pawl : Nat) (s : State) (also : List PawlEvent := []) := s.act (·.pawlCycle (.limit pawl) also)

end Sys2Proof.Machine
end

