-- ==== Sys2Proof/Machine/Resume.lean ====
section
/-! DEFINITION. What waits for a memory beside the accesses themselves is taken up again (spec/03 R102, spec/09 R421): running
collectives, MK_ABSORB, and frames that wait for their Tally records; and the commands that end such a wait. -/

namespace Sys2Proof.Machine

/-- An MK_ABSORB that waits is tried again; one that reads another package goes on with the command that brings the answers. -/
def Block.retryAbsorb (b : Block) (p : Nat) : Block :=
  if b.get .MK_ADDR_ADDR p / 2 ^ 50 = b.pkg then b.mkAbsorb p else b

/-- The frames that wait are delivered in the order of their arrival, as far as their memory serves them. -/
def Block.retryFrames (b : Block) : Block :=
  b.svc.heldFrames.foldl (fun b x => b.takeService x.port x.bytes x.arrival x.replayed) { b with svc := { b.svc with heldFrames := [] } }

/-- Everything that waited for a memory is taken up again. -/
def Block.resume (b : Block) : Block := (b.hop.absorbs.foldl (fun b p => b.retryAbsorb p) b.collAll).retryFrames

/-- SLUICE_REFILL (R419, R424): memory k ends a refill period; what waited is tried. -/
def execSluiceRefill (memory : Nat) (s : State) := s.act fun b => if memory < 10 then (b.refill memory).serve.resume else b

def execDieRecoveryDone (die : Nat) (tests : List (Nat × Nat)) (s : State) := s.act fun b => (b.recoveryDone die tests).resume

def execFurlExitDone (tests : List (Nat × Nat)) (s : State) := s.act fun b => (b.exitDone tests).resume

def execGovernorReading (temps : List (Option Int)) (power : Nat) (rails : List Nat) (s : State) :=
  s.act fun b => (b.governor temps power rails).resume

end Sys2Proof.Machine
end

