-- ==== Sys2Proof/Machine/Dispatch.lean ====
section
/-! DEFINITION. One arm for each command: its meaning, or a rejection by name. -/

namespace Sys2Proof.Machine

def exec (i : Instr) (s : State) : Host.Outcome State Fault Refusal :=
  match i with
  | .coldStart => Sys2Proof.Machine.execColdStart s
  | .mainPowerLoss => Sys2Proof.Machine.execMainPowerLoss s
  | .railDroop rail mv ns => Sys2Proof.Machine.execRailDroop rail mv ns s
  | .perstAssert => Sys2Proof.Machine.execPerstAssert s
  | .perstDeassert src fail chain => Sys2Proof.Machine.execPerstDeassert src fail chain s
  | .vbatLow mv => Sys2Proof.Machine.execVbatLow mv s
  | .zeroAssert ckAon => Sys2Proof.Machine.execZeroAssert ckAon s
  | .aonWrite who off size val => Sys2Proof.Machine.execAonWrite who off size val s
  | .aonStatusWrite who val meet => Sys2Proof.Machine.execAonStatusWrite who val s meet
  | .aonWriteApplied => Sys2Proof.Machine.execAonWriteApplied s
  | .pkgReset val => Sys2Proof.Machine.execPkgReset val s
  | .partReset mask => Sys2Proof.Machine.execPartReset mask s
  | .partitionResetDone part => Sys2Proof.Machine.execPartitionResetDone part s
  | .svcPartReset core mask => Sys2Proof.Machine.execSvcPartReset core mask s
  | .dieReset mask => Sys2Proof.Machine.execDieReset mask s
  | .dieFault die => Sys2Proof.Machine.execDieFault die s
  | .dieRecoveryDone die tests => Sys2Proof.Machine.execDieRecoveryDone die tests s
  | .mbaryPortReset mask => Sys2Proof.Machine.execMbaryPortReset mask s
  | .ethPortReset mask => Sys2Proof.Machine.execEthPortReset mask s
  | .a1Entry die => Sys2Proof.Machine.execA1Entry die s
  | .a1EnClear => Sys2Proof.Machine.execA1EnClear s
  | .furl => Sys2Proof.Machine.execFurl s
  | .furlWaitExpiry => Sys2Proof.Machine.execFurlWaitExpiry s
  | .furlDiesQuiet => Sys2Proof.Machine.execFurlDiesQuiet s
  | .wake => Sys2Proof.Machine.execWake s
  | .furlExitDone tests => Sys2Proof.Machine.execFurlExitDone tests s
  | .tierSPairIdle pair => Sys2Proof.Machine.execTierSPairIdle pair s
  | .coreClkGo die target => Sys2Proof.Machine.execCoreClkGo die target s
  | .pllRelock die => Sys2Proof.Machine.execPllRelock die s
  | .clockLostLock bit => Sys2Proof.Machine.execClockLostLock bit s
  | .gmcPllRelock => Sys2Proof.Machine.execGmcPllRelock s
  | .flumeWriteResumed flume freed => Sys2Proof.Machine.execFlumeWriteResumed flume freed s
  | .imageAttempt nvmBad => Sys2Proof.Machine.execImageAttempt nvmBad s
  | .dieSelfTestDone passed => Sys2Proof.Machine.execDieSelfTestDone passed s
  | .imageTagCheck nvmBad => Sys2Proof.Machine.execImageTagCheck s nvmBad
  | .dataSectionLanding nvmBad => Sys2Proof.Machine.execDataSectionLanding s nvmBad
  | .tierSTrainingDone dimms rates => Sys2Proof.Machine.execTierSTrainingDone dimms rates s
  | .releaseEdge => Sys2Proof.Machine.execReleaseEdge s
  | .retryBackoffExpiry => Sys2Proof.Machine.execRetryBackoffExpiry s
  | .chainByte byte => Sys2Proof.Machine.execChainByte byte s
  | .chainTimeout => Sys2Proof.Machine.execChainTimeout s
  | .krLoad => Sys2Proof.Machine.execKrLoad s
  | .krClear => Sys2Proof.Machine.execKrClear s
  | .krLock => Sys2Proof.Machine.execKrLock s
  | .arbSetGo => Sys2Proof.Machine.execArbSetGo s
  | .slotProgram slot image => Sys2Proof.Machine.execSlotProgram slot image s
  | .slotCtrlErase slot => Sys2Proof.Machine.execSlotCtrlErase slot s
  | .slotCtrlVerify slot => Sys2Proof.Machine.execSlotCtrlVerify slot s
  | .slotOpDone => Sys2Proof.Machine.execSlotOpDone s
  | .scrubPass upsets => Sys2Proof.Machine.execScrubPass upsets s
  | .registerWrite who off size val meetMask meetVal also => Sys2Proof.Machine.execRegisterWrite who off size val meetMask meetVal s also
  | .splitReadLow who off => Sys2Proof.Machine.execSplitReadLow who off s
  | .gmcCountSplitRead who => Sys2Proof.Machine.execGmcCountSplitRead who s
  | .partGrant who part val => Sys2Proof.Machine.execPartGrant who part val s
  | .pfFlr => Sys2Proof.Machine.execPfFlr s
  | .vfFlr vf => Sys2Proof.Machine.execVfFlr vf s
  | .d3hotEntry fn => Sys2Proof.Machine.execD3hotEntry fn s
  | .hostLinkDown => Sys2Proof.Machine.execHostLinkDown s
  | .hostLinkUp rate width flit cxl credits => Sys2Proof.Machine.execHostLinkUp rate width flit cxl s credits
  | .atsInvalidate fn page count => Sys2Proof.Machine.execAtsInvalidate fn page count s
  | .snpData part line => Sys2Proof.Machine.execSnpData part line s
  | .snpCur part line => Sys2Proof.Machine.execSnpCur part line s
  | .snpInv part line => Sys2Proof.Machine.execSnpInv part line s
  | .doorbellPoll part => Sys2Proof.Machine.execDoorbellPoll part s
  | .doorbellLineReturn part line words => Sys2Proof.Machine.execDoorbellLineReturn part line words s
  | .hostReadCompletion which ok data => Sys2Proof.Machine.execHostReadCompletion which ok data s
  | .hostReadTimeout which => Sys2Proof.Machine.execHostReadTimeout which s
  | .descriptorFetch sq => Sys2Proof.Machine.execDescriptorFetch sq s
  | .descriptorFetchReturn sq descs => Sys2Proof.Machine.execDescriptorFetchReturn sq descs s
  | .handOver sq also => Sys2Proof.Machine.execHandOver sq s also
  | .sqEnable sq word => Sys2Proof.Machine.execSqEnable sq word s
  | .sqDisable sq => Sys2Proof.Machine.execSqDisable sq s
  | .cqEnable cq word => Sys2Proof.Machine.execCqEnable cq word s
  | .cqDisable cq => Sys2Proof.Machine.execCqDisable cq s
  | .irqTimeExpiry part ring => Sys2Proof.Machine.execIrqTimeExpiry part ring s
  | .nop job => Sys2Proof.Machine.execNop job s
  | .launch job strikes replies => Sys2Proof.Machine.execLaunch job strikes replies s
  | .launchAt job strikes replies => Sys2Proof.Machine.execLaunchAt job strikes replies s
  | .launchAtReady job => Sys2Proof.Machine.execLaunchAtReady job s
  | .launchAtStart job => Sys2Proof.Machine.execLaunchAtStart job s
  | .acquire who pawl lease also => Sys2Proof.Machine.execAcquire who pawl lease s also
  | .pawlTry who pawl lease also => Sys2Proof.Machine.execPawlTry who pawl lease s also
  | .release who pawl mended also => Sys2Proof.Machine.execRelease who pawl mended s also
  | .renew who pawl lease also => Sys2Proof.Machine.execRenew who pawl lease s also
  | .pawlBreak part pawl also => Sys2Proof.Machine.execPawlBreak part pawl s also
  | .leaseExpiry pawl also => Sys2Proof.Machine.execLeaseExpiry pawl s also
  | .waitLimitExpiry pawl also => Sys2Proof.Machine.execWaitLimitExpiry pawl s also
  | .ctxKill part mask => Sys2Proof.Machine.execCtxKill part mask s
  | .delayDue => Sys2Proof.Machine.execDelayDue s
  | .agePromotion part => Sys2Proof.Machine.execAgePromotion part s
  | .deadlinePassed job => Sys2Proof.Machine.execDeadlinePassed job s
  | .taskDispatch part => Sys2Proof.Machine.execTaskDispatch part s
  | .taskEnd tile status cause => Sys2Proof.Machine.execTaskEnd tile status cause s
  | .tailraceRelease => Sys2Proof.Machine.execTailraceRelease s
  | .loadTile tile reg addr len strikes => Sys2Proof.Machine.execLoadTile tile reg addr len strikes s
  | .storeTile tile addr data also => Sys2Proof.Machine.execStoreTile tile addr data s also
  | .spoutGather tile reg size addrs strikes => Sys2Proof.Machine.execSpoutGather tile reg size addrs strikes s
  | .translationFill die part unit => Sys2Proof.Machine.execTranslationFill die part unit s
  | .translationEntryExpiry die pkg part unit => Sys2Proof.Machine.execTranslationEntryExpiry die pkg part unit s
  | .wcHoldExpiry die pkg line => Sys2Proof.Machine.execWcHoldExpiry die pkg line s
  | .flushAck die line strikes => Sys2Proof.Machine.execFlushAck die line strikes s
  | .copy job strikes => Sys2Proof.Machine.execCopy job strikes s
  | .invalidate job => Sys2Proof.Machine.execInvalidate job s
  | .place job => Sys2Proof.Machine.execPlace job s
  | .unplace job => Sys2Proof.Machine.execUnplace job s
  | .ptXchg part runA runB => Sys2Proof.Machine.execPtXchg part runA runB s
  | .freeAll => Sys2Proof.Machine.execFreeAll s
  | .patrolScrub memory strikes => Sys2Proof.Machine.execPatrolScrub memory strikes s
  | .liveRemap stack off spare => Sys2Proof.Machine.execLiveRemap stack off spare s
  | .remapRetire channel => Sys2Proof.Machine.execRemapRetire channel s
  | .channelTakeOut channel reason => Sys2Proof.Machine.execChannelTakeOut channel reason s
  | .sluiceRefill memory => Sys2Proof.Machine.execSluiceRefill memory s
  | .governorReading temps power rails => Sys2Proof.Machine.execGovernorReading temps power rails s
  | .localHoldEnd => Sys2Proof.Machine.execLocalHoldEnd s
  | .portEnable port mode => Sys2Proof.Machine.execPortEnable port mode s
  | .detectPoll port found => Sys2Proof.Machine.execDetectPoll port found s
  | .equaliseDone port ok => Sys2Proof.Machine.execEqualiseDone port ok s
  | .alignDone port ok => Sys2Proof.Machine.execAlignDone port ok s
  | .tsFlit port body => Sys2Proof.Machine.execTsFlit port body s
  | .dataFlit port flit corrected bad frac => Sys2Proof.Machine.execDataFlit port flit corrected bad frac s
  | .nak port ack valid => Sys2Proof.Machine.execNak port ack valid s
  | .replayTimeout port => Sys2Proof.Machine.execReplayTimeout port s
  | .lossOfAlignment port => Sys2Proof.Machine.execLossOfAlignment port s
  | .retrainEnd port ok => Sys2Proof.Machine.execRetrainEnd port ok s
  | .fenceClear port => Sys2Proof.Machine.execFenceClear port s
  | .readReq port msg strikes => Sys2Proof.Machine.execReadReq port msg strikes s
  | .writeReq port msg strikes => Sys2Proof.Machine.execWriteReq port msg strikes s
  | .writeMasked port msg strikes => Sys2Proof.Machine.execWriteMasked port msg strikes s
  | .xlate port msg => Sys2Proof.Machine.execXlate port msg s
  | .readRsp port msg => Sys2Proof.Machine.execReadRsp port msg s
  | .writeRsp port msg => Sys2Proof.Machine.execWriteRsp port msg s
  | .xlateRsp port msg => Sys2Proof.Machine.execXlateRsp port msg s
  | .reqTimeout tag => Sys2Proof.Machine.execReqTimeout tag s
  | .collUp port msg => Sys2Proof.Machine.execCollUp port msg s
  | .collDown port msg => Sys2Proof.Machine.execCollDown port msg s
  | .collAbort port msg => Sys2Proof.Machine.execCollAbort port msg s
  | .collAck port msg => Sys2Proof.Machine.execCollAck port msg s
  | .collTimeout group => Sys2Proof.Machine.execCollTimeout group s
  | .allReduce job => Sys2Proof.Machine.execAllReduce job s
  | .reduceScatter job => Sys2Proof.Machine.execReduceScatter job s
  | .allGather job => Sys2Proof.Machine.execAllGather job s
  | .broadcast job => Sys2Proof.Machine.execBroadcast job s
  | .barrier job => Sys2Proof.Machine.execBarrier job s
  | .sync port msg frac => Sys2Proof.Machine.execSync port msg frac s
  | .syncSend fracs => Sys2Proof.Machine.execSyncSend fracs s
  | .gmcHoldover => Sys2Proof.Machine.execGmcHoldover s
  | .holdMsg port msg => Sys2Proof.Machine.execHoldMsg port msg s
  | .holdStart => Sys2Proof.Machine.execHoldStart s
  | .resumeMsg port msg => Sys2Proof.Machine.execResumeMsg port msg s
  | .holdEnd => Sys2Proof.Machine.execHoldEnd s
  | .noticeMsg port msg => Sys2Proof.Machine.execNoticeMsg port msg s
  | .linkChange port msg => Sys2Proof.Machine.execLinkChange port msg s
  | .joinAt port msg => Sys2Proof.Machine.execJoinAt port msg s
  | .routingEpochBoundary => Sys2Proof.Machine.execRoutingEpochBoundary s
  | .holdEntryLapse origin => Sys2Proof.Machine.execHoldEntryLapse origin s
  | .cogGo => Sys2Proof.Machine.execCogGo s
  | .mkClear part => Sys2Proof.Machine.execMkClear part s
  | .mkAbsorb part strikes replies => Sys2Proof.Machine.execMkAbsorb part strikes replies s
  | .markStorePin => Sys2Proof.Machine.execMarkStorePin s
  | .markStoreErase key => Sys2Proof.Machine.execMarkStoreErase key s
  | .inputMarkDone job strikes replies => Sys2Proof.Machine.execInputMarkDone job strikes replies s
  | .outputMarkDone job strikes replies => Sys2Proof.Machine.execOutputMarkDone job strikes replies s
  | .replayFrameDelivery part => Sys2Proof.Machine.execReplayFrameDelivery part s
  | .replayDescRelease sq => Sys2Proof.Machine.execReplayDescRelease sq s
  | .tileTakeOut tile => Sys2Proof.Machine.execTileTakeOut tile s
  | .tileReturn tile => Sys2Proof.Machine.execTileReturn tile s
  | .selfTestDone tile result us => Sys2Proof.Machine.execSelfTestDone tile result us s
  | .tileParity tile matrix => Sys2Proof.Machine.execTileParity tile matrix s
  | .bsort tile keys idx op ktype q => Sys2Proof.Machine.execBsort tile keys idx op ktype q s
  | .bmerge tile keysA idxA keysB idxB op ktype q => Sys2Proof.Machine.execBmerge tile keysA idxA keysB idxB op ktype q s
  | .bdrop tile keys idx op ktype q => Sys2Proof.Machine.execBdrop tile keys idx op ktype q s
  | .select job clock strikes replies => Sys2Proof.Machine.execSelect job clock strikes replies s
  | .chol job clock parity strikes replies => Sys2Proof.Machine.execChol job clock parity strikes replies s
  | .ldlt job clock parity strikes replies => Sys2Proof.Machine.execLdlt job clock parity strikes replies s
  | .solveLu job clock parity strikes replies => Sys2Proof.Machine.execSolveLu job clock parity strikes replies s
  | .btri job clock parity strikes replies => Sys2Proof.Machine.execBtri job clock parity strikes replies s
  | .pcg job clock parity strikes replies => Sys2Proof.Machine.execPcg job clock parity strikes replies s
  | .solveFactor job clock parity strikes replies => Sys2Proof.Machine.execSolveFactor job clock parity strikes replies s
  | .build job strikes replies => Sys2Proof.Machine.execBuild job strikes replies s
  | .slices job strikes replies => Sys2Proof.Machine.execSlices job strikes replies s
  | .swap job strikes => Sys2Proof.Machine.execSwap job strikes s
  | .swapRetire job => Sys2Proof.Machine.execSwapRetire job s
  | .refresh job strikes => Sys2Proof.Machine.execRefresh job strikes s
  | .nodeCacheLineExpiry die phys => Sys2Proof.Machine.execNodeCacheLineExpiry die phys s
  | .checkDesc job clock strikes replies => Sys2Proof.Machine.execCheckDesc job clock strikes replies s
  | .planDesc job clock parity strikes replies => Sys2Proof.Machine.execPlanDesc job clock parity strikes replies s
  | .millerAccessFault core addr size atomic => Sys2Proof.Machine.execMillerAccessFault core addr size atomic s
  | .svcMbRing core mask => Sys2Proof.Machine.execSvcMbRing core mask s
  | .h2mRing mask => Sys2Proof.Machine.execH2mRing mask s
  | .m2hRing core => Sys2Proof.Machine.execM2hRing core s
  | .postTail core ring word => Sys2Proof.Machine.execPostTail core ring word s
  | .cqHeadw core word => Sys2Proof.Machine.execCqHeadw core word s
  | .watchdogExpiry core => Sys2Proof.Machine.execWatchdogExpiry core s
  | .tenterAccessTimeout core size write => Sys2Proof.Machine.execTenterAccessTimeout core size write s
  | .userReset => Sys2Proof.Machine.execUserReset s
  | .tenterUserInterrupt n => Sys2Proof.Machine.execTenterUserInterrupt n s
  | .ethModeWrite mode => Sys2Proof.Machine.execEthModeWrite mode s
  | .ethLinkChange port link fec => Sys2Proof.Machine.execEthLinkChange port link fec s
  | .phcStep val => Sys2Proof.Machine.execPhcStep val s
  | .phcSnap => Sys2Proof.Machine.execPhcSnap s
  | .txTsPop => Sys2Proof.Machine.execTxTsPop s
  | .frameReceive port frame good => Sys2Proof.Machine.execFrameReceive port frame good s
  | .frameTransmit port => Sys2Proof.Machine.execFrameTransmit port s
  | .sweep part core ring descs => Sys2Proof.Machine.execSweep part core ring descs s
  | .sweepWaitExpiry part wait => Sys2Proof.Machine.execSweepWaitExpiry part wait s
  | .planReq part answer => Sys2Proof.Machine.execPlanReq part answer s
  | .telemetry part answer => Sys2Proof.Machine.execTelemetry part answer s
  | .statusReq part stream seq => Sys2Proof.Machine.execStatusReq part stream seq s
  | .getIdentity via tag => Sys2Proof.Machine.execGetIdentity via tag s
  | .readReg via tag off width => Sys2Proof.Machine.execReadReg via tag off width s
  | .writeReg via tag off width val => Sys2Proof.Machine.execWriteReg via tag off width val s
  | .getTelemetry via tag => Sys2Proof.Machine.execGetTelemetry via tag s
  | .slotBegin via tag slot length => Sys2Proof.Machine.execSlotBegin via tag slot length s
  | .slotWrite via tag off data => Sys2Proof.Machine.execSlotWrite via tag off data s
  | .slotCommit via tag => Sys2Proof.Machine.execSlotCommit via tag s
  | .slotErase via tag slot => Sys2Proof.Machine.execSlotErase via tag slot s
  | .slotVerify via tag slot => Sys2Proof.Machine.execSlotVerify via tag slot s
  | .reload via tag key => Sys2Proof.Machine.execReload via tag key s
  | .slotSessionTimeout => Sys2Proof.Machine.execSlotSessionTimeout s
  | .setEndpointId via tag op eid => Sys2Proof.Machine.execSetEndpointId via tag op eid s
  | .getEndpointId via tag => Sys2Proof.Machine.execGetEndpointId via tag s
  | .getMctpVersionSupport via tag type => Sys2Proof.Machine.execGetMctpVersionSupport via tag type s
  | .getMessageTypeSupport via tag => Sys2Proof.Machine.execGetMessageTypeSupport via tag s
  | .getVendorDefinedMessageSupport via tag selector => Sys2Proof.Machine.execGetVendorDefinedMessageSupport via tag selector s
  | .getVersion via => Sys2Proof.Machine.execGetVersion via s
  | .getCapabilities via version => Sys2Proof.Machine.execGetCapabilities via version s
  | .negotiateAlgorithms via version asym hash meas => Sys2Proof.Machine.execNegotiateAlgorithms via version asym hash meas s
  | .getDigests via version => Sys2Proof.Machine.execGetDigests via version s
  | .getCertificate via version slot off length => Sys2Proof.Machine.execGetCertificate via version slot off length s
  | .challenge via version slot nonce kind => Sys2Proof.Machine.execChallenge via version slot nonce s kind
  | .getMeasurements via version index signed nonce => Sys2Proof.Machine.execGetMeasurements via version index signed nonce s
  | .i2cBusTimeout => Sys2Proof.Machine.execI2cBusTimeout s
  | .extest value => Sys2Proof.Machine.execExtest value s
  | .samplePreload pins value => Sys2Proof.Machine.execSamplePreload pins value s
  | .idcode => Sys2Proof.Machine.execIdcode s
  | .extestPulse value => Sys2Proof.Machine.execExtestPulse value s
  | .extestTrain value => Sys2Proof.Machine.execExtestTrain value s
  | .highz => Sys2Proof.Machine.execHighz s
  | .clamp => Sys2Proof.Machine.execClamp s
  | .mctpPipe start byte => Sys2Proof.Machine.execMctpPipe start byte s
  | .bypass opcode => Sys2Proof.Machine.execBypass opcode s
  | .vbatRemoved mv damaged => Sys2Proof.Machine.execVbatRemoved mv damaged s
  | .vbatApplied mv => Sys2Proof.Machine.execVbatApplied mv s
  | .configurationRequest req => Sys2Proof.Machine.execConfigurationRequest req s
  | .d3hotExit fn => Sys2Proof.Machine.execD3hotExit fn s
  | .translationCompletion fn page granted which => Sys2Proof.Machine.execTranslationCompletion fn page granted which s
  | .msixUnmask fn vector => Sys2Proof.Machine.execMsixUnmask fn vector s
  | .unsupportedControlCommand via tag oszoed command version => Sys2Proof.Machine.execUnsupportedControlCommand via tag oszoed command version s
  | .misalignedRead who off size => Sys2Proof.Machine.execMisalignedRead who off size s
  | .idleFlit port flit => Sys2Proof.Machine.execIdleFlit port flit s
  | .portDisable port mode enable => Sys2Proof.Machine.execPortDisable port mode enable s
  | .machineTimerInterrupt core => Sys2Proof.Machine.execMachineTimerInterrupt core s
  | .memoryWindowAccess core addr size store strikes data => Sys2Proof.Machine.execMemoryWindowAccess core addr size store strikes data s
  | .userPortWrite off data hub read => Sys2Proof.Machine.execUserPortWrite off data hub s read
  | .tapReset => Sys2Proof.Machine.execTapReset s

end Sys2Proof.Machine
end

