-- ==== Sys2Proof/Machine/Idle.lean ====
section
/-! DEFINITION. What an idle step does: one nanosecond passes. DESIGN CHOICE: the table has no row for a clock, so time passes when no
command waits, one ck_gmc at a time. -/

namespace Sys2Proof.Machine

/-- AON_COUNT, 48 bits over its two registers, counted up by `k`. -/
def Block.aonCount (b : Block) (k : Nat) : Block :=
  let c := b.get .AON_COUNT_LO_COUNT + 2 ^ 32 * b.get .AON_COUNT_HI_COUNT + k
  (b.set .AON_COUNT_LO_COUNT 0 (bits c 0 32)).set .AON_COUNT_HI_COUNT 0 (bits c 32 16)

/-- One nanosecond of the always-on domain: ck_aon is 32.768 kHz, so 32,768 billionths of a cycle pass (R110). Without main power the
domain runs from VBAT at 2.0 V or more. -/
def Block.aonTick (b : Block) : Block :=
  if b.pwr.mainUp = false ∧ b.pwr.vbatMv < 2000 then b
  else
    let x := b.pwr.aonPhase + 32768
    let b := { b with pwr := { b.pwr with aonPhase := x % 1000000000 } }
    if x < 1000000000 then b else b.aonCount 1

/-- At a tick boundary each die counts the ticks it has spent without any work (R89); DEDUCED: a die that is off counts none. -/
def Block.countIdle (b : Block) : Block :=
  if b.atTick then
    let idle (d : Nat) : Die :=
      let x := b.die d
      { x with idleTicks := if x.worked || b.dieBusy d || b.dieOff d then 0 else x.idleTicks + 1, worked := b.dieBusy d }
    (b.setDie 0 (idle 0)).setDie 1 (idle 1)
  else b

/-- One nanosecond in which each log writes a record that waits for it (R833, R834). -/
def Block.logTick (b : Block) : Block := { b with evt := b.evt.drain, vio := b.vio.drain }

/-- One ck_gmc outside reset: the PHC runs (R796), and from the release edge the GMC (R533). -/
def Block.ckGmc (b : Block) : Block :=
  let b := b.phcTick
  if b.pwr.released then b.gmcTick.countIdle else b

/-- A tile's task waits on a pawl. -/
def Block.pawlWait (b : Block) (t : Nat) : Bool := b.hop.pawls.any fun e => e.2.waiters.any fun w => w.who == .task t

/-- The events that a BUSY tile counts in `n` cycles of ck_core (R629): the cycles themselves, those in which its task waits on a pawl, and as
free values what its program does: cycles its matrix engine works, its instructions wait for memory or the issue throttle of R432 stalls
them, and vector instructions, SR draws and NaN results. -/
def Block.tileCycles (b : Block) (n t : Nat) : Block :=
  let b := b.perfAdd t 1 n
  let b := if b.pawlWait t then b.perfAdd t 6 n else b
  let b := if (b.die (tileDie t)).throttle = 0 then b else b.perfFree t 5 n
  let b := (b.perfFree t 2 n).perfFree t 4 n
  [3, 7, 8].foldl (fun b ev => b.perfFree t ev (2 ^ 48 - 1)) b

/-- One nanosecond of a die's ck_core at code ACTUAL, ACTUAL / 20 cycles of it, counted by the BUSY tiles; a change gates the clock (R45).
Where a cycle falls between two nanoseconds is a free value. -/
def Block.coreTick (b : Block) (d : Nat) : Block :=
  let ts := (List.range 32).filter fun t => tileDie t == d && b.tileState t == tBusy
  let c := if (b.die d).change.isSome then 0 else b.actual d
  if ts = [] ∨ c = 0 then b
  else
    let n := c / 20 + (if c % 20 = 0 then 0 else b.freeVal 1)
    ts.foldl (fun b t => b.tileCycles n t) (if c % 20 = 0 then b else b.took)

/-- One nanosecond of every clock: that of the always-on domain, and outside reset those of the other blocks (R60). -/
def Block.nanosecond (b : Block) : Block :=
  let b := ({ b with pwr := { b.pwr with now := b.pwr.now + 1 } }).aonTick
  if b.inReset then b else ((b.logTick.userTick.ckGmc).coreTick 0).coreTick 1

/-- The idle step. Outside reset, what waited for a memory is taken up again. -/
def Block.idle (b : Block) : Block := if b.inReset then b.nanosecond else b.nanosecond.resume

end Sys2Proof.Machine
end

