-- ==== Sys2Proof/Machine/Rounding.lean ====
section
/-! DEFINITION. Stochastic rounding of a task (spec/12 R611 to R613): which Cog draw each element of a vector operand, of an MXFP4 block and
of a matrix write-out uses. The tile's instructions are not documented, so no command draws; a program's are held to this. -/

namespace Sys2Proof.Machine

/-- The word of draw `n` of a task (R612): keyed by the SEED of its descriptor, from its job and stream registers. -/
def TaskRun.draw (r : TaskRun) (desc : List Byte) (n : Nat) : Nat := cogDraw (dSeed desc) r.cogJob r.cogStream n

/-- A value rounded stochastically with draw `n`; one that the format represents draws nothing and is as it was (R611). -/
def TaskRun.srOne (r : TaskRun) (desc : List Byte) (f : Fmt) (sat : Bool) (n : Nat) (v : FVal) : Nat :=
  if f.exact v then f.enc v .rne sat else f.enc v (.sr (r.draw desc n)) sat

/-- A vector operand rounded with base draw number D: element e uses draw D + e (R613). -/
def TaskRun.srVector (r : TaskRun) (desc : List Byte) (f : Fmt) (sat : Bool) (base : Nat) (l : List FVal) : List Nat :=
  (List.range l.length).map fun e => r.srOne desc f sat (base + e) (l.getD e .nan)

/-- The draw of element (i, j) of a write-out's block of 64 columns (R613). -/
def writeOutDraw (base i j : Nat) : Nat := base + 64 * i + j

/-- A matrix write-out, row by row. -/
def TaskRun.srMatrix (r : TaskRun) (desc : List Byte) (f : Fmt) (sat : Bool) (base : Nat) (rows : List (List FVal)) : List (List Nat) :=
  (List.range rows.length).map fun i =>
    let row := rows.getD i []
    (List.range row.length).map fun j => r.srOne desc f sat (writeOutDraw base i j) (row.getD j .nan)

/-- 32 values converted to an MXFP4 block under SR (R600, R613). -/
def TaskRun.srBlock (r : TaskRun) (desc : List Byte) (base : Nat) (l : List FVal) : Nat × List Byte :=
  mxPack l fun e => .sr (r.draw desc (base + e))

/-- A value converted to DF16 under SR (R603, R613). -/
def TaskRun.srDf (r : TaskRun) (desc : List Byte) (n : Nat) (v : FVal) : Nat := dfFrom v (.sr (r.draw desc n))

end Sys2Proof.Machine
end

