-- ==== Sys2Proof/WellFormed.lean ====
section
/-! DEFINITION. Which commands name units and values that the 4400 has. A command that is not well formed could not come: no interface
of the spec carries it. The meanings are total all the same. -/

namespace Sys2Proof

/-- A requester that exists: VF 1 to 8, core 0 to 3 (R185, R785). -/
def Requester.wf : Requester → Bool
  | .pf => true
  | .vf m => decide (1 ≤ m ∧ m ≤ 8)
  | .mctp => true
  | .miller c => decide (c < 4)

/-- A submission ring that exists: 32 for each of 8 partitions, 4 for each core. -/
def SqRef.wf : SqRef → Bool
  | .host p r => decide (p < 8) && decide (r < 32)
  | .post c r => decide (c < 4) && decide (r < 4)

/-- A completion ring that exists: 32 for each of 8 partitions, one for each core. -/
def CqRef.wf : CqRef → Bool
  | .host p r => decide (p < 8) && decide (r < 32)
  | .core c => decide (c < 4)

def PawlAsker.wf : PawlAsker → Bool
  | .job _ => true
  | .task t => decide (t < 32)

def PawlFreer.wf : PawlFreer → Bool
  | .desc sq => sq.wf
  | .task t => decide (t < 32)

def PawlEvent.wf : PawlEvent → Bool
  | .release who pawl _ => who.wf && decide (pawl < 4096)
  | .renew who pawl _ => who.wf && decide (pawl < 4096)
  | .taskEnd tile status cause => decide (tile < 32) && decide (status < 256) && decide (cause < 65536)
  | .ctxKill part mask => decide (part < 8) && decide (mask < 2 ^ 64)
  | .partReset mask => decide (mask < 256)
  | .pawlBreak part pawl => decide (part < 8) && decide (pawl < 4096)
  | .lease pawl => decide (pawl < 4096)
  | .acquire who pawl _ => who.wf && decide (pawl < 4096)
  | .tryOnce who pawl _ => who.wf && decide (pawl < 4096)
  | .limit pawl => decide (pawl < 4096)

def HostRead.wf : HostRead → Bool
  | .line p l => decide (p < 8) && decide (l < 8)
  | .fetch p r => decide (p < 8) && decide (r < 32)
  | .data _ => true
  | .slot => true

def HostAccess.wf : HostAccess → Bool
  | .read r => r.wf
  | .record p r => decide (p < 8) && decide (r < 32)
  | .dataWrite _ => true

/-- A set-up write lies in the set-up space, and its value fits its size. -/
def SetWrite.wf (w : SetWrite) : Bool := w.who.wf && decide (w.off < 2 ^ 24) && decide (w.val < 2 ^ (8 * w.size))

/-- Functions 0 to 8 exist: the PF and eight VFs (R185). -/
def CfgRequest.wf : CfgRequest → Bool
  | .read fn _ => decide (fn < 9)
  | .write fn _ _ => decide (fn < 9)
  | .vfEnable _ n => decide (n < 2 ^ 16)
  | .atsEnable fn _ => decide (fn < 9)
  | .msixEnable fn _ => decide (fn < 9)
  | .msixMask fn v => decide (fn < 9) && decide (v < if fn = 0 then 2048 else 256)
  | .bar2Read fn off => decide (fn < 9) && decide (off < if fn = 0 then 2 ^ 16 else 2 ^ 13)
  | .bar2Write fn off v => decide (fn < 9) && decide (off < if fn = 0 then 2 ^ 16 else 2 ^ 13) && decide (v < 2 ^ 32)

/-- An upset names bits of one word: 64 of the frame and 8 check bits. -/
def Upset.wf (u : Upset) : Bool := u.flips.all (fun i => decide (i < 72))

/-- A strike names a sector and changes symbols of it. -/
def Strike.wf (s : Strike) : Bool := decide (s.addr % 32 = 0) && s.err.all (fun e => decide (e.2 ≠ 0))

/-- A DIMM's counts of address bits lie in their SPD ranges. -/
def Dimm.wf (d : Dimm) : Bool := decide (d.col < 32) && decide (d.bg < 32) && decide (d.row < 32)

/-- The fields of a message fit their widths (R476). -/
def Msg.wf (m : Msg) : Bool :=
  decide (m.dest < 2 ^ 16) && decide (m.src < 2 ^ 16) && decide (m.mflags < 2 ^ 8) && decide (m.part < 2 ^ 8) &&
  decide (m.status < 2 ^ 8) && decide (m.rtag < 2 ^ 32) && decide (m.len < 2 ^ 32) && decide (m.cause < 2 ^ 16) &&
  decide (m.addr < 2 ^ 64) && decide (m.aux < 2 ^ 64)

def Reply.wf (r : Reply) : Bool := decide (r.status < 2 ^ 8) && decide (r.cause < 2 ^ 16) && decide (r.aux < 2 ^ 64)

/-- A plan carries a Mark of 32 bytes (R813). -/
def PlanAnswer.wf (a : PlanAnswer) : Bool := decide (a.mark.length = 32) && decide (a.outcome < 2 ^ 8)

def SohAnswer.wf (a : SohAnswer) : Bool := decide (a.mark.length = 32) && decide (a.outcome < 2 ^ 8)

/-- The command names units that exist and values that fit. -/
def Instr.wf : Instr → Bool
  | .coldStart => true
  | .mainPowerLoss => true
  | .railDroop rail _ _ => decide (rail < 7)
  | .perstAssert => true
  | .perstDeassert src fail chain => decide (src < 4) && decide (fail < 2) && decide (chain < 2)
  | .vbatLow _ => true
  | .zeroAssert _ => true
  | .aonWrite who off size val => who.wf && decide (off < 2 ^ 24) && decide (val < 2 ^ (8 * size))
  | .aonStatusWrite who val meet => who.wf && decide (val < 2 ^ 32) && decide (meet < 16)
  | .aonWriteApplied => true
  | .pkgReset val => decide (val < 2 ^ 32)
  | .partReset mask => decide (mask < 2 ^ 8)
  | .partitionResetDone part => decide (part < 8)
  | .svcPartReset core mask => decide (core < 4) && decide (mask < 2 ^ 8)
  | .dieReset mask => decide (mask < 4)
  | .dieFault die => decide (die < 2)
  | .dieRecoveryDone die tests => decide (die < 2) && tests.all (fun t => decide (t.1 < 32))
  | .mbaryPortReset mask => decide (mask < 2 ^ 8)
  | .ethPortReset mask => decide (mask < 2 ^ 4)
  | .a1Entry die => decide (die < 2)
  | .a1EnClear => true
  | .furl => true
  | .furlWaitExpiry => true
  | .furlDiesQuiet => true
  | .wake => true
  | .furlExitDone tests => tests.all (fun t => decide (t.1 < 32))
  | .tierSPairIdle pair => decide (pair < 4)
  | .coreClkGo die target => decide (die < 2) && decide (target < 64)
  | .pllRelock die => decide (die < 2)
  | .clockLostLock bit => decide (bit < 26)
  | .gmcPllRelock => true
  | .flumeWriteResumed _ _ => true
  | .imageAttempt _ => true
  | .dieSelfTestDone passed => decide (passed < 16)
  | .imageTagCheck _ => true
  | .dataSectionLanding _ => true
  | .tierSTrainingDone dimms rates => dimms.all Dimm.wf && dimms.length == 8 && rates.length == 8 && rates.all fun r => decide (r < 4)
  | .releaseEdge => true
  | .retryBackoffExpiry => true
  | .chainByte _ => true
  | .chainTimeout => true
  | .krLoad => true
  | .krClear => true
  | .krLock => true
  | .arbSetGo => true
  | .slotProgram slot _ => decide (slot < 2)
  | .slotCtrlErase slot => decide (slot < 2)
  | .slotCtrlVerify slot => decide (slot < 2)
  | .slotOpDone => true
  | .scrubPass upsets => upsets.all Upset.wf
  | .registerWrite who off size val _ _ also => (SetWrite.mk who off size val 0 0 :: also).all SetWrite.wf
  | .splitReadLow who off => who.wf && decide (off < 2 ^ 24)
  | .gmcCountSplitRead who => who.wf
  | .partGrant who part val => who.wf && decide (part < 8) && decide (val < 2 ^ 32)
  | .pfFlr => true
  | .vfFlr vf => decide (1 ≤ vf ∧ vf ≤ 8)
  | .d3hotEntry fn => decide (fn < 9)
  | .hostLinkDown => true
  | .hostLinkUp _ _ _ _ _ => true
  | .atsInvalidate fn _ _ => decide (fn < 9)
  | .snpData part line => decide (part < 8) && decide (line < 8)
  | .snpCur part line => decide (part < 8) && decide (line < 8)
  | .snpInv part line => decide (part < 8) && decide (line < 8)
  | .doorbellPoll part => decide (part < 8)
  | .doorbellLineReturn part line _ => decide (part < 8) && decide (line < 8)
  | .hostReadCompletion which _ _ => which.wf
  | .hostReadTimeout which => which.wf
  | .descriptorFetch sq => sq.wf
  | .descriptorFetchReturn sq _ => sq.wf
  | .handOver sq also => sq.wf && also.all SqRef.wf
  | .sqEnable sq word => sq.wf && decide (word < 2 ^ 64)
  | .sqDisable sq => sq.wf
  | .cqEnable cq word => cq.wf && decide (word < 2 ^ 64)
  | .cqDisable cq => cq.wf
  | .irqTimeExpiry part ring => decide (part < 8) && decide (ring < 32)
  | .nop _ => true
  | .launch _ strikes replies => strikes.all Strike.wf && replies.all Reply.wf
  | .launchAt _ strikes replies => strikes.all Strike.wf && replies.all Reply.wf
  | .launchAtReady _ => true
  | .launchAtStart _ => true
  | .acquire who pawl _ also => who.wf && decide (pawl < 4096) && also.all PawlEvent.wf
  | .pawlTry who pawl _ also => who.wf && decide (pawl < 4096) && also.all PawlEvent.wf
  | .release who pawl _ also => who.wf && decide (pawl < 4096) && also.all PawlEvent.wf
  | .renew who pawl _ also => who.wf && decide (pawl < 4096) && also.all PawlEvent.wf
  | .pawlBreak part pawl also => decide (part < 8) && decide (pawl < 4096) && also.all PawlEvent.wf
  | .leaseExpiry pawl also => decide (pawl < 4096) && also.all PawlEvent.wf
  | .waitLimitExpiry pawl also => decide (pawl < 4096) && also.all PawlEvent.wf
  | .ctxKill part mask => decide (part < 8) && decide (mask < 2 ^ 64)
  | .delayDue => true
  | .agePromotion part => decide (part < 8)
  | .deadlinePassed _ => true
  | .taskDispatch part => decide (part < 8)
  | .taskEnd tile status cause => decide (tile < 32) && decide (status < 256) && decide (cause < 65536)
  | .tailraceRelease => true
  | .loadTile tile reg addr _ strikes => decide (tile < 32) && decide (reg < 32) && decide (addr < 2 ^ 64) && strikes.all Strike.wf
  | .storeTile tile addr _ also => decide (tile < 32) && decide (addr < 2 ^ 64) &&
      also.all fun x => decide (x.tile < 32) && decide (x.addr < 2 ^ 64)
  | .spoutGather tile reg size addrs strikes => decide (tile < 32) && decide (reg < 32) && decide (size ∈ [4, 8, 16]) &&
    decide (1 ≤ addrs.length ∧ addrs.length ≤ 8) && strikes.all Strike.wf
  | .translationFill die part _ => decide (die < 2) && decide (part < 8)
  | .translationEntryExpiry die pkg part _ => decide (die < 2) && decide (pkg < 1024) && decide (part < 8)
  | .wcHoldExpiry die pkg line => decide (die < 2) && decide (pkg < 1024) && decide (line < 2 ^ 57)
  | .flushAck die line strikes => decide (die < 2) && decide (line < 2 ^ 57) && strikes.all Strike.wf
  | .copy _ strikes => strikes.all Strike.wf
  | .invalidate _ => true
  | .place _ => true
  | .unplace _ => true
  | .ptXchg part _ _ => decide (part < 8)
  | .freeAll => true
  | .patrolScrub memory strikes => decide (memory < 10) && strikes.all Strike.wf
  | .liveRemap stack off _ => decide (stack < 2) && decide (off < 2 ^ 35)
  | .remapRetire channel => decide (channel < 8)
  | .channelTakeOut channel _ => decide (channel < 8)
  | .sluiceRefill memory => decide (memory < 10)
  | .governorReading _ _ _ => true
  | .localHoldEnd => true
  | .portEnable port _ => decide (port < 8)
  | .detectPoll port _ => decide (port < 8)
  | .equaliseDone port _ => decide (port < 8)
  | .alignDone port _ => decide (port < 8)
  | .tsFlit port body => decide (port < 8) && decide (body.length = 236)
  | .dataFlit port flit _ _ frac => decide (port < 8) && decide (flit.length = 256) && decide (frac < 16)
  | .nak port _ _ => decide (port < 8)
  | .replayTimeout port => decide (port < 8)
  | .lossOfAlignment port => decide (port < 8)
  | .retrainEnd port _ => decide (port < 8)
  | .fenceClear port => decide (port < 8)
  | .readReq port msg strikes => decide (port < 8) && msg.wf && strikes.all Strike.wf
  | .writeReq port msg strikes => decide (port < 8) && msg.wf && strikes.all Strike.wf
  | .writeMasked port msg strikes => decide (port < 8) && msg.wf && strikes.all Strike.wf
  | .xlate port msg => decide (port < 8) && msg.wf
  | .readRsp port msg => decide (port < 8) && msg.wf
  | .writeRsp port msg => decide (port < 8) && msg.wf
  | .xlateRsp port msg => decide (port < 8) && msg.wf
  | .reqTimeout _ => true
  | .collUp port msg => decide (port < 8) && msg.wf
  | .collDown port msg => decide (port < 8) && msg.wf
  | .collAbort port msg => decide (port < 8) && msg.wf
  | .collAck port msg => decide (port < 8) && msg.wf
  | .collTimeout group => decide (group < 64)
  | .allReduce _ => true
  | .reduceScatter _ => true
  | .allGather _ => true
  | .broadcast _ => true
  | .barrier _ => true
  | .sync port msg frac => decide (port < 8) && msg.wf && decide (frac < 16)
  | .syncSend fracs => fracs.all (fun f => decide (f < 16))
  | .gmcHoldover => true
  | .holdMsg port msg => decide (port < 8) && msg.wf
  | .holdStart => true
  | .resumeMsg port msg => decide (port < 8) && msg.wf
  | .holdEnd => true
  | .noticeMsg port msg => decide (port < 8) && msg.wf
  | .linkChange port msg => decide (port < 8) && msg.wf
  | .joinAt port msg => decide (port < 8) && msg.wf
  | .routingEpochBoundary => true
  | .holdEntryLapse origin => decide (origin < 1024)
  | .cogGo => true
  | .mkClear part => decide (part < 8)
  | .mkAbsorb part strikes replies => decide (part < 8) && strikes.all Strike.wf && replies.all Reply.wf
  | .markStorePin => true
  | .markStoreErase _ => true
  | .inputMarkDone _ strikes replies => strikes.all Strike.wf && replies.all Reply.wf
  | .outputMarkDone _ strikes replies => strikes.all Strike.wf && replies.all Reply.wf
  | .replayFrameDelivery part => decide (part < 8)
  | .replayDescRelease sq => sq.wf
  | .tileTakeOut tile => decide (tile < 32)
  | .tileReturn tile => decide (tile < 32)
  | .selfTestDone tile _ _ => decide (tile < 32)
  | .tileParity tile _ => decide (tile < 32)
  | .bsort tile keys idx _ _ _ => decide (tile < 32) && decide (keys < 32) && decide (idx < 32)
  | .bmerge tile keysA idxA keysB idxB _ _ _ => decide (tile < 32) && decide (keysA < 32) && decide (idxA < 32) &&
    decide (keysB < 32) && decide (idxB < 32)
  | .bdrop tile keys idx _ _ _ => decide (tile < 32) && decide (keys < 32) && decide (idx < 32)
  | .select _ _ strikes replies => strikes.all Strike.wf && replies.all Reply.wf
  | .chol _ _ _ strikes replies => strikes.all Strike.wf && replies.all Reply.wf
  | .ldlt _ _ _ strikes replies => strikes.all Strike.wf && replies.all Reply.wf
  | .solveLu _ _ _ strikes replies => strikes.all Strike.wf && replies.all Reply.wf
  | .btri _ _ _ strikes replies => strikes.all Strike.wf && replies.all Reply.wf
  | .pcg _ _ _ strikes replies => strikes.all Strike.wf && replies.all Reply.wf
  | .solveFactor _ _ _ strikes replies => strikes.all Strike.wf && replies.all Reply.wf
  | .build _ strikes replies => strikes.all Strike.wf && replies.all Reply.wf
  | .slices _ strikes replies => strikes.all Strike.wf && replies.all Reply.wf
  | .swap _ strikes => strikes.all Strike.wf
  | .swapRetire _ => true
  | .refresh _ strikes => strikes.all Strike.wf
  | .nodeCacheLineExpiry die _ => decide (die < 2)
  | .checkDesc _ _ strikes replies => strikes.all Strike.wf && replies.all Reply.wf
  | .planDesc _ _ _ strikes replies => strikes.all Strike.wf && replies.all Reply.wf
  | .millerAccessFault core addr _ _ => decide (core < 4) && decide (addr < 2 ^ 64)
  | .svcMbRing core mask => decide (core < 4) && decide (mask < 2 ^ 4)
  | .h2mRing mask => decide (mask < 2 ^ 4)
  | .m2hRing core => decide (core < 4)
  | .postTail core ring word => decide (core < 4) && decide (ring < 4) && decide (word < 2 ^ 64)
  | .cqHeadw core word => decide (core < 4) && decide (word < 2 ^ 64)
  | .watchdogExpiry core => decide (core < 4)
  | .tenterAccessTimeout core _ _ => decide (core < 4)
  | .userReset => true
  | .tenterUserInterrupt n => decide (n < 8)
  | .ethModeWrite _ => true
  | .ethLinkChange port _ _ => decide (port < 4)
  | .phcStep val => decide (val < 2 ^ 64)
  | .phcSnap => true
  | .txTsPop => true
  | .frameReceive port _ _ => decide (port < 4)
  | .frameTransmit port => decide (port < 4)
  | .sweep part core ring _ => decide (part < 8) && decide (core < 4) && decide (ring < 4)
  | .sweepWaitExpiry part _ => decide (part < 8)
  | .planReq part answer => decide (part < 8) && answer.wf
  | .telemetry part answer => decide (part < 8) && answer.wf
  | .statusReq part stream seq => decide (part < 8) && decide (stream < 2 ^ 32) && decide (seq < 2 ^ 32)
  | .getIdentity _ tag => decide (tag < 2 ^ 16)
  | .readReg _ tag off width => decide (tag < 2 ^ 16) && decide (off < 2 ^ 32) && decide (width < 256)
  | .writeReg _ tag off width val => decide (tag < 2 ^ 16) && decide (off < 2 ^ 32) && decide (width < 256) &&
    decide (val < 2 ^ 64)
  | .getTelemetry _ tag => decide (tag < 2 ^ 16)
  | .slotBegin _ tag slot length => decide (tag < 2 ^ 16) && decide (slot < 256) && decide (length < 2 ^ 32)
  | .slotWrite _ tag off _ => decide (tag < 2 ^ 16) && decide (off < 2 ^ 32)
  | .slotCommit _ tag => decide (tag < 2 ^ 16)
  | .slotErase _ tag slot => decide (tag < 2 ^ 16) && decide (slot < 256)
  | .slotVerify _ tag slot => decide (tag < 2 ^ 16) && decide (slot < 256)
  | .reload _ tag key => decide (tag < 2 ^ 16) && decide (key < 2 ^ 16)
  | .slotSessionTimeout => true
  | .setEndpointId _ tag _ eid => decide (tag < 256) && decide (eid < 256)
  | .getEndpointId _ tag => decide (tag < 256)
  | .getMctpVersionSupport _ tag _ => decide (tag < 256)
  | .getMessageTypeSupport _ tag => decide (tag < 256)
  | .getVendorDefinedMessageSupport _ tag _ => decide (tag < 256)
  | .getVersion _ => true
  | .getCapabilities _ version => decide (version < 256)
  | .negotiateAlgorithms _ version _ _ _ => decide (version < 256)
  | .getDigests _ version => decide (version < 256)
  | .getCertificate _ version slot off _ => decide (version < 256) && decide (slot < 8) && decide (off < 2 ^ 16)
  | .challenge _ version slot nonce kind => decide (kind < 256) && decide (version < 256) && decide (slot < 8) && decide (nonce.length = 32)
  | .getMeasurements _ version _ _ nonce => decide (version < 256) && decide (nonce.length = 32)
  | .i2cBusTimeout => true
  | .extest _ => true
  | .samplePreload _ _ => true
  | .idcode => true
  | .extestPulse _ => true
  | .extestTrain _ => true
  | .highz => true
  | .clamp => true
  | .mctpPipe _ _ => true
  | .bypass opcode => decide (opcode < 64)
  | .vbatRemoved _ _ => true
  | .vbatApplied _ => true
  | .configurationRequest req => req.wf
  | .d3hotExit fn => decide (fn < 9)
  | .translationCompletion fn _ _ which => decide (fn < 9) && which.wf
  | .msixUnmask fn _ => decide (fn < 9)
  | .unsupportedControlCommand _ tag _ command version => decide (tag < 2 ^ 16) && decide (command < 256) && decide (version < 256)
  | .misalignedRead who off _ => who.wf && decide (off < 2 ^ 24)
  | .idleFlit port flit => decide (port < 8) && decide (flit.length = 256)
  | .portDisable port _ _ => decide (port < 8)
  | .machineTimerInterrupt core => decide (core < 4)
  | .memoryWindowAccess core addr _ _ strikes _ => decide (core < 4) && decide (addr < 2 ^ 64) && strikes.all Strike.wf
  | .userPortWrite off _ hub read =>
    decide (off < 0x200000) && (match hub with | none => true | some (o, _) => decide (o < 0x200000)) &&
      (match read with | none => true | some (c, o, n) => decide (c < 4 ∧ n ≤ 8 ∧ o + n ≤ 0x200000))
  | .tapReset => true

end Sys2Proof
end

