-- ==== Sys2Proof/Safety.lean ====
section
/-! DEFINITION. What a sound state of the package is, in the terms the statements use: the canonical forms of its plain data, and a
step that answers a next state. -/

namespace Sys2Proof.Machine

/-- One cell of the register file: its value fits the field's width and is not the reset value (a field at its reset value is not
listed). -/
def RegCell.ok (c : RegCell) : Bool := decide (c.2.2 < 2 ^ c.1.desc.width) && decide (c.2.2 ≠ c.1.resetVal c.2.1)

/-- The register file's canonical form: cells in ascending order of field and instance, each fitting its field and different from its
reset value. -/
def RegFile.wf : RegFile → Bool
  | [] => true
  | [c] => c.ok
  | c :: e :: r => c.ok && cellLt c.1 c.2.1 e.1 e.2.1 && RegFile.wf (e :: r)

/-- A keyed list's canonical form: keys strictly rising. -/
def Tab.wf {α : Type} : Tab α → Bool
  | [] => true
  | [_] => true
  | x :: y :: r => decide (x.1 < y.1) && Tab.wf (y :: r)

/-- Local memory and the NVM die are in canonical form: addresses strictly rising, no byte listed that an unlisted address reads as. -/
def Block.memWf (b : Block) : Bool := Mem.wf 0 b.mem && Mem.wf 0xFF b.cfg.nvm

/-- The register file is in canonical form, so every register reads as a value of its width. -/
def Block.regsWf (b : Block) : Bool := RegFile.wf b.regs

/-- The tile-present mask of a part that exists (R1): every tile enabled, or exactly four disabled on each grind die. -/
def Block.gradeOk (b : Block) : Bool :=
  b.enabledTiles.length == 32 ||
    ((b.enabledTiles.filter fun t => tileDie t == 0).length == 12 && (b.enabledTiles.filter fun t => tileDie t == 1).length == 12)

/-- Every waiting command is well formed. -/
def State.queueWf (s : State) : Bool := s.pending.all Instr.wf

/-- The register fields that an event record can change. -/
def Fld.eventOwn (f : Fld) : Bool :=
  f ∈ [.EVT_HEAD_COUNT, .EVT_LOST_COUNT, .EVT_DROPPED_COUNT, .EVT_CLASSES_FAULTS, .EVT_CLASSES_WARNS, .AON_LAST_EVENT_RECORD, .M_IRQ_PEND_LINES]

/-- The register fields that a violation record can change. -/
def Fld.violateOwn (f : Fld) : Bool :=
  f ∈ [.VIO_HEAD_COUNT, .VIO_LOST_COUNT, .VIO_DROPPED_COUNT, .VIO_CLASSES_FAULTS, .RE_VIOL_COUNT_COUNT]

/-- A step goes on: neither a fault nor a refusal. -/
def runs (s : State) : Prop := ∃ t, step s = .next t

end Sys2Proof.Machine
end

