-- ==== Sys2Proof/Certificates/Slice0/Obligations.lean ====
section
/-! DEFINITION. The statements for the provers. A command's completion is said as the next state that exec answers for it; each
statement names the rules of the spec it rests on. -/

open Sys2Proof Sys2Proof.Machine

/-- COLD_START, MAIN_POWER_LOSS and RAIL_DROOP: main power comes, and goes with everything outside the always-on domain.
From any state without main power COLD_START raises it with PERST# low and the cause COLD, leaving memory alone.
MAIN_POWER_LOSS with main power up, and RAIL_DROOP of a rail below its limit for more than 2 us with PERST# high, end
main power: every byte of local memory reads 0, the NVM die and the key RAM keep their contents, and a register keeps
its value exactly when its Survives column holds b. VDD_HUB below 0.70 V isolates the always-on domain however short the
droop: a crossing write is discarded. (R60, R109, R110, R844) -/
def Obligations.PowerRisesAndFails : Prop :=
  (∀ s : State, s.blk.pwr.mainUp = false → ∃ t, exec .coldStart s = .next t ∧ t.blk.pwr.mainUp = true ∧ t.blk.pwr.perst = false ∧
    t.blk.pwr.nextCause = 1 ∧ t.blk.mem = s.blk.mem ∧ t.blk.cfg = s.blk.cfg ∧ t.pending = s.pending) ∧
  (∀ s : State, s.blk.pwr.mainUp = true → ∃ t, exec .mainPowerLoss s = .next t ∧ t.blk.pwr.mainUp = false ∧ (∀ a, t.blk.byte a = 0) ∧
    t.blk.cfg.nvm = s.blk.cfg.nvm ∧ t.blk.pwr.keyRam = s.blk.pwr.keyRam ∧
    ∀ f i, t.blk.get f i = if f.desc.b then s.blk.get f i else f.resetVal i) ∧
  (∀ (s : State) (rail mv ns : Nat), s.blk.pwr.mainUp = true → s.blk.pwr.perst = true → mv < railLow rail → 2000 < ns →
    ∃ t, exec (.railDroop rail mv ns) s = .next t ∧ t.blk.pwr.mainUp = false ∧ (∀ a, t.blk.byte a = 0) ∧
    t.blk.cfg.nvm = s.blk.cfg.nvm ∧ t.blk.pwr.keyRam = s.blk.pwr.keyRam ∧
    ∀ f i, t.blk.get f i = if f.desc.b then s.blk.get f i else f.resetVal i) ∧
  (∀ (s : State) (mv ns : Nat), mv < 700 → (s.blk.pwr.perst = false ∨ ns ≤ 2000) →
    ∃ t, exec (.railDroop 1 mv ns) s = .next t ∧ t.blk = { s.blk with pwr := { s.blk.pwr with crossing := none } }) ∧
  (∀ (s : State) (rail mv ns : Nat), (rail ≠ 1 ∨ 700 ≤ mv) → (s.blk.pwr.perst = false ∨ railLow rail ≤ mv ∨ ns ≤ 2000) → exec (.railDroop rail mv ns) s = .next s)

/-- PERST_ASSERT, PERST_DEASSERT and PKG_RESET: the package resets, and the sequence each starts. PERST_ASSERT with main
power and PERST# high resets every register whose Survives column lacks p, empties memory, keeps the NVM die and records
cause 2. PERST_DEASSERT with PERST# low starts a configuration sequence at its first source, armed for the chain exactly
when CFG_SRC is 01. PKG_RESET with its bit and the key starts one; without the bit it takes KEEP_MEM; with a wrong key
it sets BADKEY and resets nothing. (R62, R65, R68, R116, R122) -/
def Obligations.PerstAndPackageResets : Prop :=
  (∀ s : State, s.blk.pwr.mainUp = true → s.blk.pwr.perst = true → ∃ t, exec .perstAssert s = .next t ∧ t.blk.pwr.perst = false ∧
    t.blk.pwr.nextCause = 2 ∧ t.blk.pwr.released = false ∧ t.blk.cfg.nvm = s.blk.cfg.nvm ∧ (∀ a, t.blk.byte a = 0) ∧
    ∀ f i, t.blk.get f i = if f.desc.p then s.blk.get f i else f.resetVal i) ∧
  (∀ (s : State) (src fail chain : Nat), s.blk.pwr.mainUp = true → s.blk.pwr.perst = false →
    ∃ t, exec (.perstDeassert src fail chain) s = .next t ∧ t.blk.cfg.phase = .attempt 0 ∧ t.blk.cfg.chainArmed = decide (src % 4 = 1)) ∧
  (∀ (s : State) (val : Nat), val.testBit 0 = true → bits val 16 16 = 0x7A11 →
    s.blk.inReset = false → ∃ t, exec (.pkgReset val) s = .next t ∧ t.blk.cfg.phase = .attempt 0 ∧ t.blk.cfg.chainArmed = decide (s.blk.cfg.pinSrc % 4 = 1)) ∧
  (∀ (s : State) (val : Nat), val.testBit 0 = false →
    s.blk.inReset = false → ∃ t, exec (.pkgReset val) s = .next t ∧ t.blk.get .RST_CTRL_KEEP_MEM 0 = bit1 val 1 % 2 ∧ t.blk.mem = s.blk.mem ∧
    t.blk.cfg = s.blk.cfg ∧ t.blk.pwr = s.blk.pwr ∧
    ∀ f i, f ≠ .RST_CTRL_KEEP_MEM → f ≠ .RST_CTRL_BADKEY → t.blk.get f i = s.blk.get f i) ∧
  (∀ (s : State) (val : Nat), val.testBit 0 = true → bits val 16 16 ≠ 0x7A11 →
    s.blk.inReset = false → ∃ t, exec (.pkgReset val) s = .next t ∧ t.blk.get .RST_CTRL_BADKEY 0 = 1 ∧ t.blk.mem = s.blk.mem ∧ t.blk.cfg = s.blk.cfg ∧
    t.blk.pwr = s.blk.pwr)

/-- AON_WRITE, KR_LOAD, KR_CLEAR, KR_LOCK, AON_STATUS_WRITE and AON_WRITE_APPLIED. With no write crossing, a write of an
always-on field that can change is the one that crosses, and the three key-RAM writes are writes of KR_CTRL with LOAD,
CLEAR or LOCK; while one crosses, another is dropped and AON_DROP is set. a write that lands only in fixed bits, or
while one crosses would change nothing, does nothing. AON_STATUS is written at once, each of its flags cleared by a one,
but for one that hardware sets in that cycle. When the crossing write is applied the domain is free again, and the word
written is a KR_DATA word, the key RAM, the LOCK or an AON_SCRATCH word. (R33, R114, R115, R140, R141, R142, R207, R880) -/
def Obligations.AlwaysOnWrites : Prop :=
  (∀ (s : State) (who : Requester) (off size val : Nat), (who = .mctp ∨ who = .pf ∧ s.blk.inD3 .pf = false) → (size = 4 ∨ size = 8) → off % size = 0 → aonOffset off = true →
    (∀ w ∈ wordsOf off size val, fieldsAt w.1 ≠ []) → (∃ w ∈ wordsOf off size val, aonLive w.1 = true) → s.blk.pwr.crossing = none →
    s.blk.inReset = false → ∃ t, exec (.aonWrite who off size val) s = .next t ∧ t.blk.regs = s.blk.regs ∧ t.blk.mem = s.blk.mem ∧
    t.blk.pwr = { s.blk.pwr with crossing := some { who := who, off := off, size := size, val := val % 2 ^ (8 * size) } }) ∧
  (∀ (s : State) (who : Requester) (off size val : Nat), (who = .mctp ∨ who = .pf ∧ s.blk.inD3 .pf = false) → (size = 4 ∨ size = 8) → off % size = 0 → aonOffset off = true →
    (∀ w ∈ wordsOf off size val, fieldsAt w.1 ≠ []) → (∃ w ∈ wordsOf off size val, aonLive w.1 = true) → s.blk.pwr.crossing ≠ none →
    (∃ w ∈ wordsOf off size val, s.blk.aonChanges w.1 w.2 = true) →
    s.blk.inReset = false → ∃ t, exec (.aonWrite who off size val) s = .next t ∧ t.blk.get .AON_STATUS_AON_DROP 0 = 1 ∧ t.blk.pwr = s.blk.pwr ∧
    ∀ f i, f ≠ .AON_STATUS_AON_DROP → t.blk.get f i = s.blk.get f i) ∧
  (∀ (s : State) (who : Requester) (off size val : Nat), (who = .mctp ∨ who = .pf ∧ s.blk.inD3 .pf = false) → (size = 4 ∨ size = 8) → off % size = 0 → aonOffset off = true →
    (∀ w ∈ wordsOf off size val, fieldsAt w.1 ≠ []) → off ≠ 0x30100 →
    (s.blk.pwr.crossing ≠ none ∧ (∀ w ∈ wordsOf off size val, s.blk.aonChanges w.1 w.2 = false) ∨ ∀ w ∈ wordsOf off size val, aonLive w.1 = false) →
    exec (.aonWrite who off size val) s = .next s) ∧
  (∀ s : State, s.blk.inD3 .pf = false → s.blk.pwr.crossing = none → s.blk.inReset = false → ∃ t, exec .krLoad s = .next t ∧ t.blk.regs = s.blk.regs ∧ t.blk.mem = s.blk.mem ∧
    t.blk.pwr = { s.blk.pwr with crossing := some { who := .pf, off := 0x10120, size := 4, val := 1 } }) ∧
  (∀ s : State, s.blk.inD3 .pf = false → s.blk.pwr.crossing = none → s.blk.inReset = false → ∃ t, exec .krClear s = .next t ∧ t.blk.regs = s.blk.regs ∧ t.blk.mem = s.blk.mem ∧
    t.blk.pwr = { s.blk.pwr with crossing := some { who := .pf, off := 0x10120, size := 4, val := 2 } }) ∧
  (∀ s : State, s.blk.inD3 .pf = false → s.blk.pwr.crossing = none → s.blk.inReset = false → ∃ t, exec .krLock s = .next t ∧ t.blk.regs = s.blk.regs ∧ t.blk.mem = s.blk.mem ∧
    t.blk.pwr = { s.blk.pwr with crossing := some { who := .pf, off := 0x10120, size := 4, val := 4 } }) ∧
  (∀ (s : State) (who : Requester) (val meet : Nat), (who = .mctp ∨ who = .pf ∧ s.blk.inD3 .pf = false) →
    s.blk.inReset = false → ∃ t, exec (.aonStatusWrite who val meet) s = .next t ∧ t.blk.pwr = s.blk.pwr ∧ t.blk.mem = s.blk.mem ∧
    t.blk.get .AON_STATUS_AON_DROP 0 = (if meet.testBit 1 then 1 else if val.testBit 1 then 0 else s.blk.get .AON_STATUS_AON_DROP 0) ∧
    t.blk.get .AON_STATUS_ZEROED 0 = (if meet.testBit 2 then 1 else if val.testBit 2 then 0 else s.blk.get .AON_STATUS_ZEROED 0) ∧
    t.blk.get .AON_STATUS_VBAT_LOST 0 = (if meet.testBit 3 then 1 else if val.testBit 3 then 0 else s.blk.get .AON_STATUS_VBAT_LOST 0) ∧
    ∀ f i, f ≠ .AON_STATUS_AON_DROP → f ≠ .AON_STATUS_ZEROED → f ≠ .AON_STATUS_VBAT_LOST → t.blk.get f i = s.blk.get f i) ∧
  (∀ (s : State) (w : AonWrite), s.blk.pwr.crossing = some w → w.size ≠ 8 → (∃ k < 8, w.off = 0x10100 + 4 * k) →
    ∃ t, exec .aonWriteApplied s = .next t ∧ t.blk.regs = s.blk.regs ∧
    t.blk.pwr = { s.blk.pwr with crossing := none, krData := s.blk.pwr.krData.set ((w.off - 0x10100) / 4) (w.val % 2 ^ 32) }) ∧
  (∀ (s : State) (w : AonWrite), s.blk.pwr.crossing = some w → w.size ≠ 8 → w.off = 0x10120 → s.blk.get .KR_CTRL_LOCK 0 = 0 →
    ∃ t, exec .aonWriteApplied s = .next t ∧ t.blk.pwr.crossing = none ∧
    t.blk.pwr.keyRam = (if w.val.testBit 1 then none else if w.val.testBit 0 then some (s.blk.pwr.krData.flatMap (leBytes 4))
      else s.blk.pwr.keyRam) ∧
    t.blk.get .KR_CTRL_LOCK 0 = if w.val.testBit 2 then 1 else 0) ∧
  (∀ (s : State) (w : AonWrite), s.blk.pwr.crossing = some w → w.size ≠ 8 → (∃ k < 4, w.off = 0x30120 + 4 * k) →
    ∃ t, exec .aonWriteApplied s = .next t ∧ t.blk.pwr = { s.blk.pwr with crossing := none } ∧
    t.blk.get .AON_SCRATCH_DATA ((w.off - 0x30120) / 4) = w.val % 2 ^ 32 ∧
    ∀ f i, ¬(f = .AON_SCRATCH_DATA ∧ i = (w.off - 0x30120) / 4) → t.blk.get f i = s.blk.get f i) ∧
  (∀ (s : State) (w : AonWrite), s.blk.pwr.crossing = some w → w.size = 8 → ∃ t, exec .aonWriteApplied s = .next t ∧
    t.blk = (({ s.blk with pwr := { s.blk.pwr with crossing := none } }).applyAonWord w.off (w.val % 2 ^ 32)).applyAonWord (w.off + 4) (w.val / 2 ^ 32))

/-- VBAT_LOW, VBAT_REMOVED, VBAT_APPLIED and ZERO_ASSERT. Each battery command within its range gives VBAT its new value and
leaves memory, the key RAM and every register outside the event log alone; a removal that damaged the check pattern
without main power is remembered. ZERO# low for at least 2 ck_aon empties the key RAM and sets ZEROED. (R58, R110, R111,
R112) -/
def Obligations.BatteryAndZeroPin : Prop :=
  (∀ (s : State) (mv : Nat), mv < 2100 → ∃ t, exec (.vbatLow mv) s = .next t ∧ t.blk.pwr = { s.blk.pwr with vbatMv := mv } ∧
    t.blk.mem = s.blk.mem ∧ ∀ f i, f.eventOwn = false → t.blk.get f i = s.blk.get f i) ∧
  (∀ (s : State) (mv : Nat) (damaged : Bool), mv < 2000 → ∃ t, exec (.vbatRemoved mv damaged) s = .next t ∧
    t.blk.pwr = { s.blk.pwr with vbatMv := mv, pattern := s.blk.pwr.pattern && (s.blk.pwr.mainUp || !damaged) } ∧
    t.blk.mem = s.blk.mem ∧ ∀ f i, f.eventOwn = false → t.blk.get f i = s.blk.get f i) ∧
  (∀ (s : State) (mv : Nat), 2100 ≤ mv → ∃ t, exec (.vbatApplied mv) s = .next t ∧ t.blk.pwr = { s.blk.pwr with vbatMv := mv } ∧
    t.blk.mem = s.blk.mem ∧ t.blk.regs = s.blk.regs) ∧
  (∀ (s : State) (n : Nat), 2 ≤ n → ∃ t, exec (.zeroAssert n) s = .next t ∧ t.blk.pwr.keyRam = none ∧
    t.blk.get .AON_STATUS_ZEROED 0 = 1 ∧ t.blk.mem = s.blk.mem ∧
    ∀ f i, f ≠ .AON_STATUS_ZEROED → f.eventOwn = false → t.blk.get f i = s.blk.get f i)

/-- DIE_RESET, DIE_FAULT and DIE_RECOVERY_DONE. After release, a die that is neither recovering nor gated enters recovery by
DIE_RESET or DIE_FAULT; DIE_RESET of one that is either sets DIE_BADREQ and changes no other register; where no task
runs, the die recovers with its tile memory and die-shared SRAM reading 0 and every other byte as before.
DIE_RECOVERY_DONE ends the recovery, locks the clock, restarts the sluices, writes event 0x03, takes the results of the
self-tests and serves what was held. (R65, R81, R82, R84, R86, R87, R118) -/
def Obligations.DieResetsAndRecovery : Prop :=
  (∀ (s : State) (d : Nat), d < 2 → s.blk.pwr.released = true → (s.blk.die d).recovering = false → (s.blk.die d).gated = false → 
    s.blk.inReset = false → ∃ t, exec (.dieReset (2 ^ d)) s = .next t ∧ t.blk = s.blk.startRecovery d true) ∧
  (∀ (s : State) (d : Nat), d < 2 → ((s.blk.die d).recovering = true ∨ (s.blk.die d).gated = true) → 
    s.blk.inReset = false → ∃ t, exec (.dieReset (2 ^ d)) s = .next t ∧ t.blk.get .DIE_RESET_DIE_BADREQ 0 = 1 ∧ t.blk.mem = s.blk.mem ∧ t.blk.dies = s.blk.dies ∧
    ∀ f i, f ≠ .DIE_RESET_DIE_BADREQ → t.blk.get f i = s.blk.get f i) ∧
  (∀ (s : State) (d : Nat) (c : Instr), d < 2 → d < s.blk.dies.length → (c = .dieFault d ∨ c = .dieReset (2 ^ d)) → s.blk.pwr.released = true → (s.blk.die d).recovering = false → (s.blk.die d).gated = false → (∀ k, s.blk.taskOwner k = none) → 
    s.blk.inReset = false → ∃ t, exec c s = .next t ∧ (t.blk.die d).recovering = true ∧
    ∀ a, t.blk.byte a = if (tileMemBase (16 * d) ≤ a ∧ a < tileMemBase (16 * d) + 0x2000000) ∨
      (apBase + 0x4000000 + d * 0x200000 ≤ a ∧ a < apBase + 0x4000000 + d * 0x200000 + 0x200000) then 0 else s.blk.byte a) ∧
  (∀ (s : State) (d : Nat), d < 2 → s.blk.pwr.released = true → (s.blk.die d).recovering = false → (s.blk.die d).gated = false → 
    s.blk.inReset = false → ∃ t, exec (.dieFault d) s = .next t ∧ t.blk = s.blk.startRecovery d false) ∧
  (∀ (s : State) (d : Nat) (tests : List (Nat × Nat)) (b : Block), (s.blk.die d).recovering = true → b = ((s.blk.setDie d { s.blk.die d with recovering := false }).lockDie d).restartSluices d → 
    s.blk.inReset = false → ∃ t, exec (.dieRecoveryDone d tests) s = .next t ∧ t.blk = ((((b.event 0x03 0x03).testTiles ((b.event 0x03 0x03).dieTiles d) tests).furlCount).serveArrived).resume)

/-- PART_RESET, SVC_PART_RESET and PARTITION_RESET_DONE. PART_RESET starts the reset of a partition that is not
service-owned and not resetting; SVC_PART_RESET that of a service-owned one; a bit for a partition of the other kind
starts nothing and writes a violation record; one that is resetting is left as it is. PARTITION_RESET_DONE, once every
record of the partition is written, clears RESETTING and the request bits, empties the host submission rings of the
partition, and leaves memory alone. (R72, R73, R79, R80, R120, R817) -/
def Obligations.PartitionResets : Prop :=
  (∀ (s : State) (p : Nat), p < 8 → s.blk.get .PART_GRANT_OWNER p ≠ 2 → s.blk.resetting p = false → 
    s.blk.inReset = false → ∃ t, exec (.partReset (2 ^ p)) s = .next t ∧ t.blk = (s.blk.setB .PART_RESET_PART 0 p).partReset p) ∧
  (∀ (s : State) (p : Nat), p < 8 → s.blk.get .PART_GRANT_OWNER p = 2 → 
    s.blk.inReset = false → ∃ t, exec (.partReset (2 ^ p)) s = .next t ∧ t.blk = s.blk.violate 0xA0 0xFA p 0 0 3 (leBytes 4 0x30008 ++ [4])) ∧
  (∀ (s : State) (p core : Nat), p < 8 → s.blk.get .PART_GRANT_OWNER p = 2 → s.blk.resetting p = false → 
    s.blk.inReset = false → ∃ t, exec (.svcPartReset core (2 ^ p)) s = .next t ∧ t.blk = (s.blk.setB .SVC_PART_RESET_PART 0 p).partReset p) ∧
  (∀ (s : State) (p core : Nat), p < 8 → s.blk.get .PART_GRANT_OWNER p ≠ 2 → 
    s.blk.inReset = false → ∃ t, exec (.svcPartReset core (2 ^ p)) s = .next t ∧ t.blk = s.blk.violate 0xA0 0xFA p (0x0A + core) 0 3 (leBytes 4 0xA00008 ++ [4])) ∧
  (∀ (s : State) (p : Nat) (c : Instr), p < 8 → s.blk.resetting p = true → ((c = .partReset (2 ^ p) ∧ s.blk.get .PART_GRANT_OWNER p ≠ 2) ∨ (∃ k, c = .svcPartReset k (2 ^ p)) ∧ s.blk.get .PART_GRANT_OWNER p = 2) → 
    s.blk.inReset = false → ∃ t, exec c s = .next t ∧ t = s) ∧
  (∀ (s : State) (p : Nat), p < 8 → s.blk.resetting p = true → s.blk.recordsHeld p ≠ [] → 
    s.blk.inReset = false → ∃ t, exec (.partitionResetDone p) s = .next t ∧ t = s) ∧
  (∀ (s : State) (p : Nat), p < 8 → s.blk.resetting p = true → s.blk.recordsHeld p = [] → 
    s.blk.inReset = false → ∃ t, exec (.partitionResetDone p) s = .next t ∧ t.blk.get .PART_STATUS_RESETTING p = 0 ∧ t.blk.bit .PART_RESET_PART 0 p = false ∧
    t.blk.bit .SVC_PART_RESET_PART 0 p = false ∧ t.blk.mem = s.blk.mem ∧ ∀ e ∈ t.blk.sqs, ¬(e.1 / 32 = p ∧ e.1 < 256))

/-- A1_ENTRY, A1_EN_CLEAR, FURL, FURL_WAIT_EXPIRY, FURL_DIES_QUIET, WAKE, FURL_EXIT_DONE and TIER_S_PAIR_IDLE. A1_ENTRY
gates an idle die; clearing A1_EN takes every die out of A1. FURL starts to count FURL_WAIT, or waits for a change or
recovery to end, or is refused in a transition. FURL_WAIT_EXPIRY with work left abandons the entry, or with FORCE ends
the work. FURL_DIES_QUIET flushes and then gates both dies. WAKE starts the exit, abandons an entry or is held.
FURL_EXIT_DONE ungates both dies, takes the self-test results, writes event 0x06 and serves held work. An idle pair
returns to self-refresh. (R89, R93, R94, R95, R96, R97, R99, R100, R101, R103, R107, R108) -/
def Obligations.FurledAndA1 : Prop :=
  (∀ (s : State) (d : Nat), d < 2 → d < s.blk.dies.length → s.blk.pwr.released = true → s.blk.on .PWR_CTRL_A1_EN = true → s.blk.pwr.furl = .a0 → s.blk.dieOff d = false → s.blk.dieBusy d = false → max 1 (s.blk.get .PWR_CTRL_A1_IDLE) ≤ (s.blk.die d).idleTicks → 
    s.blk.inReset = false → ∃ t, exec (.a1Entry d) s = .next t ∧ (t.blk.die d).a1 = true ∧ t.blk.regs = s.blk.regs ∧ t.blk.mem = s.blk.mem ∧ t.blk.pwr = s.blk.pwr ∧
    ∀ k, k ≠ d → t.blk.die k = s.blk.die k) ∧
  (∀ (s : State), 
    s.blk.inReset = false → ∃ t, exec .a1EnClear s = .next t ∧ t.blk.get .PWR_CTRL_A1_EN 0 = 0 ∧ (∀ x ∈ t.blk.dies, x.a1 = false) ∧ t.blk.mem = s.blk.mem ∧
    ∀ f i, f ≠ .PWR_CTRL_A1_EN → t.blk.get f i = s.blk.get f i) ∧
  (∀ (s : State), s.blk.pwr.released = true → s.blk.pwr.furl = .a0 → s.blk.changing = false → s.blk.recovery = false → 
    s.blk.inReset = false → ∃ t, exec .furl s = .next t ∧ t.blk.pwr = { s.blk.pwr with furl := .entering, wakeHeld := false, furlDue := s.blk.dueAt s.blk.gmc (s.blk.get .PWR_CTRL_FURL_WAIT) } ∧
    t.blk.regs = s.blk.regs ∧ t.blk.mem = s.blk.mem) ∧
  (∀ (s : State), s.blk.pwr.released = true → s.blk.pwr.furl = .a0 → (s.blk.changing = true ∨ s.blk.recovery = true) → 
    s.blk.inReset = false → ∃ t, exec .furl s = .next t ∧ t.blk.pwr = { s.blk.pwr with furl := .waiting, wakeHeld := false } ∧ t.blk.regs = s.blk.regs ∧ t.blk.mem = s.blk.mem) ∧
  (∀ (s : State), s.blk.pwr.released = true → s.blk.pwr.furl ≠ .a0 → s.blk.pwr.furl ≠ .furled → 
    s.blk.inReset = false → ∃ t, exec .furl s = .next t ∧ t.blk.get .PWR_STATUS_FURL_REFUSED 0 = 1 ∧ t.blk.get .PWR_STATUS_REFUSE_CAUSE 0 = 2 ∧ t.blk.pwr = s.blk.pwr) ∧
  (∀ (s : State), s.blk.pwr.furl = .entering → s.blk.pwr.furlDue ≤ s.blk.gmc → (s.blk.dieBusy 0 || s.blk.dieBusy 1) = true → s.blk.on .PWR_CTRL_FORCE = false → 
    s.blk.inReset = false → ∃ t, exec .furlWaitExpiry s = .next t ∧ t.blk.pwr = { s.blk.pwr with furl := .a0 } ∧ t.blk.get .PWR_STATUS_FURL_REFUSED 0 = 1 ∧
    t.blk.get .PWR_STATUS_REFUSE_CAUSE 0 = 1 ∧ t.blk.mem = s.blk.mem) ∧
  (∀ (s : State), s.blk.pwr.furl = .entering → s.blk.pwr.furlDue ≤ s.blk.gmc → (s.blk.dieBusy 0 || s.blk.dieBusy 1) = true → s.blk.on .PWR_CTRL_FORCE = true → 
    s.blk.inReset = false → ∃ t, exec .furlWaitExpiry s = .next t ∧ t.blk = (List.range 32).foldl (fun b k => b.stopTask k stHost 0) s.blk) ∧
  (∀ (s : State) (b : Block), s.blk.pwr.furl = .entering → s.blk.dieBusy 0 = false → s.blk.dieBusy 1 = false → s.blk.changing = false → s.blk.recovery = false → b = ({ s.blk with ms := { s.blk.ms with wc := s.blk.ms.wc.map (fun (e : WcEntry) => { e with flushing := true }) }, pwr := { s.blk.pwr with furl := .quiet } }).serve → 
    s.blk.inReset = false → ∃ t, exec .furlDiesQuiet s = .next t ∧ t.blk = if b.ms.wc = [] ∧ b.changing = false ∧ b.recovery = false then b.enterFurled else b) ∧
  (∀ (s : State), s.blk.pwr.furl = .entering → (s.blk.dieBusy 0 = true ∨ s.blk.dieBusy 1 = true ∨ s.blk.changing = true ∨ s.blk.recovery = true) → 
    s.blk.inReset = false → ∃ t, exec .furlDiesQuiet s = .next t ∧ t = s) ∧
  (∀ (s : State), s.blk.pwr.furl = .quiet → s.blk.ms.wc = [] → s.blk.changing = false → s.blk.recovery = false → s.blk.pwr.wakeHeld = false → 
    s.blk.inReset = false → ∃ t, exec .furlDiesQuiet s = .next t ∧ t.blk.pwr.furl = .furled ∧ ∀ x ∈ t.blk.dies, x.gated = true) ∧
  (∀ (s : State), s.blk.pwr.released = true → s.blk.pwr.furl = .furled → 
    s.blk.inReset = false → ∃ t, exec .wake s = .next t ∧ t.blk.pwr.furl = .exiting ∧ ∀ k, k < 32 → s.blk.bit .TILE_PRESENT_MASK 0 k = true → t.blk.tileState k = tSelftest) ∧
  (∀ (s : State), s.blk.pwr.released = true → (s.blk.pwr.furl = .waiting ∨ s.blk.pwr.furl = .entering) → 
    s.blk.inReset = false → ∃ t, exec .wake s = .next t ∧ t.blk.pwr = { s.blk.pwr with furl := .a0 } ∧ t.blk.mem = s.blk.mem) ∧
  (∀ (s : State), s.blk.pwr.released = true → s.blk.pwr.furl = .quiet → 
    s.blk.inReset = false → ∃ t, exec .wake s = .next t ∧ t.blk.pwr = { s.blk.pwr with wakeHeld := true } ∧ t.blk.regs = s.blk.regs ∧ t.blk.mem = s.blk.mem) ∧
  (∀ (s : State) (tests : List (Nat × Nat)) (a b : Block), s.blk.pwr.furl = .exiting → a = (({ s.blk with dies := s.blk.dies.map (fun (x : Die) => { x with gated := false }), pwr := { s.blk.pwr with furl := .a0, pairSleep := 0 }, link := { s.blk.link with collide := [] } }).furlRegs.lockDie 0).lockDie 1 → b = (((bitList s.blk.pwr.pairSleep 4).foldl (fun b n => (b.restartSluices (2 + 2 * n)).restartSluices (3 + 2 * n)) a).restartSluices 0).restartSluices 1 → 
    s.blk.inReset = false → ∃ t, exec (.furlExitDone tests) s = .next t ∧ t.blk = ((((b.event 0x03 0x06).testTiles (b.event 0x03 0x06).enabledTiles tests).serveHeld (b.event 0x03 0x06).enabledTiles).serveArrived).resume) ∧
  (∀ (s : State) (n : Nat), n < 4 → s.blk.pwr.furl = .furled → s.blk.pairTrained n = true → Tab.get s.blk.pwr.pairLast n 0 + 1000000 ≤ s.blk.gmc → 
    s.blk.inReset = false → ∃ t, exec (.tierSPairIdle n) s = .next t ∧ t.blk.pwr = { s.blk.pwr with pairSleep := setBit s.blk.pwr.pairSleep n } ∧ t.blk.regs = s.blk.regs ∧ t.blk.mem = s.blk.mem)

/-- CORE_CLK_GO, PLL_RELOCK, CLOCK_LOST_LOCK, GMC_PLL_RELOCK and FLUME_WRITE_RESUMED. GO with a TARGET in range on a running
die starts a change to TARGET or the lower code the Governor holds; while a change runs, or on a die that is off, it is
held pending; out of range it sets BADVAL. PLL_RELOCK ends the change at its code. A loss of lock sets its LOSS bit, and
a core loss starts a die recovery. GMC_PLL_RELOCK ends the loss. A flume that takes entries again lets its writer go on;
in the flume to the host they are posted-write credits. (R37, R43, R44, R45, R46, R49, R51, R52, R903) -/
def Obligations.ClockCommands : Prop :=
  (∀ (s : State) (d target : Nat), d < 2 → d < s.blk.dies.length → (s.blk.die d).change = none → codeOk (target % 64) = true → s.blk.dieOff d = false → 
    s.blk.inReset = false → ∃ t, exec (.coreClkGo d target) s = .next t ∧ t.blk.get .CORE_CLK_TARGET d = target % 64 ∧
    (t.blk.die d).change = some (min (target % 64) (s.blk.die d).govCode) ∧ (t.blk.die d).want = target % 64 ∧ t.blk.mem = s.blk.mem ∧
    ∀ f i, ¬(f = .CORE_CLK_TARGET ∧ i = d) → t.blk.get f i = s.blk.get f i) ∧
  (∀ (s : State) (d target : Nat), d < 2 → ((s.blk.die d).change ≠ none ∧ s.blk.dieOff d = false ∨ codeOk (target % 64) = true ∧ s.blk.dieOff d = true) → 
    s.blk.inReset = false → ∃ t, exec (.coreClkGo d target) s = .next t ∧ t.blk.get .CORE_CLK_PENDING d = 1 ∧ t.blk.dies = s.blk.dies ∧ t.blk.mem = s.blk.mem) ∧
  (∀ (s : State) (d target : Nat), d < 2 → ((s.blk.die d).change = none ∨ s.blk.dieOff d = true) → codeOk (target % 64) = false → 
    s.blk.inReset = false → ∃ t, exec (.coreClkGo d target) s = .next t ∧ t.blk.get .CORE_CLK_BADVAL d = 1 ∧ t.blk.dies = s.blk.dies ∧ t.blk.mem = s.blk.mem) ∧
  (∀ (s : State) (d c : Nat), d < s.blk.dies.length → (s.blk.die d).change = some c → s.blk.on .CORE_CLK_PENDING d = false → 
    s.blk.inReset = false → ∃ t, exec (.pllRelock d) s = .next t ∧ (t.blk.die d).change = none ∧ (t.blk.die d).lastCode = c ∧ t.blk.mem = s.blk.mem) ∧
  (∀ (s : State) (d c : Nat) (b : Block), (s.blk.die d).change = some c → s.blk.on .CORE_CLK_PENDING d = true → b = (s.blk.setDie d { s.blk.die d with change := none, byGov := false, lastCode := c }).event 0x02 0x01 [byteOf d, byteOf (s.blk.die d).lastCode, byteOf c] → 
    s.blk.inReset = false → ∃ t, exec (.pllRelock d) s = .next t ∧ t.blk = ((b.set .CORE_CLK_PENDING d 0).clkGo d).furlCount) ∧
  (∀ (s : State) (n : Nat), 2 ≤ n → n ≠ 3 → n < 26 → s.blk.clkHeld n = true → 
    s.blk.inReset = false → ∃ t, exec (.clockLostLock n) s = .next t ∧ t.blk.bit .CLK_LOSS_LOSS 0 n = true ∧ t.blk.pwr = { s.blk.pwr with lost := setBit s.blk.pwr.lost n } ∧ t.blk.mem = s.blk.mem) ∧
  (∀ (s : State) (n : Nat) (b : Block), n < 2 → s.blk.clkHeld n = true → b = (({ s.blk with pwr := { s.blk.pwr with lost := setBit s.blk.pwr.lost n } }).setB .CLK_LOSS_LOSS 0 n).event 0x02 0x03 [byteOf n] → 
    s.blk.inReset = false → ∃ t, exec (.clockLostLock n) s = .next t ∧ t.blk = b.startRecovery n false) ∧
  (∀ (s : State) (b : Block), s.blk.clkHeld 3 = true → b = (({ s.blk with pwr := { s.blk.pwr with lost := setBit s.blk.pwr.lost 3 } }).setB .CLK_LOSS_LOSS 0 3).event 0x02 0x03 [byteOf 3] → 
    s.blk.inReset = false → ∃ t, exec (.clockLostLock 3) s = .next t ∧ t.blk = if b.gState = gLocked ∨ b.gState = gHoldover then b.setGState gUnsync else b) ∧
  (∀ (s : State), s.blk.pwr.lost.testBit 3 = true → 
    s.blk.inReset = false → ∃ t, exec .gmcPllRelock s = .next t ∧ t.blk.pwr = { s.blk.pwr with lost := clrBit s.blk.pwr.lost 3 } ∧ t.blk.mem = s.blk.mem) ∧
  (∀ (s : State) (flume freed : Nat), freed ≠ 0 → flume ≠ hostFlume → 
    s.blk.inReset = false → ∃ t, exec (.flumeWriteResumed flume freed) s = .next t ∧ t.blk = s.blk.serve) ∧
  (∀ (s : State) (freed c : Nat), freed ≠ 0 → s.blk.link.credits = some c → s.blk.link.stalled = [] → 
    s.blk.inReset = false → ∃ t, exec (.flumeWriteResumed hostFlume freed) s = .next t ∧ t.blk.link = { s.blk.link with credits := some (c + freed) } ∧ t.blk.out = s.blk.out ∧ t.blk.mem = s.blk.mem ∧ t.blk.regs = s.blk.regs) ∧
  (∀ (s : State) (flume : Nat), 
    s.blk.inReset = false → ∃ t, exec (.flumeWriteResumed flume 0) s = .next t ∧ t = s)

/-- IMAGE_ATTEMPT, IMAGE_TAG_CHECK, DIE_SELF_TEST_DONE, TIER_S_TRAINING_DONE, DATA_SECTION_LANDING, RELEASE_EDGE and
RETRY_BACKOFF_EXPIRY. An attempt whose source passes steps 2 to 8 goes on to the body, one whose reads are uncorrectable
fails with its cause and CFG_ERR#, at whichever of the three readings that is. At the tag check an image whose sections
and tag are good waits for the tests and one without a key fails with NO_KEY. The results of self-tests and training are
taken. Sections that may land leave the list of those still to land. With everything ready the release edge releases the
package and ends the sequence. After back-off the first source is attempted again. (R126, R134, R138, R140, R144, R145,
R148, R149, R158, R161) -/
def Obligations.ImageSequence : Prop :=
  (∀ (s : State) (k : Nat) (bad r : Option Nat), s.blk.cfg.phase = .attempt k → s.blk.source k ≠ 2 → (s.blk.bumpSat .CFG_STATUS_ATTEMPTS).slotFault (s.blk.source k) bad = r → 
    s.blk.inReset = false → ∃ t, exec (.imageAttempt bad) s = .next t ∧ t.blk.mem = s.blk.mem ∧
    (r = none → t.blk.cfg.phase = .body k ∧ t.blk.cfg.image = s.blk.slotImage (s.blk.source k)) ∧
    (∀ c, r = some c → t.blk.get .CFG_STATUS_LAST_CAUSE 0 = c % 256 ∧ t.blk.cfg.cfgErr = true)) ∧
  (∀ (s : State) (k o : Nat), s.blk.cfg.phase = .attempt k → s.blk.source k ≠ 2 → s.blk.slotState (s.blk.source k) = slotValid → o < 256 → 
    s.blk.inReset = false → ∃ t, exec (.imageAttempt (some o)) s = .next t ∧ t.blk.get .CFG_STATUS_LAST_CAUSE 0 = 0x0F ∧ t.blk.cfg.cfgErr = true ∧ t.blk.mem = s.blk.mem) ∧
  (∀ (s : State) (k : Nat) (bad : Option Nat), s.blk.cfg.phase = .attempt k → s.blk.source k = 2 → s.blk.chainReady = true → (s.blk.bumpSat .CFG_STATUS_ATTEMPTS).checkPlain s.blk.cfg.chainIn = none → 
    s.blk.inReset = false → ∃ t, exec (.imageAttempt bad) s = .next t ∧ t.blk.cfg.phase = .body k ∧ t.blk.cfg.image = s.blk.cfg.chainIn ∧ t.blk.mem = s.blk.mem) ∧
  (∀ (s : State) (k : Nat) (key : List Byte), s.blk.cfg.phase = .body k → s.blk.source k ≠ 2 → s.blk.cfg.tested = false → s.blk.imageKey = some key → checkBody key false s.blk.cfg.image = none → 
    s.blk.inReset = false → ∃ t, exec (.imageTagCheck false) s = .next t ∧ t.blk.cfg.phase = .tagged k ∧ t.blk.cfg.toLand = s.blk.sectionsOfType 0x06 ∧ t.blk.cfg.plain = imagePlain key s.blk.cfg.image) ∧
  (∀ (s : State) (k : Nat), s.blk.cfg.phase = .body k → s.blk.source k ≠ 2 → s.blk.imageKey = none → 
    s.blk.inReset = false → ∃ t, exec (.imageTagCheck false) s = .next t ∧ t.blk.get .CFG_STATUS_LAST_CAUSE 0 = 0x08 ∧ t.blk.cfg.cfgErr = true) ∧
  (∀ (s : State) (k : Nat), s.blk.cfg.phase = .body k → s.blk.source k ≠ 2 → 
    s.blk.inReset = false → ∃ t, exec (.imageTagCheck true) s = .next t ∧ t.blk.get .CFG_STATUS_LAST_CAUSE 0 = 0x0F ∧ t.blk.cfg.cfgErr = true) ∧
  (∀ (s : State) (k n : Nat) (bad : Bool), s.blk.cfg.phase = .body k → s.blk.source k = 2 → s.blk.cfg.chainLen = some n → n ≤ s.blk.cfg.chainIn.length → 
    s.blk.inReset = false → ∃ t, exec (.imageTagCheck bad) s = .next t ∧ t.blk = s.blk.checkImage k (s.blk.cfg.chainIn.take n)) ∧
  (∀ (s : State) (passed : Nat), s.blk.pwr.mainUp = true → s.blk.pwr.perst = true → s.blk.pwr.released = false → s.blk.cfg.tested = false → 
    s.blk.inReset = false → ∃ t, exec (.dieSelfTestDone passed) s = .next t ∧ t.blk.cfg.tested = true ∧ t.blk.cfg.selfTest = s.blk.cfg.selfTest ||| passed % 16) ∧
  (∀ (s : State) (dimms : List Dimm) (rates : List Nat), s.blk.pwr.mainUp = true → s.blk.pwr.perst = true → s.blk.pwr.released = false → s.blk.cfg.tsTrained = false → 
    s.blk.inReset = false → ∃ t, exec (.tierSTrainingDone dimms rates) s = .next t ∧ t.blk.cfg.tsTrained = true) ∧
  (∀ (s : State) (k : Nat) (bad : Bool), s.blk.cfg.phase = .tagged k → (bad = false ∨ ∀ x ∈ s.blk.cfg.toLand, s.blk.canLand x = false) → 
    s.blk.inReset = false → ∃ t, exec (.dataSectionLanding bad) s = .next t ∧ t.blk.cfg.toLand = s.blk.cfg.toLand.filter fun x => !s.blk.canLand x) ∧
  (∀ (s : State) (k : Nat), s.blk.cfg.phase = .tagged k → (∃ x ∈ s.blk.cfg.toLand, s.blk.canLand x = true) → 
    s.blk.inReset = false → ∃ t, exec (.dataSectionLanding true) s = .next t ∧ t.blk.get .CFG_STATUS_LAST_CAUSE 0 = 0x0F ∧ t.blk.cfg.cfgErr = true ∧ t.blk.mem = s.blk.mem) ∧
  (∀ (s : State) (k : Nat), s.blk.cfg.phase = .tagged k → s.blk.releaseReady = true → 
    s.blk.inReset = false → ∃ t, exec .releaseEdge s = .next t ∧ t.blk.pwr.released = true ∧ t.blk.cfg.phase = .idle ∧ t.blk.cfg.cfgDone = true ∧ t.blk.cfg.cfgErr = false) ∧
  (∀ (s : State) (due : Nat), s.blk.cfg.phase = .backoff due → due ≤ s.blk.pwr.now → 
    s.blk.inReset = false → ∃ t, exec .retryBackoffExpiry s = .next t ∧ t.blk.cfg.phase = .attempt 0 ∧ t.blk.cfg.image = [] ∧ t.blk.regs = s.blk.regs ∧ t.blk.mem = s.blk.mem)

/-- CHAIN_BYTE and CHAIN_TIMEOUT. With main power up and PERST# high, the first byte of a stream that an attempt waits for
begins its segment; a later byte is collected until the segment is whole and forwarded from then on; a stream for which
no attempt waits is neither. A silent chain input fails the attempt that reads it with CHAIN_TIMEOUT. (R162, R164, R165,
R166) -/
def Obligations.DaisyChain : Prop :=
  (∀ (s : State) (x : Byte), s.blk.pwr.mainUp = true → s.blk.pwr.perst = true → s.blk.cfg.chainAt = none → s.blk.cfg.chainArmed = true → 
    s.blk.inReset = false → ∃ t, exec (.chainByte x) s = .next t ∧ t.blk.cfg.chainIn = [x] ∧ t.blk.cfg.chainLen = none ∧ t.blk.cfg.chainArmed = false ∧ t.blk.regs = s.blk.regs ∧ t.blk.mem = s.blk.mem) ∧
  (∀ (s : State) (x : Byte) (m : Nat), s.blk.pwr.mainUp = true → s.blk.pwr.perst = true → s.blk.cfg.chainAt = some m → m + 1000 ≤ s.blk.pwr.now → s.blk.cfg.chainArmed = true → 
    s.blk.inReset = false → ∃ t, exec (.chainByte x) s = .next t ∧ t.blk.cfg.chainIn = [x] ∧ t.blk.cfg.chainLen = none ∧ t.blk.cfg.chainArmed = false ∧ t.blk.regs = s.blk.regs ∧ t.blk.mem = s.blk.mem) ∧
  (∀ (s : State) (x : Byte) (n : Nat), s.blk.pwr.mainUp = true → s.blk.pwr.perst = true → s.blk.cfg.chainArmed = false → s.blk.cfg.chainMute = false → s.blk.cfg.chainIn ≠ [] → s.blk.cfg.chainLen = some n → ((∃ m, s.blk.cfg.chainAt = some m ∧ s.blk.pwr.now < m + 1000) ∨ s.blk.segmentOpen = true) → 
    s.blk.inReset = false → ∃ t, exec (.chainByte x) s = .next t ∧ t.blk.cfg.chainIn = (if s.blk.cfg.chainIn.length < n then s.blk.cfg.chainIn ++ [x] else s.blk.cfg.chainIn) ∧
    t.blk.cfg.chainOut = (if s.blk.cfg.chainIn.length < n then s.blk.cfg.chainOut else s.blk.cfg.chainOut ++ [x]) ∧
    t.blk.regs = s.blk.regs ∧ t.blk.mem = s.blk.mem) ∧
  (∀ (s : State) (x : Byte), s.blk.pwr.mainUp = true → s.blk.pwr.perst = true → s.blk.cfg.chainAt = none → s.blk.cfg.chainArmed = false → s.blk.segmentOpen = false → 
    s.blk.inReset = false → ∃ t, exec (.chainByte x) s = .next t ∧ t.blk.cfg = { s.blk.cfg with chainAt := some s.blk.pwr.now, chainMute := true } ∧ t.blk.regs = s.blk.regs ∧ t.blk.mem = s.blk.mem) ∧
  (∀ (s : State) (k : Nat), (s.blk.cfg.phase = .attempt k ∨ s.blk.cfg.phase = .body k) → s.blk.source k = 2 → s.blk.chainSilent = true → 
    s.blk.inReset = false → ∃ t, exec .chainTimeout s = .next t ∧ t.blk.get .CFG_STATUS_LAST_CAUSE 0 = 0x0C ∧ t.blk.cfg.cfgErr = true ∧ t.blk.mem = s.blk.mem)

/-- ARB_SET_GO, SLOT_PROGRAM, SLOT_CTRL_ERASE, SLOT_CTRL_VERIFY, SLOT_OP_DONE, SLOT_SESSION_TIMEOUT and SCRUB_PASS. A value
above the anti-rollback counter and not above the loaded version is written to it, any other sets ARB_REFUSED. A slot
operation that nothing refuses is under way after its GO, an erased slot reading 0xFF and a programmed one its image
once the reads of it have ended, which fail without a host link; a refused one sets SLOT_BADREQ and leaves the NVM die
alone. An ended operation shows its RESULT and clears BUSY. A silent session ends and leaves the NVM die alone. A
scrubber pass with EN and a bitstream counts in SCRUB_CYCLES. (R153, R155, R172, R173, R174, R175, R176, R177, R231) -/
def Obligations.NvmCommands : Prop :=
  (∀ (s : State), s.blk.arbValue < s.blk.get .ARB_SET_VALUE → s.blk.get .ARB_SET_VALUE ≤ s.blk.get .LOADED_VERSION_VERSION → 
    s.blk.inReset = false → ∃ t, exec .arbSetGo s = .next t ∧ t.blk = s.blk.arbWrite (s.blk.get .ARB_SET_VALUE)) ∧
  (∀ (s : State), (s.blk.get .ARB_SET_VALUE ≤ s.blk.arbValue ∨ s.blk.get .LOADED_VERSION_VERSION < s.blk.get .ARB_SET_VALUE) → 
    s.blk.inReset = false → ∃ t, exec .arbSetGo s = .next t ∧ t.blk.get .ARB_CTRL_ARB_REFUSED 0 = 1 ∧ t.blk.cfg = s.blk.cfg) ∧
  (∀ (s : State) (slot n : Nat) (image : List Byte), slot < 2 → s.blk.slotBusy = false → s.blk.slotInUse slot = false → n = s.blk.get .SLOT_LEN_LEN → n ≤ Config.slotBytes → 
    s.blk.inReset = false → ∃ t, exec (.slotProgram slot image) s = .next t ∧ (∃ o, t.blk.cfg.slotOp = some o ∧ o.op = 1 ∧ o.slot = slot ∧ o.len = n) ∧ t.blk.mem = s.blk.mem) ∧
  (∀ (s : State) (slot n : Nat) (image : List Byte), slot < 2 → s.blk.slotBusy = false → s.blk.slotInUse slot = false → n = s.blk.get .SLOT_LEN_LEN → n ≤ Config.slotBytes → n = 0 → 
    s.blk.inReset = false → ∃ t, exec (.slotProgram slot image) s = .next t ∧ t.blk.cfg.slotOp = some { op := 1, slot := slot, result := 0, len := 0, done := 0, reading := false } ∧ t.blk.mem = s.blk.mem) ∧
  (∀ (s : State) (slot n : Nat) (image : List Byte), slot < 2 → s.blk.slotBusy = false → s.blk.slotInUse slot = false → n = s.blk.get .SLOT_LEN_LEN → n ≤ Config.slotBytes → 0 < n → s.blk.get .HOST_LINK_RATE = 0 → 
    s.blk.inReset = false → ∃ t, exec (.slotProgram slot image) s = .next t ∧ (∃ r, 0 < r ∧ t.blk.cfg.slotOp = some { op := 1, slot := slot, result := r, len := n, done := 0, reading := false }) ∧ t.blk.mem = s.blk.mem) ∧
  (∀ (s : State) (slot n : Nat) (image : List Byte), slot < 2 → s.blk.slotBusy = false → s.blk.slotInUse slot = false → n = s.blk.get .SLOT_LEN_LEN → n ≤ Config.slotBytes → 0 < n → n ≤ 4096 - s.blk.get .SLOT_SRC_ADDR % 4096 → s.blk.get .HOST_LINK_RATE ≠ 0 → s.blk.hostTranslated 0 (s.blk.get .SLOT_SRC_ADDR) = true → s.blk.tagsUsed < 768 → s.blk.link.tagless = [] → (∀ r ∈ s.blk.link.reads, r.which ≠ .slot) → image.length = n → 
    s.blk.inReset = false → ∃ t, exec (.slotProgram slot image) s = .next t ∧ t.blk.cfg.slotOp = some { op := 1, slot := slot, result := 0, len := n, done := n, reading := false } ∧ t.blk.mem = s.blk.mem ∧
    ∀ i < n, Mem.byte 0xFF t.blk.cfg.nvm (slotBase slot + i) = image.getD i 0) ∧
  (∀ (s : State) (slot : Nat), slot < 2 → s.blk.slotBusy = false → s.blk.slotInUse slot = false → s.blk.get .SLOT_LEN_LEN ≤ Config.slotBytes → 
    s.blk.inReset = false → ∃ t, exec (.slotCtrlErase slot) s = .next t ∧ t.blk.cfg.slotOp = some { op := 2, slot := slot, result := 0, len := 0, done := 0, reading := false } ∧ t.blk.mem = s.blk.mem ∧
    ∀ a, slotBase slot ≤ a → a < slotBase slot + Config.slotBytes → Mem.byte 0xFF t.blk.cfg.nvm a = 0xFF) ∧
  (∀ (s : State) (slot : Nat), slot < 2 → s.blk.slotBusy = false → s.blk.get .SLOT_LEN_LEN ≤ Config.slotBytes → 
    s.blk.inReset = false → ∃ t, exec (.slotCtrlVerify slot) s = .next t ∧ t.blk.cfg.slotOp = some { op := 3, slot := slot, result := s.blk.verifySlot slot, len := 0, done := 0, reading := false } ∧
    t.blk.cfg.nvm = s.blk.cfg.nvm ∧ t.blk.mem = s.blk.mem) ∧
  (∀ (s : State) (slot : Nat) (c : Instr), slot < 2 → (c = .slotCtrlErase slot ∨ c = .slotCtrlVerify slot) → (s.blk.slotBusy = true ∨ Config.slotBytes < s.blk.get .SLOT_LEN_LEN) → 
    s.blk.inReset = false → ∃ t, exec c s = .next t ∧ t.blk.get .SLOT_CTRL_SLOT_BADREQ 0 = 1 ∧ t.blk.cfg = s.blk.cfg ∧ t.blk.mem = s.blk.mem) ∧
  (∀ (s : State) (o : SlotOp), s.blk.cfg.slotOp = some o → o.reading = false → 
    s.blk.inReset = false → ∃ t, exec .slotOpDone s = .next t ∧ t.blk.cfg.slotOp = none ∧ t.blk.get .SLOT_CTRL_RESULT 0 = o.result % 256 ∧ t.blk.mem = s.blk.mem) ∧
  (∀ (s : State) (x : SlotSession), s.blk.cfg.session = some x → x.since + 60000000000 ≤ s.blk.pwr.now → 
    s.blk.inReset = false → ∃ t, exec .slotSessionTimeout s = .next t ∧ t.blk.cfg = { s.blk.cfg with session := none } ∧ t.blk.regs = s.blk.regs ∧ t.blk.mem = s.blk.mem) ∧
  (∀ (s : State) (upsets : List Upset), s.blk.on .SCRUB_CTRL_EN = true → s.blk.cfg.bitstream = true → s.blk.pwr.released = true → 
    s.blk.inReset = false → ∃ t, exec (.scrubPass upsets) s = .next t ∧ t.blk.get .SCRUB_CYCLES_COUNT 0 = (s.blk.get .SCRUB_CYCLES_COUNT 0 + 1) % 2 ^ 32 ∧ t.blk.mem = s.blk.mem)

/-- SPLIT_READ_LOW, GMC_COUNT_SPLIT_READ and MISALIGNED_READ. A 4-byte read of the low half of a 64-bit register returns it
and latches the high half in the requester's shadow. A 4-byte read of GMC_COUNT returns all ones and sets SPLIT_GMC,
except from a VF, whose window it lies outside. A read of a wrong size or alignment returns all ones and sets MMIO_SIZE.
Memory does not change. These hold for a function that is not in D3hot; the model's choice for one that is (log entry
51): its reads answer all ones and change nothing. (R196, R200, R212, R217) -/
def Obligations.RegisterReads : Prop :=
  (∀ (s : State) (who : Requester) (off o a n : Nat), s.blk.inD3 who = false → off % 4 = 0 → reqOffset who off = some o → s.blk.vfBlind who off = false → regAt o = some (a, n) → 4 < n → s.blk.deadWindow o = false → a ≠ 0x600000 → (o - a) % 8 = 0 → 
    s.blk.inReset = false → ∃ t, exec (.splitReadLow who off) s = .next t ∧ t.blk.out = s.blk.out ++ [.regRead who (s.blk.word o)] ∧
    Tab.get t.blk.link.shadows (shadowKey who (o + 4)) 0 = s.blk.word (o + 4) ∧ t.blk.mem = s.blk.mem ∧ t.blk.regs = s.blk.regs) ∧
  (∀ (s : State) (who : Requester), s.blk.inD3 who = false → (∀ m, who ≠ .vf m) → 
    s.blk.inReset = false → ∃ t, exec (.gmcCountSplitRead who) s = .next t ∧ t.blk.get .GLOBAL_ERR_SPLIT_GMC 0 = 1 ∧
    t.blk.out = s.blk.out ++ [.regRead who 0xFFFFFFFF] ∧ t.blk.mem = s.blk.mem ∧
    ∀ f i, f ≠ .GLOBAL_ERR_SPLIT_GMC → t.blk.get f i = s.blk.get f i) ∧
  (∀ (s : State) (m : Nat), s.blk.inD3 (.vf m) = false → 
    s.blk.inReset = false → ∃ t, exec (.gmcCountSplitRead (.vf m)) s = .next t ∧ t.blk = s.blk.send (.regRead (.vf m) 0)) ∧
  (∀ (s : State) (who : Requester) (off size : Nat), s.blk.inD3 who = false → ((size == 4 || size == 8) && off % size == 0) = false → 
    s.blk.inReset = false → ∃ t, exec (.misalignedRead who off size) s = .next t ∧ t.blk.get .GLOBAL_ERR_MMIO_SIZE 0 = 1 ∧
    t.blk.out = s.blk.out ++ [.regRead who (2 ^ (8 * size) - 1)] ∧ t.blk.mem = s.blk.mem ∧
    ∀ f i, f ≠ .GLOBAL_ERR_MMIO_SIZE → t.blk.get f i = s.blk.get f i) ∧
  (∀ (s : State) (who : Requester) (off size : Nat), s.blk.inD3 who = true → 
    s.blk.inReset = false → ∃ t, exec (.misalignedRead who off size) s = .next t ∧ t.blk = s.blk.send (.regRead who (2 ^ (8 * size) - 1)))

/-- REGISTER_WRITE and PART_GRANT: who may write, what is dropped, and the grant. A well-sized, aligned write reaches the
registers when its sender may write there: the PF outside a locked service block, the management port, an enabled VF
whose partition is not service-owned, a core where the grants let it. A misaligned one sets MMIO_SIZE, a write of a
reserved offset UNMAPPED_WR, and neither changes another register outside the violation log. Of writes that arrive
together the PF's goes first, then the management port's, the cores' and the VFs' in order. HOP_PCTRL takes the bits
written to it. An unrefused PART_GRANT by the PF, the management port or a core whose partition it is gives the
partition its groups and owner. These hold for a function that is not in D3hot; the model's choice for one that is (log
entry 51): its writes are lost. (R198, R199, R201, R202, R205, R218, R219, R220, R222) -/
def Obligations.RegisterWrites : Prop :=
  (∀ (s : State) (off size val mm mv : Nat), s.blk.inD3 .pf = false → ((size == 4 || size == 8) && off % size == 0) = true → s.blk.svcLocked off size val = false → 
    s.blk.inReset = false → ∃ t, exec (.registerWrite .pf off size val mm mv []) s = .next t ∧ t.blk = s.blk.writeThrough .pf off size val mm mv) ∧
  (∀ (s : State) (off size val mm mv : Nat), ((size == 4 || size == 8) && off % size == 0) = true → 
    s.blk.inReset = false → ∃ t, exec (.registerWrite .mctp off size val mm mv []) s = .next t ∧ t.blk = s.blk.writeThrough .mctp off size val mm mv) ∧
  (∀ (s : State) (m off size val mm mv : Nat), 1 ≤ m → m ≤ 8 → s.blk.inD3 (.vf m) = false → off < 0x10000 → ((size == 4 || size == 8) && off % size == 0) = true → s.blk.vfLive m = true → s.blk.get .PART_GRANT_OWNER (m - 1) ≠ 2 → 
    s.blk.inReset = false → ∃ t, exec (.registerWrite (.vf m) off size val mm mv []) s = .next t ∧ t.blk = s.blk.writeThrough (.vf m) (0x100000 + (m - 1) * 0x10000 + off) size val mm mv) ∧
  (∀ (s : State) (c off val mm mv : Nat), c < 4 → off % 4 = 0 → s.blk.coreMayWrite off (val % 2 ^ 32) = true → 
    s.blk.inReset = false → ∃ t, exec (.registerWrite (.miller c) off 4 val mm mv []) s = .next t ∧ t.blk = s.blk.writeThrough (.miller c) off 4 val mm mv) ∧
  (∀ (s : State) (who : Requester) (off o size val mm mv : Nat), s.blk.inD3 who = false → reqRank who < 14 → reqOffset who off = some o → ((size == 4 || size == 8) && off % size == 0) = false → 
    s.blk.inReset = false → ∃ t, exec (.registerWrite who off size val mm mv []) s = .next t ∧ t.blk.get .GLOBAL_ERR_MMIO_SIZE 0 = 1 ∧ t.blk.mem = s.blk.mem ∧
    ∀ f i, f ≠ .GLOBAL_ERR_MMIO_SIZE → f.violateOwn = false → t.blk.get f i = s.blk.get f i) ∧
  (∀ (s : State) (who : Requester) (off size val mm mv : Nat), s.blk.inD3 who = true → reqRank who < 14 → 
    s.blk.inReset = false → ∃ t, exec (.registerWrite who off size val mm mv []) s = .next t ∧ t.blk = s.blk) ∧
  (∀ (s : State) (off val mm mv : Nat), off % 4 = 0 → fieldsAt off = [] → logWindow off = false → s.blk.deadWindow off = false → aonOffset off = false → off ≠ 0x30000 → 
    s.blk.inReset = false → ∃ t, exec (.registerWrite .mctp off 4 val mm mv []) s = .next t ∧ t.blk.get .GLOBAL_ERR_UNMAPPED_WR 0 = 1 ∧ t.blk.mem = s.blk.mem ∧
    ∀ f i, f ≠ .GLOBAL_ERR_UNMAPPED_WR → t.blk.get f i = s.blk.get f i) ∧
  (∀ (s : State) (who : Requester) (off size val mm mv : Nat) (w : SetWrite), reqRank who < 14 → reqRank w.who < reqRank who → 
    s.blk.inReset = false → ∃ t, exec (.registerWrite who off size val mm mv [w]) s = .next t ∧ t.blk = (s.blk.writeSetup w.who w.off w.size w.val w.meetMask w.meetVal).writeSetup who off size val mm mv) ∧
  (∀ (s : State) (who : Requester) (off size val mm mv : Nat) (w : SetWrite), reqRank w.who < 14 → reqRank who ≤ reqRank w.who → 
    s.blk.inReset = false → ∃ t, exec (.registerWrite who off size val mm mv [w]) s = .next t ∧ t.blk = (s.blk.writeSetup who off size val mm mv).writeSetup w.who w.off w.size w.val w.meetMask w.meetVal) ∧
  (reqRank .pf < reqRank .mctp ∧ (∀ c, reqRank .mctp < reqRank (.miller c)) ∧ (∀ c d, c < d → reqRank (.miller c) < reqRank (.miller d)) ∧
    (∀ c m, c < 4 → 1 ≤ m → reqRank (.miller c) < reqRank (.vf m)) ∧ ∀ m n, m < n → reqRank (.vf m) < reqRank (.vf n)) ∧
  (∀ (s : State) (p val : Nat), p < 8 → 
    s.blk.inReset = false → ∃ t, exec (.registerWrite .mctp (Fld.HOP_PCTRL_AGE.addr p) 4 val 0 0 []) s = .next t ∧ t.blk.get .HOP_PCTRL_AGE p = bits val Fld.HOP_PCTRL_AGE.desc.lo Fld.HOP_PCTRL_AGE.desc.width ∧
    t.blk.get .HOP_PCTRL_ADMIT_REFUSE p = bits val Fld.HOP_PCTRL_ADMIT_REFUSE.desc.lo Fld.HOP_PCTRL_ADMIT_REFUSE.desc.width ∧ t.blk.mem = s.blk.mem ∧
    ∀ f i, ¬((f = .HOP_PCTRL_AGE ∨ f = .HOP_PCTRL_ADMIT_REFUSE) ∧ i = p) → t.blk.get f i = s.blk.get f i) ∧
  (∀ (s : State) (who : Requester) (p val : Nat), p < 8 → s.blk.inD3 who = false → (who = .pf ∨ who = .mctp) → s.blk.grantRefusal (some who) p (bits val 0 8) (bits val 8 2) = none → 
    s.blk.inReset = false → ∃ t, exec (.partGrant who p val) s = .next t ∧ t.blk.get .PART_GRANT_GROUPS p = bits val 0 8 ∧
    t.blk.get .PART_GRANT_OWNER p = bits val 8 2 ∧ t.blk.mem = s.blk.mem) ∧
  (∀ (s : State) (k p val : Nat), k < 4 → p < 8 → s.blk.get .PART_GRANT_OWNER p = 2 → s.blk.grantRefusal (some (.miller k)) p (bits val 0 8) (bits val 8 2) = none → 
    s.blk.inReset = false → ∃ t, exec (.partGrant (.miller k) p val) s = .next t ∧ t.blk.get .PART_GRANT_GROUPS p = bits val 0 8 ∧
    t.blk.get .PART_GRANT_OWNER p = bits val 8 2 ∧ t.blk.mem = s.blk.mem) ∧
  (∀ (s : State) (who : Requester) (p val c : Nat), p < 8 → s.blk.inD3 who = false → (who = .pf ∨ who = .mctp) → s.blk.grantRefusal (some who) p (bits val 0 8) (bits val 8 2) = some c → ¬(bits val 0 8 = s.blk.get .PART_GRANT_GROUPS p ∧ bits val 8 2 = s.blk.get .PART_GRANT_OWNER p ∧ (s.blk.get .F_QUOTA_UNITS p, s.blk.get .S_QUOTA_UNITS p) = s.blk.quota p) → 
    s.blk.inReset = false → ∃ t, exec (.partGrant who p val) s = .next t ∧ t.blk.get .GRANT_STATUS_GRANT_REFUSED p = 1 ∧
    t.blk.get .PART_GRANT_GROUPS p = s.blk.get .PART_GRANT_GROUPS p ∧ t.blk.get .PART_GRANT_OWNER p = s.blk.get .PART_GRANT_OWNER p)

/-- SQ_ENABLE, SQ_DISABLE, CQ_ENABLE and CQ_DISABLE. An enable of an OFF ring that nothing refuses makes it ACTIVE at
GEN_INIT, index 0, and a first word equal to that start leaves it so; a refused one leaves it OFF with its cause.
Clearing ENABLE on an ACTIVE or HALTED submission ring turns it OFF when nothing fetched is uncompleted and DRAINING
otherwise; a completion ring turns OFF when every submission ring that names it is OFF, and is refused with cause 7
otherwise. Memory does not change. (R270, R271, R272, R274) -/
def Obligations.RingsStartAndStop : Prop :=
  (∀ (s : State) (q : SqRef), s.blk.sqState q = rOff → s.blk.sqRefusal q = none → 
    s.blk.inReset = false → ∃ t, exec (.sqEnable q (s.blk.sqStart q)) s = .next t ∧ t.blk.sqState q = rActive ∧ t.blk.sqTail q = s.blk.sqStart q ∧ (t.blk.sq q).queue = [] ∧
    t.blk.mem = s.blk.mem) ∧
  (∀ (s : State) (p r word c : Nat), s.blk.sqState (.host p r) = rOff → s.blk.sqRefusal (.host p r) = some c → 
    s.blk.inReset = false → ∃ t, exec (.sqEnable (.host p r) word) s = .next t ∧ t.blk.sqState (.host p r) = rOff ∧
    t.blk.get .SQ_STATUS_CFG_REFUSED (ringIx p r) = 1 ∧ t.blk.get .SQ_STATUS_REFUSE_CAUSE (ringIx p r) = c ∧ t.blk.mem = s.blk.mem) ∧
  (∀ (s : State) (q : SqRef), (s.blk.sqState q = rActive ∨ s.blk.sqState q = rHalted) → 
    s.blk.inReset = false → ∃ t, exec (.sqDisable q) s = .next t ∧ t.blk.sqState q = (if (s.blk.sq q).live = [] then rOff else rDraining) ∧ t.blk.mem = s.blk.mem ∧ t.blk.sqs = s.blk.sqs) ∧
  (∀ (s : State) (q : CqRef), s.blk.cqState q = rOff → s.blk.cqRefusal q = none → 
    s.blk.inReset = false → ∃ t, exec (.cqEnable q (s.blk.cqStart q)) s = .next t ∧ t.blk.cqState q = rActive ∧ t.blk.cqHead q = s.blk.cqStart q ∧ t.blk.cqRsv q = 0 ∧
    t.blk.mem = s.blk.mem) ∧
  (∀ (s : State) (p r word c : Nat), s.blk.cqState (.host p r) = rOff → s.blk.cqRefusal (.host p r) = some c → 
    s.blk.inReset = false → ∃ t, exec (.cqEnable (.host p r) word) s = .next t ∧ t.blk.cqState (.host p r) = rOff ∧
    t.blk.get .CQ_STATUS_CFG_REFUSED (ringIx p r) = 1 ∧ t.blk.get .CQ_STATUS_REFUSE_CAUSE (ringIx p r) = c ∧ t.blk.mem = s.blk.mem) ∧
  (∀ (s : State) (q : CqRef), s.blk.cqState q ≠ rOff → ((s.blk.sqsOf q).all fun x => s.blk.sqState x == rOff) = true → 
    s.blk.inReset = false → ∃ t, exec (.cqDisable q) s = .next t ∧ t.blk.cqState q = rOff ∧ t.blk.mem = s.blk.mem) ∧
  (∀ (s : State) (c : Nat), s.blk.cqState (.core c) ≠ rOff → ((s.blk.sqsOf (.core c)).all fun x => s.blk.sqState x == rOff) = false → 
    s.blk.inReset = false → ∃ t, exec (.cqDisable (.core c)) s = .next t ∧ t.blk.get .CORE_CQ_STATUS_CFG_REFUSED c = 1 ∧ t.blk.get .CORE_CQ_STATUS_REFUSE_CAUSE c = 7 ∧
    t.blk.cqState (.core c) = s.blk.cqState (.core c))

/-- POST_TAIL, CQ_HEADW, DOORBELL_POLL, DOORBELL_LINE_RETURN, SNP_DATA, SNP_CUR, SNP_INV and IRQ_TIME_EXPIRY. A new tail or
head word that passes the checks of R248 is accepted, and one that fails halts its ring. A poll in polled mode starts a
read of every line with a word of an ACTIVE ring that has not been polled for POLL_NS. A line read that returns has its
words examined, or its failure counted. A snoop that keeps a line is answered as it is held; SNP_INV gives the line up.
The interrupt of a ring whose TIME has passed is sent, with P back at zero. (R193, R244, R245, R247, R248, R249, R266,
R268, R280, R788) -/
def Obligations.DoorbellWords : Prop :=
  (∀ (s : State) (c r w : Nat), s.blk.sqState (.post c r) = rActive → w < 2 ^ 64 → w ≠ s.blk.sqTail (.post c r) → s.blk.resetting (s.blk.sqPart (.post c r)) = false → wordFault (s.blk.sqSize (.post c r)) (s.blk.sqTail (.post c r)) w = none → posDist (s.blk.sqSize (.post c r)) (wordPos (s.blk.sqSize (.post c r)) (s.blk.sqHead (.post c r))) (wordPos (s.blk.sqSize (.post c r)) w) ≤ s.blk.sqSize (.post c r) → 
    s.blk.inReset = false → ∃ t, exec (.postTail c r w) s = .next t ∧ t.blk.sqTail (.post c r) = w ∧ t.blk.get .POST_TAIL_WORD (postIx c r) = w ∧
    t.blk.sqState (.post c r) = rActive ∧ t.blk.mem = s.blk.mem) ∧
  (∀ (s : State) (c r w k : Nat), s.blk.sqState (.post c r) = rActive → w < 2 ^ 64 → w ≠ s.blk.sqTail (.post c r) → s.blk.resetting (s.blk.sqPart (.post c r)) = false → wordFault (s.blk.sqSize (.post c r)) (s.blk.sqTail (.post c r)) w = some k → 
    s.blk.inReset = false → ∃ t, exec (.postTail c r w) s = .next t ∧ t.blk.sqState (.post c r) = rHalted ∧ t.blk.sqTail (.post c r) = s.blk.sqTail (.post c r) ∧
    t.blk.get .POST_STATUS_HALT_CAUSE (postIx c r) = (if k = 1 then 0x14 else if k = 2 then 0x10 else if k = 3 then 0x12 else 0x11)) ∧
  (∀ (s : State) (c w : Nat), s.blk.cqState (.core c) = rActive → w < 2 ^ 64 → w ≠ s.blk.cqHead (.core c) → wordFault (s.blk.cqSize (.core c)) (s.blk.cqHead (.core c)) w = none → posDist (s.blk.cqSize (.core c)) (wordPos (s.blk.cqSize (.core c)) (s.blk.cqHead (.core c))) (wordPos (s.blk.cqSize (.core c)) w) ≤ posDist (s.blk.cqSize (.core c)) (wordPos (s.blk.cqSize (.core c)) (s.blk.cqHead (.core c))) (wordPos (s.blk.cqSize (.core c)) (s.blk.cqTail (.core c))) → 
    s.blk.inReset = false → ∃ t, exec (.cqHeadw c w) s = .next t ∧ t.blk.cqHead (.core c) = w ∧ t.blk.get .CORE_CQ_HEADW_WORD c = w ∧ t.blk.cqState (.core c) = rActive ∧ t.blk.mem = s.blk.mem) ∧
  (∀ (s : State) (c w k : Nat), s.blk.cqState (.core c) = rActive → w < 2 ^ 64 → w ≠ s.blk.cqHead (.core c) → wordFault (s.blk.cqSize (.core c)) (s.blk.cqHead (.core c)) w = some k → 
    s.blk.inReset = false → ∃ t, exec (.cqHeadw c w) s = .next t ∧ t.blk.cqState (.core c) = rHalted ∧ t.blk.cqHead (.core c) = s.blk.cqHead (.core c) ∧
    t.blk.get .CORE_CQ_STATUS_HALT_CAUSE c = (if k = 1 then 0x14 else if k = 2 then 0x18 else if k = 3 then 0x1A else 0x19)) ∧
  (∀ (s : State) (p l : Nat), s.blk.lineDue p l = true → s.blk.lineBusy p l = false → s.blk.on .DB_CTRL_EN p = true → s.blk.hostUp p = true → s.blk.snooping p = false → l < 8 → s.blk.lineUsed p l (· == rActive) = true → 
    s.blk.inReset = false → ∃ t, exec (.doorbellPoll p) s = .next t ∧ Tab.find t.blk.link.lastPoll (p * 8 + l) = some s.blk.gmc ∧ t.blk.mem = s.blk.mem ∧ t.blk.regs = s.blk.regs ∧
    ((∃ r ∈ t.blk.link.reads ++ t.blk.link.tagless, r.which = .line p l ∧ r.sunk = false) ∨ ∃ w ∈ t.blk.link.waits, w.which = .read (.line p l))) ∧
  (∀ (s : State) (p : Nat), (s.blk.on .DB_CTRL_EN p = false ∨ s.blk.hostUp p = false ∨ ∀ l < 8, s.blk.lineDue p l = false) → 
    s.blk.inReset = false → ∃ t, exec (.doorbellPoll p) s = .next t ∧ t = s) ∧
  (∀ (s : State) (p l : Nat), s.blk.lineDue p l = true ↔ ∀ c, Tab.find s.blk.link.lastPoll (p * 8 + l) = some c → c + max 256 (s.blk.get .DB_CTRL_POLL_NS p) ≤ s.blk.gmc) ∧
  (∀ (s : State) (p l : Nat) (words : Option (List Nat)) (b : Block), s.blk.readDone (.line p l) = some (true, b) → 
    s.blk.inReset = false → ∃ t, exec (.doorbellLineReturn p l words) s = .next t ∧ t.blk = b.lineData p l words) ∧
  (∀ (s : State) (p l : Nat), 
    s.blk.inReset = false → ∃ t, exec (.snpData p l) s = .next t ∧ t.blk = s.blk.send (if (p, l) ∈ s.blk.link.lines then .snoopKeep p l else .snoopInv p l)) ∧
  (∀ (s : State) (p l : Nat), 
    s.blk.inReset = false → ∃ t, exec (.snpCur p l) s = .next t ∧ t.blk = s.blk.send (if (p, l) ∈ s.blk.link.lines then .snoopKeep p l else .snoopInv p l)) ∧
  (∀ (s : State) (p l : Nat), 
    s.blk.inReset = false → ∃ t, exec (.snpInv p l) s = .next t ∧ (p, l) ∉ t.blk.link.lines ∧ Out.snoopInv p l ∈ t.blk.out ∧ t.blk.regs = s.blk.regs ∧ t.blk.mem = s.blk.mem) ∧
  (∀ (s : State) (p c : Nat) (e : Nat × Nat), s.blk.atTick = true → s.blk.get .IRQ_CQ_TIME (ringIx p c) ≠ 0 → 0 < (s.blk.cq (.host p c)).p → (s.blk.cq (.host p c)).firstAt + s.blk.get .IRQ_CQ_TIME (ringIx p c) * s.blk.tick ≤ s.blk.gmc → s.blk.on .IRQ_CQ_IRQ_EN (ringIx p c) = true → s.blk.get .IRQ_CQ_VECTOR (ringIx p c) < msixSize (s.blk.partFn p) → s.blk.link.msixOn.testBit (s.blk.partFn p) = true → (s.blk.partFn p, s.blk.get .IRQ_CQ_VECTOR (ringIx p c)) ∈ s.blk.link.unmasked → s.blk.link.orphans.testBit p = false → s.blk.get .HOST_LINK_RATE ≠ 0 → s.blk.canPost 1 = true → e = Tab.get s.blk.link.msixTab (msixKey (s.blk.partFn p) (s.blk.get .IRQ_CQ_VECTOR (ringIx p c))) (0, 0) → 
    s.blk.inReset = false → ∃ t, exec (.irqTimeExpiry p c) s = .next t ∧ (t.blk.cq (.host p c)).p = 0 ∧
    t.blk.out = s.blk.out ++ [.msix (s.blk.partFn p) (s.blk.get .IRQ_CQ_VECTOR (ringIx p c)) e.1 e.2] ∧ t.blk.regs = s.blk.regs ∧ t.blk.mem = s.blk.mem)

/-- DESCRIPTOR_FETCH, DESCRIPTOR_FETCH_RETURN, HAND_OVER and REPLAY_DESC_RELEASE. A fetch reserves a completion slot for
each descriptor and is one more fetch under way. Its return gives the descriptors of the oldest fetch to the ring. The
oldest validated descriptor is handed over unless replay holds it; one that fits its width and is admitted becomes a job
of its partition with the next arrival number, and leaves the queue. Rings handed over in one cycle go in ascending
order. (R253, R254, R256, R259, R287, R297, R308, R359, R581) -/
def Obligations.DescriptorsFetchedAndHandedOver : Prop :=
  (∀ (s : State) (q : SqRef), s.blk.fetchCount q ≠ 0 → s.blk.resetting (s.blk.sqPart q) = false → (∀ p r, q = .host p r → s.blk.hostUp p = true) → 
    s.blk.inReset = false → ∃ t, exec (.descriptorFetch q) s = .next t ∧ (t.blk.sq q).nextSeq = (s.blk.sq q).nextSeq + s.blk.fetchCount q ∧
    (t.blk.sq q).fetches.length = (s.blk.sq q).fetches.length + 1 ∧
    t.blk.cqRsv (s.blk.sqCq q) = s.blk.cqRsv (s.blk.sqCq q) + s.blk.fetchCount q ∧ t.blk.mem = s.blk.mem) ∧
  (∀ (s : State) (p r : Nat) (descs : Option (List (List Byte))) (b : Block), s.blk.readDone (.fetch p r) = some (true, b) → 
    s.blk.inReset = false → ∃ t, exec (.descriptorFetchReturn (.host p r) descs) s = .next t ∧ t.blk = b.fetchData (.host p r) descs) ∧
  (∀ (s : State) (c r first : Nat) (arr : List (Nat × Nat)) (rest : List (Nat × List (Nat × Nat))) (descs : Option (List (List Byte))) (x : List (List Byte) × Block), (s.blk.sq (.post c r)).fetches = (first, arr) :: rest → s.blk.postDescs c (s.blk.sqBase (.post c r) + 64 * first) arr.length = x → 
    s.blk.inReset = false → ∃ t, exec (.descriptorFetchReturn (.post c r) descs) s = .next t ∧ t.blk = x.2.fetchData (.post c r) (some x.1)) ∧
  (∀ (s : State) (q : SqRef) (f : Fetched) (l : List Fetched), (s.blk.sq q).queue = f :: l → s.blk.resetting (s.blk.sqPart q) = false → s.blk.replayOn (s.blk.sqPart q) = false → 
    s.blk.inReset = false → ∃ t, exec (.handOver q []) s = .next t ∧ t.blk = s.blk.whole (handAgent (s.blk.sqPart q)) fun b => b.handHead q f) ∧
  (∀ (s : State) (q : SqRef) (f : Fetched) (l : List Fetched), (s.blk.sq q).queue = f :: l → s.blk.resetting (s.blk.sqPart q) = false → 
    s.blk.inReset = false → ∃ t, exec (.handOver q []) s = .next t ∧ t.blk = s.blk.whole (handAgent (s.blk.sqPart q)) fun b => match b.replayDue q with
      | (some c, b) => if c ≤ b.gmc then b.handHead q f else b
      | (none, b) => b.handHead q f) ∧
  (∀ (s : State) (q : SqRef) (f : Fetched) (l : List Fetched), (s.blk.sq q).queue = f :: l → 
    s.blk.inReset = false → ∃ t, exec (.replayDescRelease q) s = .next t ∧ t.blk = s.blk.whole (handAgent (s.blk.sqPart q)) fun b => match b.replayDue q with
      | (some c, b) => if c ≤ b.gmc then b.handHead q f else b
      | (none, b) => b) ∧
  (∀ (s : State) (q r : SqRef), (match q, r with | .host _ m, .host _ n => n < m | .post a m, .post c n => 4 * c + n < 4 * a + m | _, _ => False) → 
    s.blk.inReset = false → ∃ t, exec (.handOver q [r]) s = .next t ∧ t.blk = (s.blk.handOver r).handOver q) ∧
  (∀ (s : State) (q : SqRef) (f : Fetched) (l : List Fetched), (s.blk.sq q).queue = f :: l → s.blk.resetting (s.blk.sqPart q) = false → s.blk.replayOn (s.blk.sqPart q) = false → s.blk.widthFault (s.blk.sqPart q) f.bytes = none → pawlAtOnce f.bytes = false → s.blk.admitFault (s.blk.sqPart q) f.bytes = none → 
    s.blk.inReset = false → ∃ t, exec (.handOver q []) s = .next t ∧ t.blk.hop.nextId = s.blk.hop.nextId + 1 ∧ (t.blk.sq q).queue = l ∧ t.blk.mem = s.blk.mem ∧ t.blk.regs = s.blk.regs ∧
    t.blk.hop.jobs.length = s.blk.hop.jobs.length + 1 ∧
    ∃ j ∈ t.blk.hop.jobs, j.id = s.blk.hop.nextId ∧ j.desc = f.bytes ∧ j.part = s.blk.sqPart q ∧ j.accepted = s.blk.gmc)

/-- HOST_LINK_DOWN, HOST_LINK_UP, ATS_INVALIDATE, TRANSLATION_COMPLETION, CONFIGURATION_REQUEST, D3HOT_ENTRY, D3HOT_EXIT and
MSIX_UNMASK. A link that goes down with nothing outstanding reads as down and loses lines and translations; one that
comes up shows its rate, width and what was negotiated. An invalidation removes its translations and is answered at once
when no read uses them. A granted translation is cached and its access goes on; a refused one fails. A configuration
request is retried before the release edge and served after it. A function enters and leaves D3hot. An unmasked vector
that was pending is no longer. (R63, R182, R184, R187, R188, R190, R194, R269, R882) -/
def Obligations.HostPortCommands : Prop :=
  (∀ (s : State), s.blk.get .HOST_LINK_RATE ≠ 0 → s.blk.link.reads = [] → s.blk.link.tagless = [] → s.blk.link.waits = [] → s.blk.link.held = [] → s.blk.link.stalled = [] → 
    s.blk.inReset = false → ∃ t, exec .hostLinkDown s = .next t ∧ t.blk.get .HOST_LINK_RATE 0 = 0 ∧ t.blk.get .HOST_LINK_WIDTH 0 = 0 ∧
    t.blk.get .HOST_LINK_CXL_CACHE 0 = 0 ∧ t.blk.link.lines = [] ∧ t.blk.link.atc = [] ∧ t.blk.mem = s.blk.mem) ∧
  (∀ (s : State) (rate width : Nat) (flit cxl : Bool) (credits : Option Nat), s.blk.pwr.mainUp = true → s.blk.pwr.perst = true → s.blk.link.stalled = [] → 1 ≤ rate → rate ≤ 6 → (width = 4 ∨ width = 8 ∨ width = 16) → 
    s.blk.inReset = false → ∃ t, exec (.hostLinkUp rate width flit cxl credits) s = .next t ∧ t.blk.get .HOST_LINK_RATE 0 = rate ∧ t.blk.get .HOST_LINK_WIDTH 0 = width ∧
    t.blk.get .HOST_LINK_FLIT 0 = b2n (flit || rate == 6) ∧ t.blk.get .HOST_LINK_CXL_CACHE 0 = b2n (cxl && (rate == 6 || (rate == 5 && !flit))) ∧ t.blk.link.credits = credits ∧ t.blk.mem = s.blk.mem) ∧
  (∀ (s : State) (fn page count : Nat), 
    s.blk.inReset = false → ∃ t, exec (.atsInvalidate fn page count) s = .next t ∧ (∀ e ∈ t.blk.link.atc, ¬(e.1 = fn ∧ page ≤ e.2 ∧ e.2 < page + count)) ∧
    (s.blk.link.reads = [] → t.blk.out = s.blk.out ++ [.atsDone fn]) ∧ t.blk.regs = s.blk.regs ∧ t.blk.mem = s.blk.mem) ∧
  (∀ (s : State) (fn page : Nat) (w : HostRead) (h : HeldAccess), s.blk.heldAccess fn page (.read w) = some h → 
    s.blk.inReset = false → ∃ t, exec (.translationCompletion fn page true (.read w)) s = .next t ∧ (fn, page) ∈ t.blk.link.atc ∧ (∃ r ∈ t.blk.link.reads ++ t.blk.link.tagless, r.which = w ∧ r.addr = h.addr) ∧
    t.blk.regs = s.blk.regs ∧ t.blk.mem = s.blk.mem) ∧
  (∀ (s : State) (fn page : Nat) (w : HostRead) (h : HeldAccess), s.blk.heldAccess fn page (.read w) = some h → 
    s.blk.inReset = false → ∃ t, exec (.translationCompletion fn page false (.read w)) s = .next t ∧ t.blk = (s.blk.dropHeld h).failHeld w) ∧
  (∀ (s : State) (fn page id : Nat) (granted : Bool) (h : HeldAccess), s.blk.heldAccess fn page (.dataWrite id) = some h → 
    s.blk.inReset = false → ∃ t, exec (.translationCompletion fn page granted (.dataWrite id)) s = .next t ∧ t.blk = ((if granted then s.blk.cacheAts fn page else s.blk).dropHeld h).settleWrite h id granted) ∧
  (∀ (s : State) (fn page p r : Nat) (granted : Bool), (s.blk.link.held.any fun h => h.cq == CqRef.host p r) = true → s.blk.partFn p = fn → s.blk.cqPage p r = page → 
    s.blk.inReset = false → ∃ t, exec (.translationCompletion fn page granted (.record p r)) s = .next t ∧ t.blk = (if granted then s.blk.cacheAts fn page else s.blk).settleRecords (.host p r) granted) ∧
  (∀ (s : State) (r : CfgRequest), s.blk.get .HOST_LINK_RATE ≠ 0 → 
    s.blk.inReset = false → ∃ t, exec (.configurationRequest r) s = .next t ∧ t.blk = if s.blk.pwr.released then (s.blk.serveCfg r).send (.cfgServed (s.blk.cfgRead r)) else s.blk.send .cfgRetry) ∧
  (∀ s : State, s.blk.cfgRead (.read 0 .vendorId) = 0x1FA2 ∧ s.blk.cfgRead (.read 0 .deviceId) = 0x4400 ∧ s.blk.cfgRead (.read 0 .classCode) = 0x120000 ∧ s.blk.cfgRead (.read 0 .revisionId) = s.blk.get .IDENT_STEPPING ∧
    s.blk.cfgRead (.read 0 .subVendorId) = 0x1FA2 ∧ s.blk.cfgRead (.read 0 .subDeviceId) = 0x4400 ∧ ∀ fn, s.blk.vfLive fn = true → s.blk.cfgRead (.read fn .deviceId) = 0x4401) ∧
  (∀ (s : State) (fn : Nat), s.blk.pwr.released = true → s.blk.fnLive fn = true → 
    s.blk.inReset = false → ∃ t, exec (.d3hotEntry fn) s = .next t ∧ t.blk.link.d3.testBit fn = true ∧ t.blk.regs = s.blk.regs ∧ t.blk.mem = s.blk.mem) ∧
  (∀ (s : State) (fn : Nat), s.blk.pwr.released = true → s.blk.fnLive fn = true → 
    s.blk.inReset = false → ∃ t, exec (.d3hotExit fn) s = .next t ∧ t.blk.link.d3.testBit fn = false ∧ t.blk.regs = s.blk.regs ∧ t.blk.mem = s.blk.mem) ∧
  (∀ (s : State) (fn v : Nat), 
    s.blk.inReset = false → ∃ t, exec (.msixUnmask fn (some v)) s = .next t ∧ (fn, v) ∈ t.blk.link.unmasked ∧ (s.blk.link.msixOn.testBit fn = true → (fn, v) ∉ t.blk.link.pba) ∧
    t.blk.regs = s.blk.regs ∧ t.blk.mem = s.blk.mem) ∧
  (∀ (s : State) (fn : Nat), 
    s.blk.inReset = false → ∃ t, exec (.msixUnmask fn none) s = .next t ∧ t.blk.link.msixOn.testBit fn = true ∧ (∀ v, (fn, v) ∈ s.blk.link.unmasked → (fn, v) ∉ t.blk.link.pba) ∧
    t.blk.regs = s.blk.regs ∧ t.blk.mem = s.blk.mem)

/-- HOST_READ_COMPLETION, HOST_READ_TIMEOUT, VF_FLR and PF_FLR. A wanted host read that ends gives its data, or nothing when
it failed or timed out, to what it was for. A VF reset resets its function and the partition of the VF unless that is
service-owned. A PF reset with no partition host-owned returns every register that does not survive it to reset and
leaves no VF. (R65, R66, R198, R881) -/
def Obligations.HostReadsAndFunctionResets : Prop :=
  (∀ (s : State) (which : HostRead) (ok : Bool) (data : List Byte) (b : Block), s.blk.readDone which = some (true, b) → 
    s.blk.inReset = false → ∃ t, exec (.hostReadCompletion which ok data) s = .next t ∧ t.blk = b.readResult which (if ok then some data else none)) ∧
  (∀ (s : State) (which : HostRead) (b : Block), s.blk.readDone which = some (true, b) → 
    s.blk.inReset = false → ∃ t, exec (.hostReadTimeout which) s = .next t ∧ t.blk = b.readResult which none) ∧
  (∀ (s : State) (m : Nat), s.blk.pwr.released = true → s.blk.vfLive m = true → 
    s.blk.inReset = false → ∃ t, exec (.vfFlr m) s = .next t ∧ t.blk = if s.blk.get .PART_GRANT_OWNER (m - 1) = 2 then s.blk.resetFn m else (s.blk.resetFn m).partReset (m - 1)) ∧
  (∀ (s : State), s.blk.pwr.released = true → s.blk.link.vfEnable = false → (∀ p < 8, s.blk.get .PART_GRANT_OWNER p ≠ 1) → 
    s.blk.inReset = false → ∃ t, exec .pfFlr s = .next t ∧ t.blk.link.vfEnable = false ∧ t.blk.link.numVfs = 0 ∧ t.blk.mem = s.blk.mem ∧
    ∀ f i, t.blk.get f i = if f.desc.f || f.desc.live || (match f.partOf i with | some p => s.blk.get .PART_GRANT_OWNER p != 0 | none => false)
      then s.blk.get f i else f.resetVal i)

/-- NOP, LAUNCH, LAUNCH_AT, LAUNCH_AT_READY, LAUNCH_AT_START and DEADLINE_PASSED. A NOP whose fence is met completes with
DONE. A LAUNCH whose arguments pass, without a Mark or a Tally record due, becomes TASKS tasks in the ready list of its
PRIO, or waits DELAY ticks; a LAUNCH_AT waits for its count AT. From AT minus 4,096 it is in the ready list of priority
3. At AT a package that is not LOCKED in its cluster, or whose task 0 has not started, degrades the result. A job not
started by its DEADLINE completes with TIMEOUT_WAIT. (R251, R291, R307, R314, R316, R551, R552, R553, R555) -/
def Obligations.LaunchesAndJobs : Prop :=
  (∀ (s : State) (id : Nat) (j : Job), s.blk.job id = some j → dOpcode j.desc = 0x00 → j.phase = .admitted → s.blk.fenceMet j = true → j.startable = true → s.blk.expired j = false → 
    s.blk.inReset = false → ∃ t, exec (.nop id) s = .next t ∧ t.blk = s.blk.conclude { j with started := some s.blk.gmc } stDone 0 0 ∧
    (dMark j.desc = false → t.blk.job id = none)) ∧
  (∀ (s : State) (id : Nat) (strikes : List Strike) (replies : List Reply) (j : Job), s.blk.job id = some j → dOpcode j.desc = 0x10 → j.phase = .admitted → s.blk.fenceMet j = true → dMark j.desc = false → j.tally = false → s.blk.launchFault j = none → s.blk.noTile j.part j.dieSel = false → 
    s.blk.inReset = false → ∃ t, exec (.launch id strikes replies) s = .next t ∧ t.blk.job id = some { j with tasks := dArg j.desc 0x10 4, phase := if dArg j.desc 0x18 4 = 0 then .ready (dPrio j.desc) s.blk.gmc else .delayed (s.blk.dueAt j.accepted (dArg j.desc 0x18 4)) } ∧
    t.blk.regs = s.blk.regs) ∧
  (∀ (s : State) (id : Nat) (strikes : List Strike) (replies : List Reply) (j : Job), s.blk.job id = some j → dOpcode j.desc = 0x11 → j.phase = .admitted → s.blk.fenceMet j = true → dMark j.desc = false → j.tally = false → s.blk.launchFault j = none → s.blk.noTile j.part j.dieSel = false → dArg j.desc 0x18 8 ≠ 0 → dArg j.desc 0x18 8 ≤ j.accepted + 2 ^ 40 → 
    s.blk.inReset = false → ∃ t, exec (.launchAt id strikes replies) s = .next t ∧ t.blk.job id = some { j with tasks := dArg j.desc 0x10 4, phase := .atCount (dArg j.desc 0x18 8) } ∧
    t.blk.regs = s.blk.regs) ∧
  (∀ (s : State) (id c : Nat) (j : Job), s.blk.job id = some j → j.phase = .atCount c → c ≤ s.blk.gmc + 4096 → 
    s.blk.inReset = false → ∃ t, exec (.launchAtReady id) s = .next t ∧ t.blk.job id = some { j with phase := .ready 3 s.blk.gmc } ∧ t.blk.regs = s.blk.regs ∧ t.blk.mem = s.blk.mem) ∧
  (∀ (s : State) (id : Nat) (j : Job), s.blk.job id = some j → dOpcode j.desc = 0x11 → dArg j.desc 0x18 8 ≤ s.blk.gmc → j.degraded = 0 → j.tasks ≠ 0 → 
    s.blk.inReset = false → ∃ t, exec (.launchAtStart id) s = .next t ∧ t.blk.regs = s.blk.regs ∧ t.blk.mem = s.blk.mem ∧
    t.blk.job id = some (if s.blk.inCluster && s.blk.get .GMC_STATUS_STATE != 1 then { j with degraded := 0xB2 }
      else if j.next = 0 then { j with degraded := 0xB1 } else j)) ∧
  (∀ (s : State) (id : Nat) (j : Job), s.blk.job id = some j → dDeadline j.desc ≠ 0 → dDeadline j.desc ≤ s.blk.gmc → j.started = none → j.phase ≠ .marking → 
    s.blk.inReset = false → ∃ t, exec (.deadlinePassed id) s = .next t ∧ t.blk = (s.blk.unqueue (.job id)).conclude j stTimeout 0x52 0 ∧ (dMark j.desc = false → t.blk.job id = none))

/-- DELAY_DUE, AGE_PROMOTION, TASK_DISPATCH, TASK_END and TAILRACE_RELEASE. At a tick boundary a delayed job that has fallen
due is in the ready list of its priority. With AGE set, a job that has waited AGE ticks moves one list up. The next task
of the job at the head of the highest non-empty ready list goes to its tile, which is BUSY and counts a task started,
with its argument address; while that job has no tile nothing is dispatched. In a Furled or entering package the
dispatch wakes it. A task with no store left to make ends; one with stores under way or buffered bytes has them flushed
first. A released flow record leaves the Tailrace and is written. (R296, R298, R299, R304, R310, R312, R314, R316, R379) -/
def Obligations.ReadyListsAndDispatch : Prop :=
  (∀ (s : State) (j : Job) (d : Nat), s.blk.atTick = true → j ∈ s.blk.hop.jobs → j.phase = .delayed d → d ≤ s.blk.gmc → 
    s.blk.inReset = false → ∃ t, exec .delayDue s = .next t ∧ { j with phase := .ready (dPrio j.desc) s.blk.gmc } ∈ t.blk.hop.jobs ∧
    t.blk.hop.jobs.length = s.blk.hop.jobs.length ∧ t.blk.regs = s.blk.regs ∧ t.blk.mem = s.blk.mem) ∧
  (∀ (s : State) (p prio since : Nat) (j : Job), s.blk.get .HOP_PCTRL_AGE p ≠ 0 → j ∈ s.blk.hop.jobs → j.part = p → j.phase = .ready prio since → prio < 3 → since + s.blk.get .HOP_PCTRL_AGE p * s.blk.tick ≤ s.blk.gmc → 
    s.blk.inReset = false → ∃ t, exec (.agePromotion p) s = .next t ∧ { j with phase := .ready (prio + 1) s.blk.gmc } ∈ t.blk.hop.jobs ∧
    t.blk.hop.jobs.length = s.blk.hop.jobs.length ∧ t.blk.regs = s.blk.regs ∧ t.blk.mem = s.blk.mem) ∧
  (∀ (s : State) (p k : Nat) (j : Job) (l : List Job), s.blk.held = false → s.blk.readyTasks p = j :: l → j.startable = true → s.blk.pwr.furl = .a0 → s.blk.tileFor j = some k → 
    s.blk.inReset = false → ∃ t, exec (.taskDispatch p) s = .next t ∧ t.blk.tileState k = tBusy ∧ (t.blk.tile k).task = some (j.id, j.next) ∧ t.blk.mem = s.blk.mem ∧
    (∃ x, t.blk.job j.id = some x ∧ x.next = j.next + 1 ∧ x.running = j.running ++ [{ index := j.next, tile := k, arg := (dArg j.desc 0x08 8 + j.next * dArg j.desc 0x14 2) % 2 ^ 64, cogJob := 0, cogStream := 0 }]) ∧
    (∀ f i, ¬(f = .TILE_STATE_STATE ∧ i = k) → ¬(f = .PERF_CNT_COUNT ∧ i / 4 = k) → t.blk.get f i = s.blk.get f i) ∧ (∀ i, i ≠ k → t.blk.tile i = s.blk.tile i) ∧
    (∀ n, n < 4 → t.blk.get .PERF_CNT_COUNT (4 * k + n) = if s.blk.get .PERF_SEL_EVENT (4 * k + n) = 9 then (s.blk.get .PERF_CNT_COUNT (4 * k + n) + 1) % 2 ^ 48 else s.blk.get .PERF_CNT_COUNT (4 * k + n))) ∧
  (∀ (s : State) (p : Nat) (j : Job) (l : List Job), s.blk.readyTasks p = j :: l → s.blk.pwr.furl = .a0 → s.blk.tileFor j = none → 
    s.blk.inReset = false → ∃ t, exec (.taskDispatch p) s = .next t ∧ t = s) ∧
  (∀ (s : State) (p : Nat) (j : Job) (l : List Job), s.blk.held = false → s.blk.readyTasks p = j :: l → j.startable = true → s.blk.pwr.furl ≠ .a0 → 
    s.blk.inReset = false → ∃ t, exec (.taskDispatch p) s = .next t ∧ t.blk = s.blk.wakeForWork) ∧
  (∀ (s : State) (k status cause : Nat), s.blk.buffered k = false → (s.blk.tile k).ending = none → 
    s.blk.inReset = false → ∃ t, exec (.taskEnd k status cause) s = .next t ∧ t.blk = (s.blk.finishTask k status cause).serve) ∧
  (∀ (s : State) (k status cause : Nat) (x : Nat × Nat), s.blk.buffered k = true → (s.blk.tile k).ending = none → (s.blk.tile k).task = some x → 
    s.blk.inReset = false → ∃ t, exec (.taskEnd k status cause) s = .next t ∧ t.blk = ((s.blk.flushTile k).setTile k { s.blk.tile k with ending := some (status, cause) }).serve) ∧
  (∀ (s : State) (k : Nat) (e : TrEntry) (r : Rec), s.blk.nextFlow = some k → s.blk.flowHead (k / 4096) (k % 4096) = some e → e.record = some r → 
    s.blk.inReset = false → ∃ t, exec .tailraceRelease s = .next t ∧ (∀ x ∈ t.blk.hop.tailrace, x.job ≠ e.job) ∧ t.blk.hop.lastPart = k / 4096 ∧ t.blk.hop.lastFlow = Tab.put s.blk.hop.lastFlow (k / 4096) (k % 4096) ∧
    t.blk = ({ s.blk with hop := { s.blk.hop with tailrace := s.blk.hop.tailrace.filter (fun x => x.job ≠ e.job), lastPart := k / 4096, lastFlow := Tab.put s.blk.hop.lastFlow (k / 4096) (k % 4096) } }).writeRecord r e.seq)

/-- ACQUIRE, PAWL_TRY, RELEASE and RENEW, by tasks and by descriptors. A free pawl of its partition is granted to the asking
context with its lease, to a task or to a descriptor's job. A pawl another context holds queues an ACQUIRE behind its
other waiters and turns a TRY away. With no waiter and nothing left to serve, RELEASE by the holder frees the pawl, and
MENDED clears BROKEN; RENEW restarts the lease. A RELEASE or RENEW at the head of a ring is executed by its hand-over.
(R290, R317, R319, R321, R323) -/
def Obligations.PawlRequests : Prop :=
  (∀ (s : State) (c : Instr) (k i lease p ctx limit : Nat), (c = .acquire (.task k) i lease [] ∨ c = .pawlTry (.task k) i lease []) → s.blk.taskOwner k = some (p, ctx, limit) → i < s.blk.get .PART_HOP_PAWL_COUNT p → (s.blk.pawl (s.blk.pawlNo p i)).owner = none → 
    s.blk.inReset = false → ∃ t, exec c s = .next t ∧ t.blk.pawl (s.blk.pawlNo p i) = { s.blk.pawl (s.blk.pawlNo p i) with owner := some ctx, leaseDue := if lease = 0 then none else some (s.blk.dueAt s.blk.gmc lease) } ∧ t.blk.mem = s.blk.mem) ∧
  (∀ (s : State) (k i lease p ctx limit o : Nat), s.blk.taskOwner k = some (p, ctx, limit) → i < s.blk.get .PART_HOP_PAWL_COUNT p → (s.blk.pawl (s.blk.pawlNo p i)).owner = some o → o ≠ ctx → 
    s.blk.inReset = false → ∃ t, exec (.acquire (.task k) i lease []) s = .next t ∧ t.blk.pawl (s.blk.pawlNo p i) = { s.blk.pawl (s.blk.pawlNo p i) with waiters := (s.blk.pawl (s.blk.pawlNo p i)).waiters ++
      [{ who := .task k, ctx := ctx, lease := lease, due := if limit = 0 then none else some (s.blk.dueAt s.blk.gmc limit) }] } ∧ t.blk.mem = s.blk.mem ∧ t.blk.regs = s.blk.regs) ∧
  (∀ (s : State) (k i lease p ctx limit o : Nat), s.blk.taskOwner k = some (p, ctx, limit) → i < s.blk.get .PART_HOP_PAWL_COUNT p → (s.blk.pawl (s.blk.pawlNo p i)).owner = some o → o ≠ ctx → 
    s.blk.inReset = false → ∃ t, exec (.pawlTry (.task k) i lease []) s = .next t ∧ t.blk.hop.pawls = s.blk.hop.pawls ∧ t.blk.hop.taskReplies = s.blk.hop.taskReplies ++ [(k, stTimeout, 0x51)] ∧
    t.blk.mem = s.blk.mem) ∧
  (∀ (s : State) (c : Instr) (id i lease : Nat) (j : Job), ((c = .acquire (.job id) i lease [] ∧ pOp j.desc = 1) ∨ (c = .pawlTry (.job id) i lease [] ∧ pOp j.desc = 2)) → s.blk.job id = some j → dOpcode j.desc = 0x12 → j.phase = .admitted → s.blk.fenceMet j = true → j.startable = true → s.blk.expired j = false → s.blk.pawlFault j.part j.desc = none → (s.blk.pawl (s.blk.pawlNo j.part (pPawl j.desc))).owner = none → 
    s.blk.inReset = false → ∃ t, exec c s = .next t ∧ (t.blk.pawl (s.blk.pawlNo j.part (pPawl j.desc))).owner = some (pCtx j.desc) ∧
    (dMark j.desc = false → t.blk.job id = none)) ∧
  (∀ (s : State) (k i p ctx limit : Nat) (mended : Bool), s.blk.taskOwner k = some (p, ctx, limit) → i < s.blk.get .PART_HOP_PAWL_COUNT p → (s.blk.pawl (s.blk.pawlNo p i)).owner = some ctx → (s.blk.pawl (s.blk.pawlNo p i)).waiters = [] → s.blk.ms.accs = [] → s.blk.ms.wc = [] → s.blk.fab.inreqs = [] → 
    s.blk.inReset = false → ∃ t, exec (.release (.task k) i mended []) s = .next t ∧ (t.blk.pawl (s.blk.pawlNo p i)).owner = none ∧
    (t.blk.pawl (s.blk.pawlNo p i)).broken = (!mended && (s.blk.pawl (s.blk.pawlNo p i)).broken) ∧
    t.blk.hop.taskReplies = s.blk.hop.taskReplies ++ [(k, stDone, 0)]) ∧
  (∀ (s : State) (k i lease p ctx limit : Nat), s.blk.taskOwner k = some (p, ctx, limit) → i < s.blk.get .PART_HOP_PAWL_COUNT p → (s.blk.pawl (s.blk.pawlNo p i)).owner = some ctx → 
    s.blk.inReset = false → ∃ t, exec (.renew (.task k) i lease []) s = .next t ∧ t.blk.pawl (s.blk.pawlNo p i) = { s.blk.pawl (s.blk.pawlNo p i) with leaseDue := if lease = 0 then none else some (s.blk.dueAt s.blk.gmc lease) } ∧
    t.blk.hop.taskReplies = s.blk.hop.taskReplies ++ [(k, stDone, 0)]) ∧
  (∀ (s : State) (q : SqRef) (f : Fetched) (l : List Fetched) (i : Nat) (mended : Bool), (s.blk.sq q).queue = f :: l → dOpcode f.bytes = 0x12 → pOp f.bytes = 3 → 
    s.blk.inReset = false → ∃ t, exec (.release (.desc q) i mended []) s = .next t ∧ t.blk = s.blk.handOver q) ∧
  (∀ (s : State) (q : SqRef) (f : Fetched) (l : List Fetched) (i lease : Nat), (s.blk.sq q).queue = f :: l → dOpcode f.bytes = 0x12 → pOp f.bytes = 4 → 
    s.blk.inReset = false → ∃ t, exec (.renew (.desc q) i lease []) s = .next t ∧ t.blk = s.blk.handOver q)

/-- PAWL_BREAK, LEASE_EXPIRY, WAIT_LIMIT_EXPIRY and CTX_KILL. A held pawl without waiters that GO or an expired lease breaks
is free and BROKEN, with the cause of the break and the context that lost it; the break of a pawl nobody holds changes
no pawl. Where a lease expires in the cycle of its renewal the renewal comes first, whichever command brings the two.
Waiters whose limit has passed leave the queue and the others stay in order. CTX_KILL faults every context it names.
(R294, R320, R322, R325) -/
def Obligations.PawlsBreak : Prop :=
  (∀ (s : State) (p i c : Nat), i < s.blk.get .PART_HOP_PAWL_COUNT p → (s.blk.pawl (s.blk.pawlNo p i)).owner = some c → (s.blk.pawl (s.blk.pawlNo p i)).waiters = [] → 
    s.blk.inReset = false → ∃ t, exec (.pawlBreak p i []) s = .next t ∧ (t.blk.pawl (s.blk.pawlNo p i)).owner = none ∧ (t.blk.pawl (s.blk.pawlNo p i)).broken = true ∧
    (t.blk.pawl (s.blk.pawlNo p i)).cause = 0x5D ∧ c ∈ (t.blk.pawl (s.blk.pawlNo p i)).lost ∧ t.blk.mem = s.blk.mem) ∧
  (∀ (s : State) (p i : Nat), (s.blk.pawl (s.blk.pawlNo p i)).owner = none → 
    s.blk.inReset = false → ∃ t, exec (.pawlBreak p i []) s = .next t ∧ t.blk.hop = s.blk.hop ∧ t.blk.mem = s.blk.mem) ∧
  (∀ (s : State) (n p d c : Nat), (s.blk.pawl n).leaseDue = some d → s.blk.pawlPart n = some p → d ≤ s.blk.gmc → (s.blk.pawl n).owner = some c → (s.blk.pawl n).waiters = [] → 
    s.blk.inReset = false → ∃ t, exec (.leaseExpiry n []) s = .next t ∧ (t.blk.pawl n).owner = none ∧ (t.blk.pawl n).broken = true ∧ (t.blk.pawl n).cause = 0x5A ∧
    c ∈ (t.blk.pawl n).lost ∧ t.blk.mem = s.blk.mem) ∧
  (∀ (s : State) (c : Instr) (k i lease p ctx limit : Nat), (c = .renew (.task k) i lease [.lease (s.blk.pawlNo p i)] ∨ c = .leaseExpiry (s.blk.pawlNo p i) [.renew (.task k) i lease]) → s.blk.taskOwner k = some (p, ctx, limit) → i < s.blk.get .PART_HOP_PAWL_COUNT p → (s.blk.pawl (s.blk.pawlNo p i)).owner = some ctx → lease ≠ 0 → s.blk.gmc < s.blk.dueAt s.blk.gmc lease → (∀ e ∈ s.blk.hop.pawls, e.2.waiters = []) → 
    s.blk.inReset = false → ∃ t, exec c s = .next t ∧ (t.blk.pawl (s.blk.pawlNo p i)).owner = some ctx ∧
    (t.blk.pawl (s.blk.pawlNo p i)).leaseDue = some (s.blk.dueAt s.blk.gmc lease) ∧
    (t.blk.pawl (s.blk.pawlNo p i)).broken = (s.blk.pawl (s.blk.pawlNo p i)).broken) ∧
  (∀ (s : State) (n p : Nat), s.blk.pawlPart n = some p → 
    s.blk.inReset = false → ∃ t, exec (.waitLimitExpiry n []) s = .next t ∧ (t.blk.pawl n).owner = (s.blk.pawl n).owner ∧
    (t.blk.pawl n).waiters = (s.blk.pawl n).waiters.filter fun w => !(match w.due with | some d => decide (d ≤ s.blk.gmc) | none => false)) ∧
  (∀ (s : State) (p mask c : Nat), c < 64 → mask.testBit c = true → 
    s.blk.inReset = false → ∃ t, exec (.ctxKill p mask) s = .next t ∧ t.blk.bit .CTX_FAULTED_CTX p c = true)

/-- TILE_TAKE_OUT, TILE_RETURN, SELF_TEST_DONE and TILE_PARITY. A request to a disabled tile is dropped. A FREE tile taken
out is OUT; a BUSY one or one under self-test is marked to leave. A returned tile enters SELFTEST with its memory
reading 0, and a return in any other state sets TILE_BADREQ. A self-test that passes frees the tile, or takes it OUT
when it was to leave; one that fails leaves it FAILED; the result is kept. A parity error ends the task with
FAULT_ENGINE and PARITY and names the part that failed. (R4, R620, R622, R623, R624, R625, R626, R628) -/
def Obligations.TilePool : Prop :=
  (∀ (s : State) (k : Nat), k ∈ s.blk.enabledTiles → s.blk.tileState k = tFree → 
    s.blk.inReset = false → ∃ t, exec (.tileTakeOut k) s = .next t ∧ t.blk.tileState k = tOut) ∧
  (∀ (s : State) (k : Nat), k ∈ s.blk.enabledTiles → (s.blk.tileState k = tBusy ∨ s.blk.tileState k = tSelftest) → 
    s.blk.inReset = false → ∃ t, exec (.tileTakeOut k) s = .next t ∧ (t.blk.tile k).leaving = true ∧ t.blk.tileState k = s.blk.tileState k ∧ t.blk.mem = s.blk.mem) ∧
  (∀ (s : State) (k : Nat), k ∈ s.blk.enabledTiles → (s.blk.tileState k = tOut ∨ s.blk.tileState k = tFailed) → 
    s.blk.inReset = false → ∃ t, exec (.tileReturn k) s = .next t ∧ t.blk.tileState k = tSelftest ∧
    ∀ a, t.blk.byte a = if tileMemBase k ≤ a ∧ a < tileMemBase k + 0x200000 then 0 else s.blk.byte a) ∧
  (∀ (s : State) (k : Nat), k ∈ s.blk.enabledTiles → s.blk.tileState k ≠ tOut → s.blk.tileState k ≠ tFailed → 
    s.blk.inReset = false → ∃ t, exec (.tileReturn k) s = .next t ∧ t.blk.get .TILE_CTRL_TILE_BADREQ k = 1 ∧ t.blk.mem = s.blk.mem ∧
    ∀ f i, ¬(f = .TILE_CTRL_TILE_BADREQ ∧ i = k) → t.blk.get f i = s.blk.get f i) ∧
  (∀ (s : State) (c : Instr) (k : Nat), (c = .tileTakeOut k ∨ c = .tileReturn k) → k ∉ s.blk.enabledTiles →
    exec c s = .next s) ∧
  (∀ (s : State) (k result us : Nat), s.blk.tileState k = tSelftest → 
    s.blk.inReset = false → ∃ t, exec (.selfTestDone k result us) s = .next t ∧ t.blk.get .TILE_TEST_LAST k = min result 2 + 1 ∧ t.blk.get .TILE_TEST_DURATION k = min us 65535 ∧
    t.blk.tileState k = (if result ≠ 0 then tFailed else if (s.blk.tile k).leaving then tOut else tFree)) ∧
  (∀ (s : State) (k : Nat) (m : Bool) (x : Nat × Nat), (s.blk.tile k).task = some x → 
    s.blk.inReset = false → ∃ t, exec (.tileParity k m) s = .next t ∧ t.blk = (((s.blk.set .TILE_LAST_ERR_UE k 1).set .TILE_LAST_ERR_KIND k (if m then 3 else 2)).setTile k { s.blk.tile k with fault := true }).taskEnd k stEngine 0xC1)

/-- LOAD_TILE, STORE_TILE and SPOUT_GATHER: a task's loads, stores and gathers in tile memory. With nothing else under way,
a store by a running task into tile memory or SRAM that its partition may reach writes its bytes at their place and
nothing else; a load or a one-element gather from there returns the stored bytes and changes no byte. The access of a
task in general joins those under way and everything that waits is tried. Of two tiles' stores to one byte in one cycle
the higher-numbered tile's comes last, whichever command brings the two. A tile without a running task makes no access.
(R340, R341, R373, R375, R380, R382, R383) -/
def Obligations.TileAccesses : Prop :=
  (∀ (s : State) (k a x p : Nat) (crit : Bool) (l : List Byte), s.blk.tileAccess k = some (p, crit) → s.blk.ms.accs = [] → s.blk.ms.wc = [] → s.blk.fab.inreqs = [] → s.blk.destOf p a = .aperture x → memOf x = none → (s.blk.tile k).releasing = none → l ≠ [] → a % 128 + l.length ≤ 128 → 
    s.blk.inReset = false → ∃ t, exec (.storeTile k a l []) s = .next t ∧ t.blk.mem = Mem.write 0 s.blk.mem x l ∧
    (∀ i, ¬(x ≤ i ∧ i < x + l.length) → t.blk.byte i = s.blk.byte i) ∧ t.blk.regs = s.blk.regs ∧ t.blk.out = s.blk.out ∧ t.blk.ms.accs = []) ∧
  (∀ (s : State) (k r a x n p : Nat) (crit : Bool), s.blk.tileAccess k = some (p, crit) → s.blk.ms.accs = [] → s.blk.ms.wc = [] → s.blk.fab.inreqs = [] → s.blk.destOf p a = .aperture x → memOf x = none → s.blk.faultySectors x n = [] → n ≠ 0 → a % 128 + n ≤ 128 → 
    s.blk.inReset = false → ∃ t, exec (.loadTile k r a n []) s = .next t ∧ t.blk.mem = s.blk.mem ∧ t.blk.regs = s.blk.regs ∧
    t.blk.out = s.blk.out ++ [.tileData k (s.blk.readMem x n)] ∧ t.blk.ms.accs = []) ∧
  (∀ (s : State) (k r size a x p : Nat) (crit : Bool), s.blk.tileAccess k = some (p, crit) → s.blk.ms.accs = [] → s.blk.ms.wc = [] → s.blk.fab.inreqs = [] → s.blk.destOf p a = .aperture x → memOf x = none → s.blk.faultySectors x size = [] → k < 32 → (size = 4 ∨ size = 8 ∨ size = 16) → a % size = 0 → 
    s.blk.inReset = false → ∃ t, exec (.spoutGather k r size [a] []) s = .next t ∧ t.blk.mem = s.blk.mem ∧ t.blk.regs = s.blk.regs ∧
    t.blk.out = s.blk.out ++ [.tileData k (s.blk.readMem x size)] ∧ t.blk.ms.accs = []) ∧
  (∀ (s : State) (k r a n p : Nat) (crit : Bool) (strikes : List Strike), s.blk.tileAccess k = some (p, crit) → 
    s.blk.inReset = false → ∃ t, exec (.loadTile k r a n strikes) s = .next t ∧ t.blk = ((s.blk.strike strikes).addAccess { id := 0, kind := .load r, who := .tile k, part := p, die := tileDie k, crit := crit, todo := blockReqs a (min n 1024), elems := [a], data := zeros (min n 1024), bad := none }).serve) ∧
  (∀ (s : State) (c : Instr) (k j a x p q : Nat) (crit crit' : Bool) (l m : List Byte), k < j → s.blk.tileAccess k = some (p, crit) → s.blk.tileAccess j = some (q, crit') → s.blk.ms.accs = [] → s.blk.ms.wc = [] → s.blk.fab.inreqs = [] → s.blk.destOf p a = .aperture x → s.blk.destOf q a = .aperture x → memOf x = none → regionOf x ≠ .tier → (s.blk.tile k).releasing = none → (s.blk.tile j).releasing = none → l ≠ [] → l.length = m.length → a % 128 + l.length ≤ 128 → (c = .storeTile k a l [{ tile := j, addr := a, data := m }] ∨ c = .storeTile j a m [{ tile := k, addr := a, data := l }]) → 
    s.blk.inReset = false → ∃ t, exec c s = .next t ∧ t.blk.mem = Mem.write 0 (Mem.write 0 s.blk.mem x l) x m ∧ t.blk.regs = s.blk.regs) ∧
  (∀ (s : State) (k : Nat) (c : Instr), s.blk.tileAccess k = none → ((∃ r a n l, c = .loadTile k r a n l) ∨ ∃ r n as l, c = .spoutGather k r n as l) → 
    s.blk.inReset = false → ∃ t, exec c s = .next t ∧ t = s) ∧
  (∀ (s : State) (k a : Nat) (l : List Byte), s.blk.tileAccess k = none → 
    s.blk.inReset = false → ∃ t, exec (.storeTile k a l []) s = .next t ∧ t.blk = s.blk.serve)

/-- TRANSLATION_FILL, TRANSLATION_ENTRY_EXPIRY, WC_HOLD_EXPIRY, FLUSH_ACK and INVALIDATE. A fill that no invalidation
overtook answers with what its table held, and one that was overtaken with what the table holds now. An entry that
expires leaves its die's cache, and nothing else changes. An idle line starts to be flushed. A flush that reaches a
stack in reach, its partition's sluice not running, writes the bytes its mask names and ends. An INVALIDATE of
translations drops those of its range, or all of its partition, and completes; one with bad arguments ends with BAD_INV.
(R363, R364, R365, R367, R370, R371, R377, R378) -/
def Obligations.TranslationAndWriteCombining : Prop :=
  (∀ (s : State) (die p u : Nat) (f : Fill) (r : Run), (s.blk.ms.fills.find? fun f => decide (f.die = die ∧ f.pkg = s.blk.pkg ∧ f.part = p ∧ f.unit = u)) = some f → (if f.stale then findRun (s.blk.runs p) u else f.found) = some r → 
    s.blk.inReset = false → ∃ t, exec (.translationFill die p u) s = .next t ∧ t.blk = s.blk.answerFill f (.ok r)) ∧
  (∀ (s : State) (die p u : Nat) (f : Fill), (s.blk.ms.fills.find? fun f => decide (f.die = die ∧ f.pkg = s.blk.pkg ∧ f.part = p ∧ f.unit = u)) = some f → (if f.stale then findRun (s.blk.runs p) u else f.found) = none → 
    s.blk.inReset = false → ∃ t, exec (.translationFill die p u) s = .next t ∧ t.blk = s.blk.answerFill f (.error (stAddr, 0x77))) ∧
  (∀ (s : State) (die pkg part unit : Nat), 
    s.blk.inReset = false → ∃ t, exec (.translationEntryExpiry die pkg part unit) s = .next t ∧ t.blk.cached die pkg part unit = none ∧ t.blk.regs = s.blk.regs ∧ t.blk.mem = s.blk.mem ∧
    ∀ e ∈ s.blk.ms.tc, e ∈ t.blk.ms.tc ∨ (e.die = die ∧ e.pkg = pkg ∧ e.part = part ∧ e.base ≤ unit ∧ unit < e.base + e.size)) ∧
  (∀ (s : State) (die pkg line : Nat), 
    s.blk.inReset = false → ∃ t, exec (.wcHoldExpiry die pkg line) s = .next t ∧ t.blk = ({ s.blk with ms := { s.blk.ms with wc := s.blk.ms.wc.map fun (e : WcEntry) =>
      if e.die = die ∧ e.pkg = pkg ∧ e.line = line ∧
        (max 1 (s.blk.get .WC_CTRL_WC_HOLD)) * 20 ≤ (s.blk.gmc - e.since) * (s.blk.die die).lastCode then
        { e with flushing := true } else e } }).serve) ∧
  (∀ (s : State) (die line k n : Nat) (e : WcEntry) (bad : Option Nat) (b : Block) (strikes : List Strike), s.blk.wcFind die s.blk.pkg line = some e → e.flushing = true → memOf (line * 128) = some k → k < 2 → s.blk.memUp k = true → (s.blk.sluice (slIx e.part k)).run = false → (s.blk.strike strikes).writeMasked line e.bytes = (bad, n, b) → 
    s.blk.inReset = false → ∃ t, exec (.flushAck die line strikes) s = .next t ∧ t.blk = ((b.bump .WC_RMW_COUNT die n).endFlush e (if bad.isSome then stMemUe else stDone) (bad.getD 0)).serve) ∧
  (∀ (s : State) (id : Nat) (j : Job) (b : Block), s.blk.engineStart engTable onTables anyJob (isOp 0x21) id = some (j, b) → invBad j.desc = true → 
    s.blk.inReset = false → ∃ t, exec (.invalidate id) s = .next t ∧ t.blk = b.violateJob j 0x7B) ∧
  (∀ (s : State) (id : Nat) (j : Job) (b : Block), s.blk.engineStart engTable onTables anyJob (isOp 0x21) id = some (j, b) → invBad j.desc = false → dArg j.desc 0x0C 1 = 1 → 
    s.blk.inReset = false → ∃ t, exec (.invalidate id) s = .next t ∧ t.blk = (if dArg j.desc 0x08 4 = 0 then b.dropAllTrans j.part
      else b.dropTrans (dArg j.desc 0x00 8 / 2 ^ 50) j.part (dArg j.desc 0x00 8 % 2 ^ 50 / unitBytes) (dArg j.desc 0x08 4)).conclude j stDone 0 0)

/-- COPY, PLACE, UNPLACE, PT_XCHG and FREE_ALL. A COPY or PLACE with bad arguments ends with its violation; a good COPY
starts to read, a good PLACE ends as its units could be placed: DONE with the result, or the refusal. UNPLACE of units
with no access under way ends as removed. PT_XCHG gives two runs of equal COUNT each other's place; runs of different
counts or that do not exist are refused. FREE_ALL leaves no unit preloaded. (R345, R346, R353, R354, R356, R357, R358,
R387, R388) -/
def Obligations.CopyAndPlacement : Prop :=
  (∀ (s : State) (id : Nat) (strikes : List Strike) (j : Job) (b : Block), s.blk.engineStart engMover (isOp 0x20) anyJob anyJob id = some (j, b) → copyBad j.desc = true → 
    s.blk.inReset = false → ∃ t, exec (.copy id strikes) s = .next t ∧ t.blk = b.violateJob j 0x79) ∧
  (∀ (s : State) (id : Nat) (strikes : List Strike) (j : Job) (b : Block), s.blk.engineStart engMover (isOp 0x20) anyJob anyJob id = some (j, b) → copyBad j.desc = false → 
    s.blk.inReset = false → ∃ t, exec (.copy id strikes) s = .next t ∧ t.blk = (((b.strike strikes).setJob { j with next := 0 }).copyRead { j with next := 0 }).serve) ∧
  (∀ (s : State) (id : Nat) (j : Job) (b : Block), s.blk.engineStart engTable onTables anyJob (fun j => isOp 0x22 j && plOp j.desc != 2) id = some (j, b) → b.placeBad j.desc = true → 
    s.blk.inReset = false → ∃ t, exec (.place id) s = .next t ∧ t.blk = b.violateJob j 0x70) ∧
  (∀ (s : State) (id n : Nat) (j : Job) (b d d' : Block), s.blk.engineStart engTable onTables anyJob (fun j => isOp 0x22 j && plOp j.desc != 2) id = some (j, b) → b.placeBad j.desc = false → b.placeUnits j.part j.desc = .done d n → d.reachAll (b.newMems d j.part) = (true, d') → 
    s.blk.inReset = false → ∃ t, exec (.place id) s = .next t ∧ t.blk = b.endPlaced j (.done d' n)) ∧
  (∀ (s : State) (id : Nat) (j : Job) (b : Block), s.blk.engineStart engTable onTables anyJob (fun j => isOp 0x22 j && plOp j.desc != 2) id = some (j, b) → b.placeBad j.desc = false → (∀ d n, b.placeUnits j.part j.desc ≠ .done d n) → 
    s.blk.inReset = false → ∃ t, exec (.place id) s = .next t ∧ t.blk = b.endPlaced j (b.placeUnits j.part j.desc)) ∧
  (∀ (s : State) (id : Nat) (j : Job) (b : Block), s.blk.engineStart engTable onTables anyJob (fun j => isOp 0x22 j && plOp j.desc == 2) id = some (j, b) → b.placeBad j.desc = false → b.rangeBusy j.part (plPaddr j.desc / unitBytes) (plUnits j.desc) = false → 
    s.blk.inReset = false → ∃ t, exec (.unplace id) s = .next t ∧ t.blk = b.endPlaced j (b.unplaceUnits j.part (plPaddr j.desc / unitBytes) (plUnits j.desc))) ∧
  (∀ (s : State) (p x y : Nat) (r q : Run), (s.blk.runs p)[x % 1024]? = some r → (s.blk.runs p)[y % 1024]? = some q → r.count = q.count → x % 1024 ≠ y % 1024 → 
    s.blk.inReset = false → ∃ t, exec (.ptXchg p x y) s = .next t ∧ (t.blk.runs p)[x % 1024]? = some { r with tier := q.tier, ways := q.ways, first := q.first, idx := q.idx } ∧
    (t.blk.runs p)[y % 1024]? = some { q with tier := r.tier, ways := r.ways, first := r.first, idx := r.idx } ∧
    (t.blk.runs p).length = (s.blk.runs p).length ∧ t.blk.mem = s.blk.mem) ∧
  (∀ (s : State) (p x y : Nat) (r q : Run), p < 8 → (s.blk.runs p)[x % 1024]? = some r → (s.blk.runs p)[y % 1024]? = some q → r.count ≠ q.count → 
    s.blk.inReset = false → ∃ t, exec (.ptXchg p x y) s = .next t ∧ t.blk.get .PT_XCHG_STATUS_XCHG_REFUSED p = 1 ∧ t.blk.get .PT_XCHG_STATUS_CAUSE p = 2 ∧ t.blk.ms = s.blk.ms) ∧
  (∀ (s : State) (p x y : Nat), p < 8 → (s.blk.runs p)[x % 1024]? = none → 
    s.blk.inReset = false → ∃ t, exec (.ptXchg p x y) s = .next t ∧ t.blk.get .PT_XCHG_STATUS_XCHG_REFUSED p = 1 ∧ t.blk.get .PT_XCHG_STATUS_CAUSE p = 1 ∧ t.blk.ms = s.blk.ms) ∧
  (∀ (s : State), 
    s.blk.inReset = false → ∃ t, exec .freeAll s = .next t ∧ t.blk.ms = { s.blk.ms with preloaded := [] } ∧ t.blk.mem = s.blk.mem ∧
    ∀ f i, f.eventOwn = false → t.blk.get f i = s.blk.get f i)

/-- PATROL_SCRUB, LIVE_REMAP, REMAP_RETIRE, CHANNEL_TAKE_OUT and SLUICE_REFILL. A patrol pass over a memory that is enabled
and in reach, when a period has gone since the last and no live remap is owed, reads its faulty sectors in ascending
order; otherwise none is made. A row at its limit with a spare row is copied, recorded and counted in LIVE; without one
its bank is counted in SPARE_OUT once. A retired mark ends: the channel's MARK shows no device. A channel in service
that is taken out leaves service with its reason. At a refill every partition's sluice on the memory is refilled and
what waited goes on. (R399, R402, R404, R405, R410, R411, R419, R424) -/
def Obligations.MemoryIntegrity : Prop :=
  (∀ (s : State) (k : Nat) (strikes : List Strike) (b : Block), k < 10 → (if k < 2 then s.blk.on .TF_SCRUB_EN k else s.blk.on .TS_SCRUB_EN (k - 2)) = true → s.blk.memUp k = true → ((Tab.get s.blk.ms.rows k []).filter fun e => e.2.owed) = [] → s.blk.patrolDue k = true → b = ({ s.blk with ms := { s.blk.ms with rows := Tab.del s.blk.ms.rows k, patrols := Tab.put s.blk.ms.patrols k s.blk.gmc } }).strike strikes → 
    s.blk.inReset = false → ∃ t, exec (.patrolScrub k strikes) s = .next t ∧ t.blk = ((b.ms.sectors.filter fun e => memOf (e.1 * 32) == some k).map (·.1)).foldl (fun b s => (b.readSector .patrol s).2) b) ∧
  (∀ (s : State) (k : Nat) (strikes : List Strike), (s.blk.remapOwed k = true ∨ s.blk.patrolDue k = false) → 
    s.blk.inReset = false → ∃ t, exec (.patrolScrub k strikes) s = .next t ∧ t = s) ∧
  (∀ (s : State) (x o : Nat) (r : RowErr), x < 2 → Tab.find (Tab.get s.blk.ms.rows x []) (tfRowKey o) = some r → r.owed = true → (tfPch o * 64 + tfBank o) ∉ Tab.get s.blk.ms.spareOut x [] → 
    s.blk.inReset = false → ∃ t, exec (.liveRemap x o false) s = .next t ∧ t.blk.get .TF_REMAP_SPARE_OUT x = (s.blk.get .TF_REMAP_SPARE_OUT x + 1) % 2 ^ Fld.TF_REMAP_SPARE_OUT.desc.width ∧
    (tfPch o * 64 + tfBank o) ∈ Tab.get t.blk.ms.spareOut x [] ∧ t.blk.mem = s.blk.mem ∧ t.blk.cfg = s.blk.cfg) ∧
  (∀ (s : State) (x o : Nat) (r : RowErr), x < 2 → Tab.find (Tab.get s.blk.ms.rows x []) (tfRowKey o) = some r → r.owed = true → 
    s.blk.inReset = false → ∃ t, exec (.liveRemap x o true) s = .next t ∧ t.blk.get .TF_REMAP_LIVE x = (s.blk.get .TF_REMAP_LIVE x + 1) % 2 ^ Fld.TF_REMAP_LIVE.desc.width ∧
    tfRowKey o ∈ Tab.get t.blk.ms.remapped x []) ∧
  (∀ (s : State) (c : Nat), 
    s.blk.inReset = false → ∃ t, exec (.remapRetire c) s = .next t ∧ t.blk.get .TS_MARK_DEVICE c = 0x1F ∧ t.blk.get .REMAP_CTRL_CH 0 = c % 2 ^ Fld.REMAP_CTRL_CH.desc.width ∧ t.blk.mem = s.blk.mem ∧
    ∀ f i, ¬(f = .TS_MARK_DEVICE ∧ i = c) → f ≠ .REMAP_CTRL_CH → t.blk.get f i = s.blk.get f i) ∧
  (∀ (s : State) (c reason : Nat), s.blk.on .TS_CHAN_IN_SERVICE c = true → 
    s.blk.inReset = false → ∃ t, exec (.channelTakeOut c reason) s = .next t ∧ t.blk.get .TS_CHAN_IN_SERVICE c = 0 ∧ t.blk.get .TS_MARK_OUT_REASON c = reason % 2 ^ Fld.TS_MARK_OUT_REASON.desc.width ∧ t.blk.mem = s.blk.mem ∧
    ∀ f i, ¬(f = .TS_CHAN_IN_SERVICE ∧ i = c) → ¬(f = .TS_MARK_OUT_REASON ∧ i = c) → f.eventOwn = false → t.blk.get f i = s.blk.get f i) ∧
  (∀ (s : State) (k : Nat), k < 10 → s.blk.ms.accs = [] → s.blk.ms.wc = [] → s.blk.fab.inreqs = [] → 
    s.blk.inReset = false → ∃ t, exec (.sluiceRefill k) s = .next t ∧ t.blk = ((List.range 8).foldl (fun b p => b.refillOne p k) s.blk).resume)

/-- GOVERNOR_READING and LOCAL_HOLD_END. A reading with main power up and PERST# high, in which no die is tripped or trips,
shows the package power, the rail averages and what they allow; while the package is in reset it changes nothing. A
local hold ends at a tick boundary once no sensor is CRITICAL, and collectives go on. (R436, R443, R845) -/
def Obligations.GovernorReadings : Prop :=
  (∀ (s : State) (temps : List (Option Int)) (power : Nat) (rails : List Nat), s.blk.pwr.mainUp = true → s.blk.pwr.perst = true → (∀ d < 2, (s.blk.die d).tripped = false ∧ tripHot temps d = false) → s.blk.fab.colls = [] → s.blk.hop.absorbs = [] → s.blk.svc.heldFrames = [] → 
    s.blk.inReset = false → ∃ t, exec (.governorReading temps power rails) s = .next t ∧ t.blk.get .GOV_POWER_MW 0 = power % 2 ^ Fld.GOV_POWER_MW.desc.width ∧
    t.blk.get .RAIL_MV0_CORE_G0 0 = rails.getD 0 0 % 2 ^ Fld.RAIL_MV0_CORE_G0.desc.width ∧
    t.blk.get .RAIL_MV2_CORE_MAX_G0 0 = coreMax (rails.getD 0 0) ∧ t.blk.get .RAIL_MV2_CORE_MAX_G1 0 = coreMax (rails.getD 1 0)) ∧
  (∀ (s : State) (temps : List (Option Int)) (power : Nat) (rails : List Nat), s.blk.inReset = true → 
    ∃ t, exec (.governorReading temps power rails) s = .next t ∧ t = s) ∧
  (∀ (s : State), s.blk.gov.localHold = true → s.blk.atTick = true → bits (s.blk.get .GOV_STATE_STATES) 10 2 < 3 → 
    s.blk.inReset = false → ∃ t, exec .localHoldEnd s = .next t ∧ t.blk = (({ s.blk with gov := { s.blk.gov with localHold := false } }).event 0x02 0x12).holdEnds) ∧
  (∀ (s : State), s.blk.gov.localHold = true → s.blk.atTick = true → bits (s.blk.get .GOV_STATE_STATES) 10 2 < 3 → s.blk.fab.colls = [] → 
    s.blk.inReset = false → ∃ t, exec .localHoldEnd s = .next t ∧ t.blk.gov = { s.blk.gov with localHold := false } ∧ t.blk.mem = s.blk.mem ∧
    ∀ f i, f.eventOwn = false → t.blk.get f i = s.blk.get f i)

/-- PORT_ENABLE, PORT_DISABLE, DETECT_POLL, EQUALISE_DONE, ALIGN_DONE, TS_FLIT and FENCE_CLEAR: the training of a port. An
OFF port enabled after the release edge in a mode it may run goes to DETECT; one written OFF while OFF stays OFF, and a
FENCED one stays FENCED. A port in DETECT or DOWN goes to EQUALISE when it finds its partner, from EQUALISE to ALIGN,
from ALIGN to CONFIG with a TS flit sent, and back to DETECT on failure. In CONFIG the eighth equal TS flit of a right
partner, with its ACK, leads to STANDBY with the epoch two ahead proposed; a wrong TORUS partner sets WIRING_BAD. On an
ACTIVE port a TS flit is an offence and leads to RETRAIN. A FENCED port is cleared to DETECT. In other states these
change nothing. (R446, R448, R449, R454, R455, R456, R457, R472, R500, R503, R879) -/
def Obligations.FabricPortsTrain : Prop :=
  (∀ (s : State) (port mode : Nat), s.blk.pwr.released = true → s.blk.portState port = pOff → s.blk.modeOk port mode = true → 
    s.blk.inReset = false → ∃ t, exec (.portEnable port mode) s = .next t ∧ t.blk.portState port = pDetect ∧ t.blk.portMode port = mode ∧ t.blk.on .PORT_CFG_ENABLE port = true ∧
    t.blk.fab = s.blk.fab ∧ t.blk.mem = s.blk.mem ∧ t.blk.out = s.blk.out ∧
    (∀ (f : Fld) (i : Nat), ¬(f ∈ ([.PORT_CFG_MODE, .PORT_CFG_ENABLE, .PORT_STATUS_STATE] : List Fld) ∧ i = port) → t.blk.get f i = s.blk.get f i)) ∧
  (∀ (s : State) (port mode : Nat), (s.blk.pwr.released = false ∨ s.blk.portState port ≠ pOff ∨ s.blk.modeOk port mode = false) → 
    s.blk.inReset = false → ∃ t, exec (.portEnable port mode) s = .next t ∧ t.blk.portState port = s.blk.portState port ∧ t.blk.fab = s.blk.fab ∧
    (∀ (f : Fld) (i : Nat), ¬(f ∈ ([.PORT_CFG_MODE, .PORT_CFG_ENABLE] : List Fld) ∧ i = port) → t.blk.get f i = s.blk.get f i)) ∧
  (∀ (s : State) (port mode : Nat) (enable : Bool), (mode = 0 ∨ enable = false) → s.blk.portState port = pOff → 
    s.blk.inReset = false → ∃ t, exec (.portDisable port mode enable) s = .next t ∧ t.blk.portState port = pOff ∧ t.blk.fab = s.blk.fab ∧ t.blk.get .PORT_CFG_ENABLE port = b2n enable ∧
    (∀ (f : Fld) (i : Nat), ¬(f ∈ ([.PORT_CFG_MODE, .PORT_CFG_ENABLE] : List Fld) ∧ i = port) → t.blk.get f i = s.blk.get f i)) ∧
  (∀ (s : State) (port mode : Nat) (enable : Bool), (mode = 0 ∨ enable = false) → s.blk.portState port = pFenced → 
    s.blk.inReset = false → ∃ t, exec (.portDisable port mode enable) s = .next t ∧ t.blk.portState port = pFenced ∧ t.blk.port port = (s.blk.port port).fresh ∧ t.blk.mem = s.blk.mem) ∧
  (∀ (s : State) (port mode : Nat) (enable : Bool), (mode = 0 ∨ enable = false) → (s.blk.portState port = pActive ∨ s.blk.portState port = pRetrain) → 
    s.blk.inReset = false → ∃ t, exec (.portDisable port mode enable) s = .next t ∧ t.blk = (({ s.blk.clearPort port pOff with pwr := { (s.blk.clearPort port pOff).pwr with lost := clrBit (s.blk.clearPort port pOff).pwr.lost (12 + port) } } : Block).set .PORT_CFG_MODE port mode).set .PORT_CFG_ENABLE port (b2n enable)) ∧
  (∀ (s : State) (port mode : Nat), mode ≠ 0 → 
    s.blk.inReset = false → ∃ t, exec (.portDisable port mode true) s = .next t ∧ t = s) ∧
  (∀ (s : State) (port : Nat) (found : Bool), (s.blk.portState port = pDetect ∨ s.blk.portState port = pDown) → 
    s.blk.inReset = false → ∃ t, exec (.detectPoll port found) s = .next t ∧ t.blk.portState port = (if found then pEqualise else pDetect) ∧ t.blk.fab = s.blk.fab ∧ t.blk.mem = s.blk.mem ∧ t.blk.out = s.blk.out ∧
    (∀ (f : Fld) (i : Nat), ¬(f ∈ ([.PORT_STATUS_STATE] : List Fld) ∧ i = port) → t.blk.get f i = s.blk.get f i)) ∧
  (∀ (s : State) (port : Nat) (ok : Bool), s.blk.portState port = pEqualise → 
    s.blk.inReset = false → ∃ t, exec (.equaliseDone port ok) s = .next t ∧ t.blk.portState port = (if ok then pAlign else pDetect) ∧ t.blk.fab = s.blk.fab ∧ t.blk.mem = s.blk.mem ∧ t.blk.out = s.blk.out ∧
    (∀ (f : Fld) (i : Nat), ¬(f ∈ ([.PORT_STATUS_STATE] : List Fld) ∧ i = port) → t.blk.get f i = s.blk.get f i)) ∧
  (∀ (s : State) (port : Nat), s.blk.portState port = pAlign → 
    s.blk.inReset = false → ∃ t, exec (.alignDone port true) s = .next t ∧ t.blk.portState port = pConfig ∧ (t.blk.port port).line = 1 ∧ t.blk.mem = s.blk.mem ∧
    (∃ (l : List Byte), t.blk.out = s.blk.out ++ [.flit port 0 l] ∧ l.length = 256 ∧ l.take 1 = [0x0E]) ∧
    (∀ (f : Fld) (i : Nat), ¬(f ∈ ([.PORT_STATUS_STATE] : List Fld) ∧ i = port) → t.blk.get f i = s.blk.get f i)) ∧
  (∀ (s : State) (port : Nat), s.blk.portState port = pAlign → 
    s.blk.inReset = false → ∃ t, exec (.alignDone port false) s = .next t ∧ t.blk = s.blk.setPortState port pDetect) ∧
  (∀ (s : State) (port : Nat) (found ok : Bool), s.blk.portState port ∉ [pDetect, pDown, pEqualise, pAlign] → 
    s.blk.inReset = false → ∃ t, exec (.detectPoll port found) s = .next t ∧ t = s ∧ exec (.equaliseDone port ok) s = .next s ∧ exec (.alignDone port ok) s = .next s) ∧
  (∀ (s : State) (port : Nat) (body : List Byte), s.blk.portState port = pActive → 
    s.blk.inReset = false → ∃ t, exec (.tsFlit port body) s = .next t ∧ t.blk.portState port = pRetrain ∧ t.blk.on .PORT_STATUS_PROBATION port = true ∧
    t.blk.get .PORT_OFFENCES_COUNT port = (s.blk.get .PORT_OFFENCES_COUNT port + 1) % 2 ^ Fld.PORT_OFFENCES_COUNT.desc.width ∧ t.blk.mem = s.blk.mem) ∧
  (∀ (s : State) (port : Nat) (body : List Byte), s.blk.portState port ≠ pActive → (fieldAt body 0 4 ≠ 0x5952424D ∨ fieldAt body 4 1 ≠ 1 ∨ (s.blk.portState port ≠ pConfig ∧ s.blk.portState port ≠ pRetrain)) → 
    s.blk.inReset = false → ∃ t, exec (.tsFlit port body) s = .next t ∧ t.blk = s.blk.gmcTopology ∧ t.blk.fab = s.blk.fab ∧ t.blk.mem = s.blk.mem ∧ ∀ n, t.blk.portState n = s.blk.portState n) ∧
  (∀ (s : State) (port : Nat) (body : List Byte), s.blk.portState port = pConfig → fieldAt body 0 4 = 0x5952424D → fieldAt body 4 1 = 1 → s.blk.portMode port = mdTorus → s.blk.partnerOk port body = false → 
    s.blk.inReset = false → ∃ t, exec (.tsFlit port body) s = .next t ∧ t.blk.portState port = pConfig ∧ t.blk.on .PORT_STATUS_WIRING_BAD port = true ∧ t.blk.mem = s.blk.mem) ∧
  (∀ (s : State) (port : Nat) (body : List Byte), s.blk.portState port = pConfig → fieldAt body 0 4 = 0x5952424D → fieldAt body 4 1 = 1 → s.blk.partnerOk port body = true → tsCreditsOk body = true → (fieldAt body 7 1).testBit 0 = true → tsIdentity body = (s.blk.port port).ts → 7 ≤ (s.blk.port port).tsSame → 
    s.blk.inReset = false → ∃ t, exec (.tsFlit port body) s = .next t ∧ t.blk.portState port = pStandby ∧ t.blk.get .PORT_STATUS_JOIN_EPOCH port = (s.blk.epoch + 2) % 2 ^ 32 ∧ t.blk.on .PORT_STATUS_WIRING_BAD port = false ∧
    (t.blk.port port).joinAt = some (s.blk.epoch + 2) ∧ t.blk.mem = s.blk.mem) ∧
  (∀ (s : State) (port : Nat), s.blk.portState port = pFenced → 
    s.blk.inReset = false → ∃ t, exec (.fenceClear port) s = .next t ∧ t.blk.portState port = pDetect ∧ t.blk.port port = (s.blk.port port).fresh ∧ t.blk.mem = s.blk.mem ∧ t.blk.out = s.blk.out ∧
    (∀ (f : Fld) (i : Nat), ¬(f ∈ ([.PORT_STATUS_STATE] : List Fld) ∧ i = port) → t.blk.get f i = s.blk.get f i)) ∧
  (∀ (s : State) (port : Nat), s.blk.portState port ≠ pFenced → 
    s.blk.inReset = false → ∃ t, exec (.fenceClear port) s = .next t ∧ t = s)

/-- DATA_FLIT, IDLE_FLIT, NAK, REPLAY_TIMEOUT, LOSS_OF_ALIGNMENT and RETRAIN_END: a port and the flits it keeps. A bad flit
is answered with NAK once, and counted. A good DATA flit of the expected SEQ is accepted, one behind it changes nothing
that is received. A good IDLE flit brings the partner's ACK and CREDITS, and one with a reserved field set is an offence
besides. NAK takes what it acknowledges out of the retry buffer and what is left is sent again. A time-out replays from
the oldest flit; the eighth such replay leads to RETRAIN, as does loss of alignment on an ACTIVE port. RETRAIN with the
sequence kept on both sides ends ACTIVE, or in STANDBY where the port had not joined yet; otherwise the port goes down
and its status and counters return to reset. In other states these change nothing. (R453, R454, R458, R460, R463, R464,
R465, R466, R467, R500, R119) -/
def Obligations.FabricFlitsAndRetry : Prop :=
  (∀ (s : State) (port corrected frac : Nat) (flit : List Byte) (bad : Bool), (s.blk.portState port = pActive ∨ s.blk.portState port = pStandby) → (bad = true ∨ flitOk flit = false) → (s.blk.port port).nakSent = false → 
    s.blk.inReset = false → ∃ t, exec (.dataFlit port flit corrected bad frac) s = .next t ∧ t.blk.get .PORT_NAKS_COUNT port = (s.blk.get .PORT_NAKS_COUNT port + 1) % 2 ^ Fld.PORT_NAKS_COUNT.desc.width ∧ (t.blk.port port).nakSent = true ∧
    t.blk.get .PORT_CORR_COUNT port = (s.blk.get .PORT_CORR_COUNT port + corrected) % 2 ^ 32 ∧ t.blk.out.length = s.blk.out.length + 1 ∧
    t.blk.mem = s.blk.mem ∧ (∀ (f : Fld) (i : Nat), ¬(f ∈ ([.PORT_NAKS_COUNT, .PORT_CORR_COUNT] : List Fld) ∧ i = port) → t.blk.get f i = s.blk.get f i)) ∧
  (∀ (s : State) (port corrected frac : Nat) (flit : List Byte) (bad : Bool), (s.blk.portState port = pActive ∨ s.blk.portState port = pStandby) → (bad = true ∨ flitOk flit = false) → (s.blk.port port).nakSent = true → 
    s.blk.inReset = false → ∃ t, exec (.dataFlit port flit corrected bad frac) s = .next t ∧ t.blk = s.blk.bump .PORT_CORR_COUNT port corrected) ∧
  (∀ (s : State) (port corrected frac : Nat) (flit : List Byte) (b : Block), (s.blk.portState port = pActive ∨ s.blk.portState port = pStandby) → flitOk flit = true → bits (fieldAt flit 0 1) 0 4 = 1 → (fieldAt flit 2 2).testBit 12 = false → b = (s.blk.bump .PORT_CORR_COUNT port corrected).applyHeader port flit → bits (fieldAt flit 2 2) 0 12 = (b.port port).nextRx → 
    s.blk.inReset = false → ∃ t, exec (.dataFlit port flit corrected false frac) s = .next t ∧ t.blk = ((((b.setPort port { b.port port with nextRx := ((b.port port).nextRx + 1) % 4096, acked := true, nakSent := false }).joinFlit port frac flit).sendIdle port false).pump port)) ∧
  (∀ (s : State) (port corrected frac : Nat) (flit : List Byte), (s.blk.portState port = pActive ∨ s.blk.portState port = pStandby) → flitOk flit = true → bits (fieldAt flit 0 1) 0 4 = 1 → bits (fieldAt flit 2 2) 0 12 ≠ (s.blk.port port).nextRx → ((s.blk.port port).nextRx + 4096 - bits (fieldAt flit 2 2) 0 12) % 4096 ≤ 2048 → 
    s.blk.inReset = false → ∃ t, exec (.dataFlit port flit corrected false frac) s = .next t ∧ (t.blk.port port).nextRx = (s.blk.port port).nextRx ∧ (t.blk.port port).rx = (s.blk.port port).rx ∧ (t.blk.port port).rxHeld = (s.blk.port port).rxHeld ∧ t.blk.mem = s.blk.mem) ∧
  (∀ (s : State) (port : Nat) (flit : List Byte), (s.blk.portState port = pActive ∨ s.blk.portState port = pStandby) → flitOk flit = true → flitReservedOk flit = true → (fieldAt flit 2 2).testBit 12 = false → 
    s.blk.inReset = false → ∃ t, exec (.idleFlit port flit) s = .next t ∧ t.blk = (s.blk.applyHeader port flit).pump port ∧ t.blk.regs = s.blk.regs ∧ t.blk.mem = s.blk.mem ∧
    (t.blk.port port).nextRx = (s.blk.port port).nextRx) ∧
  (∀ (s : State) (port : Nat) (flit : List Byte), (s.blk.portState port = pActive ∨ s.blk.portState port = pStandby) → flitOk flit = true → flitReservedOk flit = true → (fieldAt flit 2 2).testBit 12 = true → 
    s.blk.inReset = false → ∃ t, exec (.idleFlit port flit) s = .next t ∧ t.blk = ((s.blk.applyHeader port flit).replay port).pump port) ∧
  (∀ (s : State) (port : Nat) (flit : List Byte), (s.blk.portState port = pActive ∨ s.blk.portState port = pStandby) → flitOk flit = true → flitReservedOk flit = false → (fieldAt flit 2 2).testBit 12 = false → 
    s.blk.inReset = false → ∃ t, exec (.idleFlit port flit) s = .next t ∧ t.blk = ((s.blk.applyHeader port flit).offence port 0xA2 3 0xFF (some flit)).pump port) ∧
  (∀ (s : State) (port : Nat) (flit : List Byte), (s.blk.portState port = pActive ∨ s.blk.portState port = pStandby) → flitOk flit = false → (s.blk.port port).nakSent = false → 
    s.blk.inReset = false → ∃ t, exec (.idleFlit port flit) s = .next t ∧ t.blk.get .PORT_NAKS_COUNT port = (s.blk.get .PORT_NAKS_COUNT port + 1) % 2 ^ Fld.PORT_NAKS_COUNT.desc.width ∧ (t.blk.port port).nakSent = true ∧ (∀ (f : Fld) (i : Nat), ¬(f ∈ ([.PORT_NAKS_COUNT] : List Fld) ∧ i = port) → t.blk.get f i = s.blk.get f i)) ∧
  (∀ (s : State) (port ack : Nat) (valid : Bool) (b : Block), (s.blk.portState port = pActive ∨ s.blk.portState port = pStandby) → b = (if valid && (s.blk.port port).retry.any (fun (f : RFlit) => f.seq == ack) then s.blk.setPort port { s.blk.port port with retry := ((s.blk.port port).retry.dropWhile fun (f : RFlit) => f.seq ≠ ack).drop 1, replays := 0 } else s.blk) → 
    s.blk.inReset = false → ∃ t, exec (.nak port ack valid) s = .next t ∧ t.blk = (b.replay port).pump port ∧ t.blk.mem = s.blk.mem) ∧
  (∀ (s : State) (port : Nat), (s.blk.portState port = pActive ∨ s.blk.portState port = pStandby) → (s.blk.port port).retry = [] → 
    s.blk.inReset = false → ∃ t, exec (.replayTimeout port) s = .next t ∧ t.blk = s.blk.pump port ∧ t.blk.regs = s.blk.regs ∧ t.blk.mem = s.blk.mem) ∧
  (∀ (s : State) (port : Nat) (f : RFlit) (r : List RFlit), (s.blk.portState port = pActive ∨ s.blk.portState port = pStandby) → (s.blk.port port).retry = f :: r → ¬((s.blk.port port).replayAt = f.seq ∧ 7 ≤ (s.blk.port port).replays) → 
    s.blk.inReset = false → ∃ t, exec (.replayTimeout port) s = .next t ∧ t.blk.get .PORT_REPLAYS_COUNT port = (s.blk.get .PORT_REPLAYS_COUNT port + 1) % 2 ^ Fld.PORT_REPLAYS_COUNT.desc.width ∧ (t.blk.port port).retry.take (r.length + 1) = f :: r ∧
    t.blk.portState port = s.blk.portState port ∧ t.blk.mem = s.blk.mem ∧ (∀ (f : Fld) (i : Nat), ¬(f ∈ ([.PORT_REPLAYS_COUNT] : List Fld) ∧ i = port) → t.blk.get f i = s.blk.get f i)) ∧
  (∀ (s : State) (port : Nat) (f : RFlit) (r : List RFlit), (s.blk.portState port = pActive ∨ s.blk.portState port = pStandby) → (s.blk.port port).retry = f :: r → (s.blk.port port).replayAt = f.seq → 7 ≤ (s.blk.port port).replays → 
    s.blk.inReset = false → ∃ t, exec (.replayTimeout port) s = .next t ∧ t.blk.portState port = pRetrain ∧ t.blk.get .PORT_RETRAINS_COUNT port = (s.blk.get .PORT_RETRAINS_COUNT port + 1) % 2 ^ Fld.PORT_RETRAINS_COUNT.desc.width ∧
    (t.blk.port port).retry = f :: r ∧ t.blk.mem = s.blk.mem) ∧
  (∀ (s : State) (port : Nat), s.blk.portState port = pActive → 
    s.blk.inReset = false → ∃ t, exec (.lossOfAlignment port) s = .next t ∧ t.blk.portState port = pRetrain ∧ t.blk.get .PORT_RETRAINS_COUNT port = (s.blk.get .PORT_RETRAINS_COUNT port + 1) % 2 ^ Fld.PORT_RETRAINS_COUNT.desc.width ∧
    (t.blk.port port).retry = (s.blk.port port).retry ∧ (t.blk.port port).nextTx = (s.blk.port port).nextTx ∧ (t.blk.port port).nextRx = (s.blk.port port).nextRx ∧
    t.blk.mem = s.blk.mem ∧ (∀ (f : Fld) (i : Nat), ¬(f ∈ ([.PORT_STATUS_STATE, .PORT_RETRAINS_COUNT] : List Fld) ∧ i = port) → t.blk.get f i = s.blk.get f i)) ∧
  (∀ (s : State) (port : Nat), s.blk.portState port ≠ pActive → 
    s.blk.inReset = false → ∃ t, exec (.lossOfAlignment port) s = .next t ∧ t = s) ∧
  (∀ (s : State) (port : Nat), s.blk.portState port = pRetrain → (s.blk.port port).tsKeep = true → 
    s.blk.inReset = false → ∃ t, exec (.retrainEnd port true) s = .next t ∧ t.blk.portState port = (if (s.blk.port port).joinAt.isSome then pStandby else pActive) ∧ (t.blk.port port).nextRx = (s.blk.port port).nextRx ∧ t.blk.mem = s.blk.mem ∧
    (∀ (f : Fld) (i : Nat), ¬(f ∈ ([.PORT_STATUS_STATE] : List Fld) ∧ i = port) → f.eventOwn = false → t.blk.get f i = s.blk.get f i)) ∧
  (∀ (s : State) (port : Nat) (ok : Bool), s.blk.portState port = pRetrain → (ok = false ∨ (s.blk.port port).tsKeep = false) → 
    s.blk.inReset = false → ∃ t, exec (.retrainEnd port ok) s = .next t ∧ t.blk = (((s.blk.portDown port).failOwn (s.blk.ownQueued port)).gmcTopology).forgetPort port) ∧
  (∀ (s : State) (port ack : Nat) (c : Instr), s.blk.portState port ∉ [pActive, pStandby, pRetrain] → (c = .nak port ack true ∨ c = .nak port ack false ∨ c = .replayTimeout port ∨ (∃ ok, c = .retrainEnd port ok) ∨ (∃ l, c = .idleFlit port l) ∨ ∃ l k v x, c = .dataFlit port l k v x) → 
    s.blk.inReset = false → ∃ t, exec c s = .next t ∧ t = s)

/-- MBARY_PORT_RESET and ETH_PORT_RESET: the ports named start again. A reset Mbary port that carried no traffic has its
counters and status at reset and holds nothing; it is in DETECT when its MODE and ENABLE say so, else OFF, and a FENCED
one stays FENCED. A reset Ethernet port has its nine counters, its link status and its last drop at zero. No other
Ethernet port changes, and no byte of memory. A mask that names no port changes nothing. (R88, R119, R503) -/
def Obligations.PortResets : Prop :=
  (∀ (s : State) (port : Nat), port < 8 → s.blk.portState port ≠ pActive → s.blk.portState port ≠ pRetrain → 
    s.blk.inReset = false → ∃ t, exec (.mbaryPortReset (2 ^ port)) s = .next t ∧ (∀ f ∈ ([.PORT_STATUS_PROBATION, .PORT_STATUS_FENCE_PENDING, .PORT_STATUS_WIRING_BAD, .PORT_STATUS_PARTNER_PKG, .PORT_STATUS_PARTNER_PORT, .PORT_STATUS_JOIN_EPOCH, .PORT_CORR_COUNT, .PORT_NAKS_COUNT, .PORT_REPLAYS_COUNT, .PORT_RETRAINS_COUNT, .PORT_OFFENCES_COUNT] : List Fld), t.blk.get f port = 0) ∧
    t.blk.portState port = (if s.blk.portState port = pFenced then pFenced
      else if s.blk.modeOk port (s.blk.portMode port) && s.blk.on .PORT_CFG_ENABLE port then pDetect else pOff) ∧
    t.blk.port port = Port.reset ∧ t.blk.mem = s.blk.mem ∧ (∀ n, n ≠ port → t.blk.portState n = s.blk.portState n ∧ t.blk.port n = s.blk.port n)) ∧
  (∀ (s : State) (port : Nat), port < 8 → (s.blk.portState port = pActive ∨ s.blk.portState port = pRetrain) → 
    s.blk.inReset = false → ∃ t, exec (.mbaryPortReset (2 ^ port)) s = .next t ∧ (∀ f ∈ ([.PORT_STATUS_PROBATION, .PORT_STATUS_FENCE_PENDING, .PORT_STATUS_WIRING_BAD, .PORT_STATUS_PARTNER_PKG, .PORT_STATUS_PARTNER_PORT, .PORT_STATUS_JOIN_EPOCH, .PORT_CORR_COUNT, .PORT_NAKS_COUNT, .PORT_REPLAYS_COUNT, .PORT_RETRAINS_COUNT, .PORT_OFFENCES_COUNT] : List Fld), t.blk.get f port = 0)) ∧
  (∀ (s : State) (mask : Nat), mask % 256 = 0 → 
    s.blk.inReset = false → ∃ t, exec (.mbaryPortReset mask) s = .next t ∧ t = s) ∧
  (∀ (s : State) (port : Nat), port < 4 → 
    s.blk.inReset = false → ∃ t, exec (.ethPortReset (2 ^ port)) s = .next t ∧ (∀ f ∈ ([.ETH_STATUS_LINK, .ETH_STATUS_FEC_LOCK, .LAST_DROP_REASON, .LAST_DROP_TYPE, .LAST_DROP_SEQ] : List Fld), t.blk.get f port = 0) ∧
    (∀ k < 9, t.blk.get .ETH_COUNT_COUNT (port * 9 + k) = 0) ∧ t.blk.mem = s.blk.mem ∧ t.blk.svc = s.blk.svc ∧
    (∀ f i, f.eventOwn = false → ¬(f ∈ ([.ETH_STATUS_LINK, .ETH_STATUS_FEC_LOCK, .LAST_DROP_REASON, .LAST_DROP_TYPE, .LAST_DROP_SEQ] : List Fld) ∧ i = port) →
      ¬(f = .ETH_COUNT_COUNT ∧ i / 9 = port) → t.blk.get f i = s.blk.get f i)) ∧
  (∀ (s : State) (mask : Nat), mask % 16 = 0 → 
    s.blk.inReset = false → ∃ t, exec (.ethPortReset mask) s = .next t ∧ t = s)

/-- READ_REQ, WRITE_REQ, WRITE_MASKED, XLATE, READ_RSP, WRITE_RSP, XLATE_RSP and REQ_TIMEOUT. A request that is well formed
and addressed here is taken and served; one malformed is an offence, one to a package outside the cluster or, from a
HOST partner, to another package is answered with BAD_DEST; on a TORUS port one for another package goes on by its
route. A response ends the request it answers; one that answers none is late, and counted, when its request timed out,
and otherwise an offence that puts the port on probation. A request unanswered for REQ_TIMEOUT after it was sent ends
with FAULT_FABRIC. (R476, R477, R478, R479, R487, R488, R500) -/
def Obligations.FabricRequestsAndResponses : Prop :=
  (∀ (s : State) (port : Nat) (msg : Msg) (strikes : List Strike), msg.dest = s.blk.pkg → s.blk.pkg < s.blk.clusterSize → msgShapeOk { mtype := 1, m := msg } = true → 
    s.blk.inReset = false → ∃ t, exec (.readReq port msg strikes) s = .next t ∧ t.blk = (s.blk.strike strikes).takeReq { port := port, pool := 2, flits := 0, msg := { mtype := 1, m := msg }, waited := false, paid := 0, seq := 0 }) ∧
  (∀ (s : State) (port : Nat) (msg : Msg) (strikes : List Strike), msg.dest = s.blk.pkg → s.blk.pkg < s.blk.clusterSize → msgShapeOk { mtype := 2, m := msg } = true → 
    s.blk.inReset = false → ∃ t, exec (.writeReq port msg strikes) s = .next t ∧ t.blk = (s.blk.strike strikes).takeReq { port := port, pool := 2, flits := 0, msg := { mtype := 2, m := msg }, waited := false, paid := 0, seq := 0 }) ∧
  (∀ (s : State) (port : Nat) (msg : Msg) (strikes : List Strike), msg.dest = s.blk.pkg → s.blk.pkg < s.blk.clusterSize → msgShapeOk { mtype := 3, m := msg } = true → 
    s.blk.inReset = false → ∃ t, exec (.writeMasked port msg strikes) s = .next t ∧ t.blk = (s.blk.strike strikes).takeReq { port := port, pool := 2, flits := 0, msg := { mtype := 3, m := msg }, waited := false, paid := 0, seq := 0 }) ∧
  (∀ (s : State) (port : Nat) (msg : Msg), msg.dest = s.blk.pkg → s.blk.pkg < s.blk.clusterSize → msgShapeOk { mtype := 5, m := msg } = true → 
    s.blk.inReset = false → ∃ t, exec (.xlate port msg) s = .next t ∧ t.blk = s.blk.takeReq { port := port, pool := 2, flits := 0, msg := { mtype := 5, m := msg }, waited := false, paid := 0, seq := 0 }) ∧
  (∀ (s : State) (port ty : Nat) (msg : Msg) (c : Instr) (b : Block), ((∃ l, c = .readReq port msg l ∧ b = s.blk.strike l ∧ ty = 1) ∨ (∃ l, c = .writeReq port msg l ∧ b = s.blk.strike l ∧ ty = 2) ∨ (∃ l, c = .writeMasked port msg l ∧ b = s.blk.strike l ∧ ty = 3) ∨ (c = .xlate port msg ∧ b = s.blk ∧ ty = 5)) → msgShapeOk { mtype := ty, m := msg } = false → 
    s.blk.inReset = false → ∃ t, exec c s = .next t ∧ t.blk = (b.freeFlits port 2 0).offence port 0xA3 3 msg.part none ∧ t.blk.on .PORT_STATUS_PROBATION port = true) ∧
  (∀ (s : State) (port ty : Nat) (msg : Msg) (c : Instr) (b : Block), ((∃ l, c = .readReq port msg l ∧ b = s.blk.strike l ∧ ty = 1) ∨ (∃ l, c = .writeReq port msg l ∧ b = s.blk.strike l ∧ ty = 2) ∨ (∃ l, c = .writeMasked port msg l ∧ b = s.blk.strike l ∧ ty = 3) ∨ (c = .xlate port msg ∧ b = s.blk ∧ ty = 5)) → msgShapeOk { mtype := ty, m := msg } = true → (b.clusterSize ≤ msg.dest ∨ (b.portMode port = mdHost ∧ msg.dest ≠ b.pkg)) → 
    s.blk.inReset = false → ∃ t, exec c s = .next t ∧ t.blk = ((b.freeFlits port 2 0).offence port 0xA5 1 msg.part none).answer port (response b.pkg { mtype := ty, m := msg } stAddr 0x99 0 [])) ∧
  (∀ (s : State) (port ty : Nat) (msg : Msg) (c : Instr) (b : Block), ((∃ l, c = .readReq port msg l ∧ b = s.blk.strike l ∧ ty = 1) ∨ (∃ l, c = .writeReq port msg l ∧ b = s.blk.strike l ∧ ty = 2) ∨ (∃ l, c = .writeMasked port msg l ∧ b = s.blk.strike l ∧ ty = 3) ∨ (c = .xlate port msg ∧ b = s.blk ∧ ty = 5)) → msgShapeOk { mtype := ty, m := msg } = true → msg.dest < b.clusterSize → msg.dest ≠ b.pkg → b.portMode port = mdTorus → 
    s.blk.inReset = false → ∃ t, exec c s = .next t ∧ t.blk = (b.freeFlits port 2 0).transit port 0 { mtype := ty, m := msg }) ∧
  (∀ (s : State) (port : Nat) (msg : Msg) (q : OutReq), msg.dest = s.blk.pkg → s.blk.pkg < s.blk.clusterSize → msgShapeOk { mtype := 17, m := msg } = true → (s.blk.fab.reqs.find? fun (q : OutReq) => q.tag == msg.rtag && rspType q.ty == 17 && q.dest == msg.src) = some q → 
    s.blk.inReset = false → ∃ t, exec (.readRsp port msg) s = .next t ∧ t.blk = (s.blk.freeFlits port 0 0).endReq q msg.status msg.cause msg.aux msg.data) ∧
  (∀ (s : State) (port : Nat) (msg : Msg) (q : OutReq), msg.dest = s.blk.pkg → s.blk.pkg < s.blk.clusterSize → msgShapeOk { mtype := 18, m := msg } = true → (s.blk.fab.reqs.find? fun (q : OutReq) => q.tag == msg.rtag && rspType q.ty == 18 && q.dest == msg.src) = some q → 
    s.blk.inReset = false → ∃ t, exec (.writeRsp port msg) s = .next t ∧ t.blk = (s.blk.freeFlits port 0 0).endReq q msg.status msg.cause msg.aux msg.data) ∧
  (∀ (s : State) (port : Nat) (msg : Msg) (q : OutReq), msg.dest = s.blk.pkg → s.blk.pkg < s.blk.clusterSize → msgShapeOk { mtype := 21, m := msg } = true → (s.blk.fab.reqs.find? fun (q : OutReq) => q.tag == msg.rtag && rspType q.ty == 21 && q.dest == msg.src) = some q → 
    s.blk.inReset = false → ∃ t, exec (.xlateRsp port msg) s = .next t ∧ t.blk = (s.blk.freeFlits port 0 0).endReq q msg.status msg.cause msg.aux msg.data) ∧
  (∀ (s : State) (port ty : Nat) (msg : Msg) (c : Instr), ((c = .readRsp port msg ∧ ty = 0x11) ∨ (c = .writeRsp port msg ∧ ty = 0x12) ∨ (c = .xlateRsp port msg ∧ ty = 0x15)) → msg.dest = s.blk.pkg → s.blk.pkg < s.blk.clusterSize → msgShapeOk { mtype := ty, m := msg } = true → (s.blk.fab.reqs.find? fun (q : OutReq) => q.tag == msg.rtag && rspType q.ty == ty && q.dest == msg.src) = none → msg.rtag ∈ s.blk.fab.late → 
    s.blk.inReset = false → ∃ t, exec c s = .next t ∧ t.blk.get .LATE_RSP_COUNT = (s.blk.get .LATE_RSP_COUNT + 1) % 2 ^ Fld.LATE_RSP_COUNT.desc.width ∧ msg.rtag ∉ t.blk.fab.late ∧ t.blk.fab.reqs = s.blk.fab.reqs ∧
    t.blk.mem = s.blk.mem ∧ ∀ f i, f ≠ .LATE_RSP_COUNT → t.blk.get f i = s.blk.get f i) ∧
  (∀ (s : State) (port ty : Nat) (msg : Msg) (c : Instr), ((c = .readRsp port msg ∧ ty = 0x11) ∨ (c = .writeRsp port msg ∧ ty = 0x12) ∨ (c = .xlateRsp port msg ∧ ty = 0x15)) → msg.dest = s.blk.pkg → s.blk.pkg < s.blk.clusterSize → msgShapeOk { mtype := ty, m := msg } = true → (s.blk.fab.reqs.find? fun (q : OutReq) => q.tag == msg.rtag && rspType q.ty == ty && q.dest == msg.src) = none → msg.rtag ∉ s.blk.fab.late → 
    s.blk.inReset = false → ∃ t, exec c s = .next t ∧ t.blk.get .PORT_OFFENCES_COUNT port = (s.blk.get .PORT_OFFENCES_COUNT port + 1) % 2 ^ Fld.PORT_OFFENCES_COUNT.desc.width ∧ t.blk.on .PORT_STATUS_PROBATION port = true ∧ t.blk.fab.reqs = s.blk.fab.reqs ∧ t.blk.mem = s.blk.mem) ∧
  (∀ (s : State) (tag : Nat) (q : OutReq), (s.blk.fab.reqs.find? fun (q : OutReq) => q.tag == tag) = some q → s.blk.get .FAB_CTRL_REQ_TIMEOUT ≤ s.blk.ticksFrom q.sentAt → (∀ f ∈ s.blk.fab.parked, f.m.rtag ≠ tag) → 
    s.blk.inReset = false → ∃ t, exec (.reqTimeout tag) s = .next t ∧ t.blk = ({ s.blk with fab := { s.blk.fab with late := s.blk.fab.late ++ [tag] } } : Block).endReq q stFabric 0x90 0 []) ∧
  (∀ (s : State) (tag : Nat), (∀ q ∈ s.blk.fab.reqs, q.tag = tag → s.blk.ticksFrom q.sentAt < s.blk.get .FAB_CTRL_REQ_TIMEOUT ∨ ∃ f ∈ s.blk.fab.parked, f.m.rtag = tag) → 
    s.blk.inReset = false → ∃ t, exec (.reqTimeout tag) s = .next t ∧ t = s)

/-- HOLD, RESUME, NOTICE, LINK_CHANGE, JOIN_AT, HOLD_START, HOLD_END, HOLD_ENTRY_LAPSE and ROUTING_EPOCH_BOUNDARY. A new
flooded message is noted by its origin and FLOOD_ID and acted on: a HOLD enters its origin's count, and a count already
past puts the hold in force; a RESUME marks the entry; a NOTICE of a group member is recorded; a LINK_CHANGE of a TORUS
port sets or clears its link in the shadow table. One already seen changes nothing; a malformed one is an offence.
JOIN_AT agrees on the later epoch once. A hold starts when an entry's count comes, ends when every entry has had its
RESUME count, and an entry not refreshed lapses at an epoch boundary. At a boundary the table is copied and the ports
join, are fenced or leave probation; nothing happens elsewhere. (R490, R491, R493, R495, R496, R498, R499, R524, R526,
R528, R529) -/
def Obligations.FloodsHoldsAndEpochs : Prop :=
  (∀ (s : State) (port : Nat) (msg : Msg), s.blk.vc3Bad { mtype := 0x32, m := msg } = false → s.blk.floodNew msg = true → 
    s.blk.inReset = false → ∃ t, exec (.holdMsg port msg) s = .next t ∧ Tab.find t.blk.fab.seen (bits msg.addr 0 10) = some (bits msg.addr 16 16) ∧
    t.blk.fab.holds = s.blk.fab.holds.filter (fun (x : HoldEntry) => x.origin ≠ bits msg.addr 0 10) ++ [{ origin := bits msg.addr 0 10, hold := msg.aux, resume := none, at_ := s.blk.gmc }] ∧
    t.blk.on .FAB_HOLD_HOLD = (s.blk.on .FAB_HOLD_HOLD || decide (msg.aux ≤ s.blk.gmc)) ∧ t.blk.mem = s.blk.mem) ∧
  (∀ (s : State) (port : Nat) (msg : Msg), s.blk.vc3Bad { mtype := 0x33, m := msg } = false → s.blk.floodNew msg = true → 
    s.blk.inReset = false → ∃ t, exec (.resumeMsg port msg) s = .next t ∧ Tab.find t.blk.fab.seen (bits msg.addr 0 10) = some (bits msg.addr 16 16) ∧
    t.blk.fab.holds = s.blk.fab.holds.map (fun (h : HoldEntry) => if h.origin = bits msg.addr 0 10 then { h with resume := some msg.aux } else h) ∧
    t.blk.regs = s.blk.regs ∧ t.blk.mem = s.blk.mem) ∧
  (∀ (s : State) (port : Nat) (msg : Msg), s.blk.vc3Bad { mtype := 0x34, m := msg } = false → s.blk.floodNew msg = true → s.blk.sharesGroup (bits msg.addr 0 10) = true → 
    s.blk.inReset = false → ∃ t, exec (.noticeMsg port msg) s = .next t ∧ Tab.find t.blk.fab.seen (bits msg.addr 0 10) = some (bits msg.addr 16 16) ∧
    t.blk.get .NOTICE_LAST_ORIGIN = bits msg.addr 0 10 ∧ t.blk.get .NOTICE_LAST_CAUSE = bits msg.aux 0 8 ∧
    t.blk.get .NOTICE_LAST_COUNT = (s.blk.get .NOTICE_LAST_COUNT + 1) % 2 ^ 32 ∧ t.blk.mem = s.blk.mem) ∧
  (∀ (s : State) (port : Nat) (msg : Msg), s.blk.vc3Bad { mtype := 0x34, m := msg } = false → s.blk.floodNew msg = true → s.blk.sharesGroup (bits msg.addr 0 10) = false → 
    s.blk.inReset = false → ∃ t, exec (.noticeMsg port msg) s = .next t ∧ Tab.find t.blk.fab.seen (bits msg.addr 0 10) = some (bits msg.addr 16 16) ∧
    t.blk.regs = s.blk.regs ∧ t.blk.mem = s.blk.mem) ∧
  (∀ (s : State) (port i : Nat) (msg : Msg), s.blk.vc3Bad { mtype := 0x35, m := msg } = false → s.blk.floodNew msg = true → bits msg.aux 0 3 < 6 → i = s.blk.portLink (bits msg.addr 0 10) (bits msg.aux 0 3) → i < 3072 → 
    s.blk.inReset = false → ∃ t, exec (.linkChange port msg) s = .next t ∧ Tab.find t.blk.fab.seen (bits msg.addr 0 10) = some (bits msg.addr 16 16) ∧
    t.blk.bit .LINK_DOWN_SHADOW_BITMAP 0 i = msg.aux.testBit 8 ∧ (i, msg.aux.testBit 8, msg.aux / 2 ^ 16) ∈ t.blk.fab.changes ∧
    t.blk.mem = s.blk.mem ∧ ∀ f j, f ≠ .LINK_DOWN_SHADOW_BITMAP → t.blk.get f j = s.blk.get f j) ∧
  (∀ (s : State) (port : Nat) (msg : Msg), s.blk.vc3Bad { mtype := 0x35, m := msg } = false → s.blk.floodNew msg = true → 6 ≤ bits msg.aux 0 3 → 
    s.blk.inReset = false → ∃ t, exec (.linkChange port msg) s = .next t ∧ Tab.find t.blk.fab.seen (bits msg.addr 0 10) = some (bits msg.addr 16 16) ∧
    t.blk.regs = s.blk.regs ∧ t.blk.fab.changes = s.blk.fab.changes ∧ t.blk.mem = s.blk.mem) ∧
  (∀ (s : State) (port ty : Nat) (msg : Msg) (c : Instr), ((c = .holdMsg port msg ∧ ty = 0x32) ∨ (c = .resumeMsg port msg ∧ ty = 0x33) ∨ (c = .noticeMsg port msg ∧ ty = 0x34) ∨ (c = .linkChange port msg ∧ ty = 0x35)) → s.blk.vc3Bad { mtype := ty, m := msg } = false → s.blk.floodNew msg = false → 
    s.blk.inReset = false → ∃ t, exec c s = .next t ∧ t = s) ∧
  (∀ (s : State) (port ty : Nat) (msg : Msg) (c : Instr), (((c = .holdMsg port msg ∧ ty = 0x32) ∨ (c = .resumeMsg port msg ∧ ty = 0x33) ∨ (c = .noticeMsg port msg ∧ ty = 0x34) ∨ (c = .linkChange port msg ∧ ty = 0x35)) ∨ (c = .joinAt port msg ∧ ty = 0x36)) → s.blk.vc3Bad { mtype := ty, m := msg } = true → 
    s.blk.inReset = false → ∃ t, exec c s = .next t ∧ t.blk = s.blk.offence port 0xA7 3 msg.part none ∧ t.blk.on .PORT_STATUS_PROBATION port = true ∧ t.blk.fab.holds = s.blk.fab.holds) ∧
  (∀ (s : State) (port e : Nat) (msg : Msg), msg.addr ≤ 7 → (s.blk.port port).joinAt = some e → s.blk.portState port = pStandby → (s.blk.port port).agreed = false → 
    s.blk.inReset = false → ∃ t, exec (.joinAt port msg) s = .next t ∧ t.blk.get .PORT_STATUS_JOIN_EPOCH port = max e msg.aux % 2 ^ 32 ∧ (t.blk.port port).joinAt = some (max e msg.aux) ∧ (t.blk.port port).agreed = true ∧
    t.blk.portState port = pStandby ∧ t.blk.mem = s.blk.mem) ∧
  (∀ (s : State) (port : Nat) (msg : Msg), msg.addr ≤ 7 → ((s.blk.port port).joinAt = none ∨ s.blk.portState port ≠ pStandby ∨ (s.blk.port port).agreed = true) → 
    s.blk.inReset = false → ∃ t, exec (.joinAt port msg) s = .next t ∧ t = s) ∧
  (∀ (s : State), (∃ h ∈ s.blk.fab.holds, h.hold ≤ s.blk.gmc) → 
    s.blk.inReset = false → ∃ t, exec .holdStart s = .next t ∧ t.blk.on .FAB_HOLD_HOLD = true ∧ t.blk.fab = { s.blk.fab with holdFrom := t.blk.fab.holdFrom } ∧ t.blk.mem = s.blk.mem ∧
    ∀ f i, f ≠ .FAB_HOLD_HOLD → f.eventOwn = false → t.blk.get f i = s.blk.get f i) ∧
  (∀ (s : State), (∀ h ∈ s.blk.fab.holds, s.blk.gmc < h.hold) → 
    s.blk.inReset = false → ∃ t, exec .holdStart s = .next t ∧ t = s) ∧
  (∀ (s : State), s.blk.fab.holds ≠ [] → (∀ h ∈ s.blk.fab.holds, ∃ c, h.resume = some c ∧ c ≤ s.blk.gmc) → 
    s.blk.inReset = false → ∃ t, exec .holdEnd s = .next t ∧ t.blk = s.blk.endHold) ∧
  (∀ (s : State), s.blk.fab.holds ≠ [] → (∀ h ∈ s.blk.fab.holds, ∃ c, h.resume = some c ∧ c ≤ s.blk.gmc) → s.blk.fab.colls = [] → s.blk.gov.fabricHold = false → 
    s.blk.inReset = false → ∃ t, exec .holdEnd s = .next t ∧ t.blk.on .FAB_HOLD_HOLD = false ∧ t.blk.fab = { s.blk.fab with holds := [] } ∧ t.blk.mem = s.blk.mem ∧
    ∀ f i, f ≠ .FAB_HOLD_HOLD → f.eventOwn = false → t.blk.get f i = s.blk.get f i) ∧
  (∀ (s : State), (s.blk.fab.holds = [] ∨ ∃ h ∈ s.blk.fab.holds, ∀ c, h.resume = some c → s.blk.gmc < c) → 
    s.blk.inReset = false → ∃ t, exec .holdEnd s = .next t ∧ t = s) ∧
  (∀ (s : State) (origin : Nat) (h : HoldEntry), (s.blk.fab.holds.find? fun (h : HoldEntry) => h.origin = origin) = some h → s.blk.gmc % 2 ^ 20 = 0 → h.at_ + 50000000 ≤ s.blk.gmc → s.blk.fab.holds.filter (· ≠ h) ≠ [] → 
    s.blk.inReset = false → ∃ t, exec (.holdEntryLapse origin) s = .next t ∧ t.blk.fab = { s.blk.fab with holds := s.blk.fab.holds.filter (· ≠ h) } ∧ t.blk.mem = s.blk.mem ∧
    ∀ f i, f.eventOwn = false → t.blk.get f i = s.blk.get f i) ∧
  (∀ (s : State) (origin : Nat) (h : HoldEntry), (s.blk.fab.holds.find? fun (h : HoldEntry) => h.origin = origin) = some h → s.blk.gmc % 2 ^ 20 = 0 → h.at_ + 50000000 ≤ s.blk.gmc → s.blk.fab.holds.filter (· ≠ h) = [] → 
    s.blk.inReset = false → ∃ t, exec (.holdEntryLapse origin) s = .next t ∧ t.blk = s.blk.endHold true) ∧
  (∀ (s : State) (origin : Nat), (s.blk.gmc % 2 ^ 20 ≠ 0 ∨ ∀ h ∈ s.blk.fab.holds, h.origin = origin → s.blk.gmc < h.at_ + 50000000) → 
    s.blk.inReset = false → ∃ t, exec (.holdEntryLapse origin) s = .next t ∧ t = s) ∧
  (∀ (s : State), s.blk.gmc % 2 ^ 20 = 0 → 
    s.blk.inReset = false → ∃ t, exec .routingEpochBoundary s = .next t ∧ t.blk = ((((List.range 8).foldl (fun b n => b.portEpoch n) (Block.startDrains s.blk s.blk.copyTable)).gmcTopology).chooseParent).serve) ∧
  (∀ (s : State), s.blk.gmc % 2 ^ 20 ≠ 0 → 
    s.blk.inReset = false → ∃ t, exec .routingEpochBoundary s = .next t ∧ t = s)

/-- ALL_REDUCE, REDUCE_SCATTER, ALL_GATHER, BROADCAST and BARRIER: a COLLECTIVE starts. The collective the arbitration picks
starts: with bad arguments it ends with BAD_COLL, in a group that is disabled or not its partition's with its violation,
and with the cause of an abort that came for its SEQ before it was submitted. Otherwise, when every neighbour in the
group's tree can be reached, its operation enters with nothing done and goes on as far as it can, and when one cannot it
ends with ROUTE_FENCED. A job that is not the one picked does not start. (R504, R505, R508, R509, R511, R523, R302) -/
def Obligations.CollectivesStart : Prop :=
  (∀ (s : State) (id : Nat) (j : Job) (b : Block), s.blk.collStart 1 id = some (j, b) → collBad j.desc (b.members (coGroup j.desc)).length = false → b.on .GRP_CFG_EN (coGroup j.desc) = true → b.get .GRP_CFG_PART (coGroup j.desc) = j.part → (b.fab.aborts.find? fun (a : Nat × Nat × Nat) => a.1 = coGroup j.desc ∧ a.2.1 = coSeq j.desc) = none → (∀ x ∈ (if b.myRank (coGroup j.desc) = 0 then [] else [treeParent (b.fanout (coGroup j.desc)) (b.myRank (coGroup j.desc))]) ++ treeChildren (b.fanout (coGroup j.desc)) (b.members (coGroup j.desc)).length (b.myRank (coGroup j.desc)), (b.injectAt ((b.members (coGroup j.desc)).getD x 0)).isSome = true) → 
    s.blk.inReset = false → ∃ t, exec (.allReduce id) s = .next t ∧ t.blk = ({ b with fab := { b.fab with colls := b.fab.colls ++ [({ group := coGroup j.desc, job := j.id, seq := coSeq j.desc, chunk := 0, down := 0, got := 0, acc := [], child := 0, unacked := [], toSend := [], since := b.gmc } : CollOp)] } } : Block).collStep (coGroup j.desc)) ∧
  (∀ (s : State) (id : Nat) (j : Job) (b : Block), s.blk.collStart 2 id = some (j, b) → collBad j.desc (b.members (coGroup j.desc)).length = false → b.on .GRP_CFG_EN (coGroup j.desc) = true → b.get .GRP_CFG_PART (coGroup j.desc) = j.part → (b.fab.aborts.find? fun (a : Nat × Nat × Nat) => a.1 = coGroup j.desc ∧ a.2.1 = coSeq j.desc) = none → (∀ x ∈ (if b.myRank (coGroup j.desc) = 0 then [] else [treeParent (b.fanout (coGroup j.desc)) (b.myRank (coGroup j.desc))]) ++ treeChildren (b.fanout (coGroup j.desc)) (b.members (coGroup j.desc)).length (b.myRank (coGroup j.desc)), (b.injectAt ((b.members (coGroup j.desc)).getD x 0)).isSome = true) → 
    s.blk.inReset = false → ∃ t, exec (.reduceScatter id) s = .next t ∧ t.blk = ({ b with fab := { b.fab with colls := b.fab.colls ++ [({ group := coGroup j.desc, job := j.id, seq := coSeq j.desc, chunk := 0, down := 0, got := 0, acc := [], child := 0, unacked := [], toSend := [], since := b.gmc } : CollOp)] } } : Block).collStep (coGroup j.desc)) ∧
  (∀ (s : State) (id : Nat) (j : Job) (b : Block), s.blk.collStart 3 id = some (j, b) → collBad j.desc (b.members (coGroup j.desc)).length = false → b.on .GRP_CFG_EN (coGroup j.desc) = true → b.get .GRP_CFG_PART (coGroup j.desc) = j.part → (b.fab.aborts.find? fun (a : Nat × Nat × Nat) => a.1 = coGroup j.desc ∧ a.2.1 = coSeq j.desc) = none → (∀ x ∈ (if b.myRank (coGroup j.desc) = 0 then [] else [treeParent (b.fanout (coGroup j.desc)) (b.myRank (coGroup j.desc))]) ++ treeChildren (b.fanout (coGroup j.desc)) (b.members (coGroup j.desc)).length (b.myRank (coGroup j.desc)), (b.injectAt ((b.members (coGroup j.desc)).getD x 0)).isSome = true) → 
    s.blk.inReset = false → ∃ t, exec (.allGather id) s = .next t ∧ t.blk = ({ b with fab := { b.fab with colls := b.fab.colls ++ [({ group := coGroup j.desc, job := j.id, seq := coSeq j.desc, chunk := 0, down := 0, got := 0, acc := [], child := 0, unacked := [], toSend := [], since := b.gmc } : CollOp)] } } : Block).collStep (coGroup j.desc)) ∧
  (∀ (s : State) (id : Nat) (j : Job) (b : Block), s.blk.collStart 4 id = some (j, b) → collBad j.desc (b.members (coGroup j.desc)).length = false → b.on .GRP_CFG_EN (coGroup j.desc) = true → b.get .GRP_CFG_PART (coGroup j.desc) = j.part → (b.fab.aborts.find? fun (a : Nat × Nat × Nat) => a.1 = coGroup j.desc ∧ a.2.1 = coSeq j.desc) = none → (∀ x ∈ (if b.myRank (coGroup j.desc) = 0 then [] else [treeParent (b.fanout (coGroup j.desc)) (b.myRank (coGroup j.desc))]) ++ treeChildren (b.fanout (coGroup j.desc)) (b.members (coGroup j.desc)).length (b.myRank (coGroup j.desc)), (b.injectAt ((b.members (coGroup j.desc)).getD x 0)).isSome = true) → 
    s.blk.inReset = false → ∃ t, exec (.broadcast id) s = .next t ∧ t.blk = ({ b with fab := { b.fab with colls := b.fab.colls ++ [({ group := coGroup j.desc, job := j.id, seq := coSeq j.desc, chunk := 0, down := 0, got := 0, acc := [], child := 0, unacked := [], toSend := [], since := b.gmc } : CollOp)] } } : Block).collStep (coGroup j.desc)) ∧
  (∀ (s : State) (id : Nat) (j : Job) (b : Block), s.blk.collStart 5 id = some (j, b) → collBad j.desc (b.members (coGroup j.desc)).length = false → b.on .GRP_CFG_EN (coGroup j.desc) = true → b.get .GRP_CFG_PART (coGroup j.desc) = j.part → (b.fab.aborts.find? fun (a : Nat × Nat × Nat) => a.1 = coGroup j.desc ∧ a.2.1 = coSeq j.desc) = none → (∀ x ∈ (if b.myRank (coGroup j.desc) = 0 then [] else [treeParent (b.fanout (coGroup j.desc)) (b.myRank (coGroup j.desc))]) ++ treeChildren (b.fanout (coGroup j.desc)) (b.members (coGroup j.desc)).length (b.myRank (coGroup j.desc)), (b.injectAt ((b.members (coGroup j.desc)).getD x 0)).isSome = true) → 
    s.blk.inReset = false → ∃ t, exec (.barrier id) s = .next t ∧ t.blk = ({ b with fab := { b.fab with colls := b.fab.colls ++ [({ group := coGroup j.desc, job := j.id, seq := coSeq j.desc, chunk := 0, down := 0, got := 0, acc := [], child := 0, unacked := [], toSend := [], since := b.gmc } : CollOp)] } } : Block).collStep (coGroup j.desc)) ∧
  (∀ (s : State) (id kind : Nat) (c : Instr) (j : Job) (b : Block), ((c = .allReduce id ∧ kind = 1) ∨ (c = .reduceScatter id ∧ kind = 2) ∨ (c = .allGather id ∧ kind = 3) ∨ (c = .broadcast id ∧ kind = 4) ∨ (c = .barrier id ∧ kind = 5)) → s.blk.collStart kind id = some (j, b) → collBad j.desc (b.members (coGroup j.desc)).length = true → 
    s.blk.inReset = false → ∃ t, exec c s = .next t ∧ t.blk = b.violateJob j 0x9A) ∧
  (∀ (s : State) (id kind : Nat) (c : Instr) (j : Job) (b : Block), ((c = .allReduce id ∧ kind = 1) ∨ (c = .reduceScatter id ∧ kind = 2) ∨ (c = .allGather id ∧ kind = 3) ∨ (c = .broadcast id ∧ kind = 4) ∨ (c = .barrier id ∧ kind = 5)) → s.blk.collStart kind id = some (j, b) → collBad j.desc (b.members (coGroup j.desc)).length = false → (b.on .GRP_CFG_EN (coGroup j.desc) = false ∨ b.get .GRP_CFG_PART (coGroup j.desc) ≠ j.part) → 
    s.blk.inReset = false → ∃ t, exec c s = .next t ∧ t.blk = b.violateJob j 0x9B) ∧
  (∀ (s : State) (id kind : Nat) (c : Instr) (j : Job) (b : Block) (a : Nat × Nat × Nat), ((c = .allReduce id ∧ kind = 1) ∨ (c = .reduceScatter id ∧ kind = 2) ∨ (c = .allGather id ∧ kind = 3) ∨ (c = .broadcast id ∧ kind = 4) ∨ (c = .barrier id ∧ kind = 5)) → s.blk.collStart kind id = some (j, b) → collBad j.desc (b.members (coGroup j.desc)).length = false → b.on .GRP_CFG_EN (coGroup j.desc) = true → b.get .GRP_CFG_PART (coGroup j.desc) = j.part → (b.fab.aborts.find? fun (a : Nat × Nat × Nat) => a.1 = coGroup j.desc ∧ a.2.1 = coSeq j.desc) = some a → 
    s.blk.inReset = false → ∃ t, exec c s = .next t ∧ t.blk = ({ b with fab := { b.fab with aborts := b.fab.aborts.filter (· ≠ a), nextSeq := Tab.put b.fab.nextSeq (coGroup j.desc) ((coSeq j.desc + 1) % 2 ^ 32) } } : Block).endJob j stFabric a.2.2 0) ∧
  (∀ (s : State) (id kind : Nat) (c : Instr) (j : Job) (b : Block), ((c = .allReduce id ∧ kind = 1) ∨ (c = .reduceScatter id ∧ kind = 2) ∨ (c = .allGather id ∧ kind = 3) ∨ (c = .broadcast id ∧ kind = 4) ∨ (c = .barrier id ∧ kind = 5)) → s.blk.collStart kind id = some (j, b) → collBad j.desc (b.members (coGroup j.desc)).length = false → b.on .GRP_CFG_EN (coGroup j.desc) = true → b.get .GRP_CFG_PART (coGroup j.desc) = j.part → (b.fab.aborts.find? fun (a : Nat × Nat × Nat) => a.1 = coGroup j.desc ∧ a.2.1 = coSeq j.desc) = none → (∃ x ∈ (if b.myRank (coGroup j.desc) = 0 then [] else [treeParent (b.fanout (coGroup j.desc)) (b.myRank (coGroup j.desc))]) ++ treeChildren (b.fanout (coGroup j.desc)) (b.members (coGroup j.desc)).length (b.myRank (coGroup j.desc)), (b.injectAt ((b.members (coGroup j.desc)).getD x 0)).isSome = false) → 
    s.blk.inReset = false → ∃ t, exec c s = .next t ∧ t.blk = b.conclude j stFenced 0x98 0) ∧
  (∀ (s : State) (id kind : Nat) (c : Instr), ((c = .allReduce id ∧ kind = 1) ∨ (c = .reduceScatter id ∧ kind = 2) ∨ (c = .allGather id ∧ kind = 3) ∨ (c = .broadcast id ∧ kind = 4) ∨ (c = .barrier id ∧ kind = 5)) → s.blk.collStart kind id = none → 
    s.blk.inReset = false → ∃ t, exec c s = .next t ∧ t = s)

/-- COLL_UP, COLL_DOWN, COLL_ABORT, COLL_ACK and COLL_TIMEOUT. A chunk from a member below waits in its group's buffer and
the operation goes on; one from above for the running operation is kept to be stored, acknowledged and passed on; an
acknowledgement makes room for a chunk, and one that matches nothing is an offence. An abort ends the operation with its
cause, or is kept for a SEQ still to be submitted. An operation that waits for another member and has done so longer
than COLL_TIMEOUT, no hold being in force, ends with FAULT_FABRIC; until then nothing changes. (R512, R514, R518, R519,
R520, R521, R523, R500) -/
def Obligations.CollectiveMessages : Prop :=
  (∀ (s : State) (port r : Nat) (msg : Msg), msg.dest = s.blk.pkg → s.blk.pkg < s.blk.clusterSize → msgShapeOk { mtype := 0x21, m := msg } = true → s.blk.rankOf (msgGroup msg) msg.src = some r → 
    s.blk.inReset = false → ∃ t, exec (.collUp port msg) s = .next t ∧ t.blk = ({ s.blk.freeFlits port 4 0 with fab := { (s.blk.freeFlits port 4 0).fab with collIn := s.blk.fab.collIn ++ [{ group := msgGroup msg, seq := msgSeq msg, rank := r, msg := { mtype := 0x21, m := msg } }] } } : Block).collStep (msgGroup msg)) ∧
  (∀ (s : State) (port : Nat) (msg : Msg) (o : CollOp), msg.dest = s.blk.pkg → s.blk.pkg < s.blk.clusterSize → msgShapeOk { mtype := 0x22, m := msg } = true → s.blk.coll (msgGroup msg) = some o → o.seq = msgSeq msg → 
    s.blk.inReset = false → ∃ t, exec (.collDown port msg) s = .next t ∧ t.blk = ({ s.blk.freeFlits port 4 0 with fab := { (s.blk.freeFlits port 4 0).fab with collDown := s.blk.fab.collDown ++ [msg] } } : Block).collStep (msgGroup msg)) ∧
  (∀ (s : State) (port : Nat) (msg : Msg), msg.dest = s.blk.pkg → s.blk.pkg < s.blk.clusterSize → msgShapeOk { mtype := 0x22, m := msg } = true → (∀ o, s.blk.coll (msgGroup msg) = some o → o.seq ≠ msgSeq msg) → 
    s.blk.inReset = false → ∃ t, exec (.collDown port msg) s = .next t ∧ t.blk = s.blk.freeFlits port 4 0) ∧
  (∀ (s : State) (port : Nat) (msg : Msg) (o : CollOp), msg.dest = s.blk.pkg → s.blk.pkg < s.blk.clusterSize → msgShapeOk { mtype := 0x23, m := msg } = true → s.blk.coll (msgGroup msg) = some o → o.seq = msgSeq msg → 
    s.blk.inReset = false → ∃ t, exec (.collAbort port msg) s = .next t ∧ t.blk = (s.blk.freeFlits port 4 0).failColl o stFabric (bits msg.aux 0 8) (s.blk.rankOf (msgGroup msg) msg.src)) ∧
  (∀ (s : State) (port : Nat) (msg : Msg), msg.dest = s.blk.pkg → s.blk.pkg < s.blk.clusterSize → msgShapeOk { mtype := 0x23, m := msg } = true → s.blk.coll (msgGroup msg) = none → (msgSeq msg + 2 ^ 32 - Tab.get s.blk.fab.nextSeq (msgGroup msg) 0) % 2 ^ 32 < 2 ^ 31 → (∀ a ∈ s.blk.fab.aborts, ¬(a.1 = msgGroup msg ∧ a.2.1 = msgSeq msg)) → 
    s.blk.inReset = false → ∃ t, exec (.collAbort port msg) s = .next t ∧ t.blk.fab.aborts = s.blk.fab.aborts ++ [(msgGroup msg, msgSeq msg, bits msg.aux 0 8)] ∧ t.blk.fab.colls = s.blk.fab.colls ∧ t.blk.regs = s.blk.regs ∧ t.blk.mem = s.blk.mem) ∧
  (∀ (s : State) (port r : Nat) (msg : Msg) (o : CollOp), msg.dest = s.blk.pkg → s.blk.pkg < s.blk.clusterSize → msgShapeOk { mtype := 0x24, m := msg } = true → s.blk.coll (msgGroup msg) = some o → s.blk.rankOf (msgGroup msg) msg.src = some r → o.seq = msgSeq msg → msgChunk msg ∈ Tab.get o.unacked r [] → 
    s.blk.inReset = false → ∃ t, exec (.collAck port msg) s = .next t ∧ t.blk = ((s.blk.freeFlits port 4 0).setColl { o with unacked := Tab.put o.unacked r ((Tab.get o.unacked r []).erase (msgChunk msg)), since := s.blk.gmc }).collStep (msgGroup msg)) ∧
  (∀ (s : State) (port : Nat) (msg : Msg), msg.dest = s.blk.pkg → s.blk.pkg < s.blk.clusterSize → msgShapeOk { mtype := 0x24, m := msg } = true → (s.blk.coll (msgGroup msg) = none ∨ s.blk.rankOf (msgGroup msg) msg.src = none) → 
    s.blk.inReset = false → ∃ t, exec (.collAck port msg) s = .next t ∧ t.blk.get .PORT_OFFENCES_COUNT port = (s.blk.get .PORT_OFFENCES_COUNT port + 1) % 2 ^ 32 ∧ t.blk.on .PORT_STATUS_PROBATION port = true ∧ t.blk.fab.colls = s.blk.fab.colls ∧ t.blk.mem = s.blk.mem) ∧
  (∀ (s : State) (port ty : Nat) (msg : Msg) (c : Instr), ((c = .collUp port msg ∧ ty = 0x21) ∨ (c = .collDown port msg ∧ ty = 0x22) ∨ (c = .collAbort port msg ∧ ty = 0x23) ∨ (c = .collAck port msg ∧ ty = 0x24)) → msgShapeOk { mtype := ty, m := msg } = false → 
    s.blk.inReset = false → ∃ t, exec c s = .next t ∧ t.blk = (s.blk.freeFlits port 4 0).offence port 0xA3 3 msg.part none ∧ t.blk.fab.colls = s.blk.fab.colls) ∧
  (∀ (s : State) (group : Nat) (o : CollOp) (j : Job), s.blk.coll group = some o → s.blk.job o.job = some j → s.blk.get .FAB_CTRL_COLL_TIMEOUT < s.blk.ticksFrom o.since → s.blk.held = false → s.blk.collWaits j o = true → 
    s.blk.inReset = false → ∃ t, exec (.collTimeout group) s = .next t ∧ t.blk = s.blk.failColl o stFabric 0x93 none) ∧
  (∀ (s : State) (group : Nat), (s.blk.held = true ∨ ∀ o, s.blk.coll group = some o → s.blk.ticksFrom o.since ≤ s.blk.get .FAB_CTRL_COLL_TIMEOUT ∨ ∀ j, s.blk.job o.job = some j → s.blk.collWaits j o = false) → 
    s.blk.inReset = false → ∃ t, exec (.collTimeout group) s = .next t ∧ t = s)

/-- SYNC, SYNC_SEND, GMC_HOLDOVER and COG_GO. A SYNC from a port that is not the parent only leaves its stamp. One from the
parent sets the depth, and one that completes an exchange sets GMC_THETA and GMC_DELAY, steps the count by theta rounded
to the nearest count when SYNCING and not yet stepped, and counts good exchanges in a row. SYNC_SEND numbers and keeps a
stamp for every port in STANDBY or ACTIVE. A LOCKED package that is no root and has used no exchange for 4 × 2^16 counts
enters HOLDOVER. Under stochastic rounding a task, whose job and stream registers start at zero, rounds element e of a
vector with base draw D by draw D + e of the Cog under its SEED, and element (i, j) of a write-out by draw D + 64i + j.
COG_GO gives the four words of the Cog function of the key, job, stream and index, and nothing else changes. (R536,
R541, R542, R543, R544, R547, R548, R556, R559, R612, R613) -/
def Obligations.MillCountAndCog : Prop :=
  (∀ (s : State) (port frac : Nat) (msg : Msg), s.blk.isRoot = false → s.blk.gs.rejoin = none → port ≠ s.blk.get .GMC_STATUS_PARENT → 
    s.blk.inReset = false → ∃ t, exec (.sync port msg frac) s = .next t ∧ t.blk.gs = { s.blk.gs with rx := Tab.put s.blk.gs.rx port (bits msg.rtag 0 12, s.blk.stamp frac) } ∧ t.blk.gmc = s.blk.gmc ∧ t.blk.regs = s.blk.regs ∧ t.blk.mem = s.blk.mem) ∧
  (∀ (s : State) (port frac : Nat) (msg : Msg), s.blk.isRoot = false → s.blk.gs.rejoin = none → port = s.blk.get .GMC_STATUS_PARENT → s.blk.exchange port msg (s.blk.stamp frac) = none → 
    s.blk.inReset = false → ∃ t, exec (.sync port msg frac) s = .next t ∧ t.blk.get .GMC_STATUS_DEPTH = min 63 (bits msg.rtag 26 6 + 1) ∧ t.blk.gmc = s.blk.gmc ∧ Tab.find t.blk.gs.rx port = some (bits msg.rtag 0 12, s.blk.stamp frac) ∧
    ∀ f i, f ≠ .GMC_STATUS_DEPTH → t.blk.get f i = s.blk.get f i) ∧
  (∀ (s : State) (port frac : Nat) (msg : Msg) (theta delay : Int), s.blk.isRoot = false → s.blk.gs.rejoin = none → port = s.blk.get .GMC_STATUS_PARENT → s.blk.exchange port msg (s.blk.stamp frac) = some (theta, delay) → 
    s.blk.inReset = false → ∃ t, exec (.sync port msg frac) s = .next t ∧ t.blk.get .GMC_THETA_THETA = toW 32 theta ∧ t.blk.get .GMC_DELAY_DELAY = toW 32 delay ∧ t.blk.get .GMC_STATUS_DEPTH = min 63 (bits msg.rtag 26 6 + 1) ∧
    t.blk.gmc = (if s.blk.gState = gSyncing ∧ s.blk.gs.stepped = false then toW 64 ((s.blk.gmc : Int) + (theta + 8) / 16) else s.blk.gmc) ∧
    t.blk.gs.good = (if theta.natAbs ≤ 64 then s.blk.gs.good + 1 else 0)) ∧
  (∀ (s : State) (fracs : List Nat) (n : Nat), n < 8 → (s.blk.portState n = pStandby ∨ s.blk.portState n = pActive) → 
    s.blk.inReset = false → ∃ t, exec (.syncSend fracs) s = .next t ∧ Tab.get t.blk.gs.txSeq n 0 = (Tab.get s.blk.gs.txSeq n 0 + 1) % 4096 ∧
    (Tab.get s.blk.gs.txSeq n 0, s.blk.stamp (fracs.getD n 0)) ∈ Tab.get t.blk.gs.kept n [] ∧ t.blk.gmc = s.blk.gmc ∧ t.blk.regs = s.blk.regs ∧ t.blk.mem = s.blk.mem) ∧
  (∀ (s : State) (fracs : List Nat), (∀ n < 8, s.blk.portState n ≠ pStandby ∧ s.blk.portState n ≠ pActive) → 
    s.blk.inReset = false → ∃ t, exec (.syncSend fracs) s = .next t ∧ t = s) ∧
  (∀ (s : State), s.blk.gState = gLocked → s.blk.isRoot = false → s.blk.gs.lastUsed + 262144 ≤ s.blk.gmc → 
    s.blk.inReset = false → ∃ t, exec .gmcHoldover s = .next t ∧ t.blk.gState = gHoldover ∧ t.blk.get .GMC_SEEN_HOLDOVER = 1 ∧ t.blk.gmc = s.blk.gmc ∧ t.blk.gs = s.blk.gs ∧ t.blk.mem = s.blk.mem ∧
    ∀ f i, f.eventOwn = false → f ≠ .GMC_STATUS_STATE → f ≠ .GMC_SEEN_HOLDOVER → t.blk.get f i = s.blk.get f i) ∧
  (∀ (s : State), (s.blk.gState ≠ gLocked ∨ s.blk.isRoot = true ∨ s.blk.gmc < s.blk.gs.lastUsed + 262144) → 
    s.blk.inReset = false → ∃ t, exec .gmcHoldover s = .next t ∧ t = s) ∧
  ((∀ (j : Job) (k : Nat), (j.nextTask k).cogJob = 0 ∧ (j.nextTask k).cogStream = 0) ∧
    ∀ (r : TaskRun) (desc : List Byte) (f : Fmt) (sat : Bool) (base e : Nat) (l : List FVal) (v : FVal), l[e]? = some v → f.exact v = false →
    (r.srVector desc f sat base l)[e]? = some (f.enc v (.sr (cogDraw (dSeed desc) r.cogJob r.cogStream (base + e))) sat)) ∧
  (∀ (r : TaskRun) (desc : List Byte) (f : Fmt) (sat : Bool) (base i j : Nat) (rows : List (List FVal)) (row : List FVal) (v : FVal),
    rows[i]? = some row → row[j]? = some v → f.exact v = false →
    ((r.srMatrix desc f sat base rows)[i]?.bind fun (x : List Nat) => x[j]?) = some (f.enc v (.sr (cogDraw (dSeed desc) r.cogJob r.cogStream (base + 64 * i + j))) sat)) ∧
  (∀ (s : State), 
    s.blk.inReset = false → ∃ t, exec .cogGo s = .next t ∧ t.blk.get .COG_OUT_W = cog (s.blk.get .COG_KEY_VALUE) (s.blk.get .COG_JOB_VALUE) (s.blk.get .COG_STREAM_VALUE) (s.blk.get .COG_INDEX_VALUE) % 2 ^ 128 ∧
    t.blk.free = s.blk.free ∧ t.blk.mem = s.blk.mem ∧ ∀ f i, ¬(f = .COG_OUT_W ∧ i = 0) → t.blk.get f i = s.blk.get f i)

/-- MK_CLEAR, MK_ABSORB, MARK_STORE_PIN, MARK_STORE_ERASE, INPUT_MARK_DONE, OUTPUT_MARK_DONE and REPLAY_FRAME_DELIVERY.
MK_CLEAR zeroes the partition's weights Mark. MK_ABSORB, where its memory serves it, chains the bytes it reads into it,
and on a failed read leaves it and reports the status. A pin programs the next empty entry of the mark store with its
STATE byte last, and is refused when none is empty. An erase needs the key and leaves the whole store erased and the
rest of the NVM as it was. The input and the output Mark are the digests of what the spec lists, and the record then
leaves with them, without an output Mark where a region cannot be read. A FRAME record of replay is delivered once its
count has come. (R560, R562, R565, R566, R568, R569, R570, R571, R572, R580, R804) -/
def Obligations.MarksAndMarkStore : Prop :=
  (∀ (s : State) (part : Nat), 
    s.blk.inReset = false → ∃ t, exec (.mkClear part) s = .next t ∧ t.blk.get .WEIGHTS_MARK_MARK part = 0 ∧ t.blk.mem = s.blk.mem ∧ t.blk.hop = s.blk.hop ∧
    ∀ f i, ¬(f = .WEIGHTS_MARK_MARK ∧ i = part) → t.blk.get f i = s.blk.get f i) ∧
  (∀ (s : State) (part : Nat) (strikes : List Strike) (replies : List Reply) (l : List Byte) (b : Block), (s.blk.given (absorbAgent part) strikes replies).engRead 2 part none ((s.blk.given (absorbAgent part) strikes replies).get .MK_ADDR_ADDR part) ((s.blk.given (absorbAgent part) strikes replies).get .MK_LEN_LEN part) = (.ok l, b) → b.ms.eng.stall = none → 
    s.blk.inReset = false → ∃ t, exec (.mkAbsorb part strikes replies) s = .next t ∧ t.blk.get .WEIGHTS_MARK_MARK part = ofLe (sha3 (leBytes 32 (b.get .WEIGHTS_MARK_MARK part) ++ l)) % 2 ^ 256 ∧ t.blk.mem = b.mem ∧ part ∉ t.blk.hop.absorbs ∧
    ∀ f i, ¬(f = .WEIGHTS_MARK_MARK ∧ i = part) → t.blk.get f i = b.get f i) ∧
  (∀ (s : State) (part : Nat) (strikes : List Strike) (replies : List Reply) (e : Failed) (b : Block), (s.blk.given (absorbAgent part) strikes replies).engRead 2 part none ((s.blk.given (absorbAgent part) strikes replies).get .MK_ADDR_ADDR part) ((s.blk.given (absorbAgent part) strikes replies).get .MK_LEN_LEN part) = (.error e, b) → b.ms.eng.stall = none → 
    s.blk.inReset = false → ∃ t, exec (.mkAbsorb part strikes replies) s = .next t ∧ t.blk.get .MK_CTRL_MK_FAILED part = 1 ∧ t.blk.get .MK_CTRL_STATUS part = e.status % 2 ^ Fld.MK_CTRL_STATUS.desc.width ∧ t.blk.get .WEIGHTS_MARK_MARK part = b.get .WEIGHTS_MARK_MARK part) ∧
  (∀ (s : State) (i : Nat), firstFrom (fun i => !s.blk.msUsedAt i) msSlots 0 = some i → 
    s.blk.inReset = false → ∃ t, exec .markStorePin s = .next t ∧ t.blk = (s.blk.programNvm (msBase + 64 * i + 1) ([byteOf (s.blk.get .MS_CTRL_KIND + 4 * s.blk.get .MS_CTRL_SRC), byteOf (s.blk.get .MS_CTRL_PART)] ++ List.replicate 5 0xFF ++ leBytes 8 (s.blk.get .MS_NAME_NAME) ++ leBytes 8 s.blk.gmc ++ List.replicate 8 0xFF ++
      leBytes 32 (if s.blk.get .MS_CTRL_SRC = 0 then s.blk.get .WEIGHTS_MARK_MARK (s.blk.get .MS_CTRL_PART) else s.blk.get .MS_VALUE_MARK))).programNvm (msBase + 64 * i) [0] ∧
    Mem.byte 0xFF t.blk.cfg.nvm (msBase + 64 * i) = 0 ∧ t.blk.regs = s.blk.regs ∧ t.blk.mem = s.blk.mem) ∧
  (∀ (s : State), (∀ i < msSlots, s.blk.msUsedAt i = true) → 
    s.blk.inReset = false → ∃ t, exec .markStorePin s = .next t ∧ t.blk.get .MS_CTRL_MS_REFUSED = 1 ∧ t.blk.get .MS_CTRL_CAUSE = 1 ∧ t.blk.cfg = s.blk.cfg ∧ (∀ f i, f ≠ .MS_CTRL_MS_REFUSED → f ≠ .MS_CTRL_CAUSE → t.blk.get f i = s.blk.get f i)) ∧
  (∀ (s : State), 
    s.blk.inReset = false → ∃ t, exec (.markStoreErase 0x7A11) s = .next t ∧ (∀ x, Mem.byte 0xFF t.blk.cfg.nvm x = if msBase ≤ x ∧ x < msBase + 64 * msSlots then 0xFF else Mem.byte 0xFF s.blk.cfg.nvm x) ∧
    t.blk.regs = s.blk.regs ∧ t.blk.mem = s.blk.mem) ∧
  (∀ (s : State) (key : Nat), key ≠ 0x7A11 → 
    s.blk.inReset = false → ∃ t, exec (.markStoreErase key) s = .next t ∧ t.blk.get .MS_CTRL_MS_REFUSED = 1 ∧ t.blk.get .MS_CTRL_CAUSE = 2 ∧ t.blk.cfg = s.blk.cfg ∧ (∀ f i, f ≠ .MS_CTRL_MS_REFUSED → f ≠ .MS_CTRL_CAUSE → t.blk.get f i = s.blk.get f i)) ∧
  (∀ (s : State) (id : Nat) (strikes : List Strike) (replies : List Reply) (k j : Job) (input prog : List Byte) (outs : List (Nat × Nat)) (b : Block), (s.blk.given (jobAgent id) strikes replies).job id = some k → (s.blk.given (jobAgent id) strikes replies).markDue k = true → j = (s.blk.given (jobAgent id) strikes replies).capture k → (inputMarkM { die := 2, part := j.part, job := j.id } ((s.blk.given (jobAgent id) strikes replies).get .IMAGE_MARK_MARK) j).go (s.blk.given (jobAgent id) strikes replies) = (.ok (input, prog, outs), b) → ((s.blk.given (jobAgent id) strikes replies).inputMark id).ms.eng.stall = none → 
    s.blk.inReset = false → ∃ t, exec (.inputMarkDone id strikes replies) s = .next t ∧ t.blk = ((if j.tally then b.tallyPut j.part (b.descRecord j.sq j.arrival j.cond j.desc input (sha3 (markDesc j.desc ++ input))) else b).setJob
      { j with tally := false, progMark := prog, inMark := if dMark j.desc then some (sha3 (markDesc j.desc ++ input)) else none, outs := outs }).replied (jobAgent id)) ∧
  (∀ (s : State) (id : Nat) (strikes : List Strike) (replies : List Reply) (j : Job) (input : List Byte) (st c res : Nat), (s.blk.given (jobAgent id) strikes replies).job id = some j → j.phase = .marking → j.inMark = some input → j.outcome = some (st, c, res) → dOutMark j.desc = false → ((s.blk.given (jobAgent id) strikes replies).outputMark id).ms.eng.stall = none → 
    s.blk.inReset = false → ∃ t, exec (.outputMarkDone id strikes replies) s = .next t ∧ t.blk = ((s.blk.given (jobAgent id) strikes replies).finalize j st c res (some (sha3 (markPre j.desc j.progMark input j.weights))) none).replied (jobAgent id)) ∧
  (∀ (s : State) (id : Nat) (strikes : List Strike) (replies : List Reply) (j : Job) (input l : List Byte) (st c res : Nat) (b : Block), (s.blk.given (jobAgent id) strikes replies).job id = some j → j.phase = .marking → j.inMark = some input → j.outcome = some (st, c, res) → dOutMark j.desc = true → (markOutput { die := 2, part := j.part, job := j.id } j res).go (s.blk.given (jobAgent id) strikes replies) = (.ok l, b) → ((s.blk.given (jobAgent id) strikes replies).outputMark id).ms.eng.stall = none → 
    s.blk.inReset = false → ∃ t, exec (.outputMarkDone id strikes replies) s = .next t ∧ t.blk = (b.finalize j st c res (some (sha3 (markPre j.desc j.progMark input j.weights))) (some (sha3 l))).replied (jobAgent id)) ∧
  (∀ (s : State) (id : Nat) (strikes : List Strike) (replies : List Reply) (j : Job) (input : List Byte) (st c res : Nat) (e : Failed) (b : Block), (s.blk.given (jobAgent id) strikes replies).job id = some j → j.phase = .marking → j.inMark = some input → j.outcome = some (st, c, res) → dOutMark j.desc = true → (markOutput { die := 2, part := j.part, job := j.id } j res).go (s.blk.given (jobAgent id) strikes replies) = (.error e, b) → ((s.blk.given (jobAgent id) strikes replies).outputMark id).ms.eng.stall = none → 
    s.blk.inReset = false → ∃ t, exec (.outputMarkDone id strikes replies) s = .next t ∧ t.blk = (b.finalize j st c res (some (sha3 (markPre j.desc j.progMark input j.weights))) none).replied (jobAgent id)) ∧
  (∀ (s : State) (id : Nat) (strikes : List Strike) (replies : List Reply), (s.blk.given (jobAgent id) strikes replies).job id = none → 
    s.blk.inReset = false → ∃ t, exec (.inputMarkDone id strikes replies) s = .next t ∧ t.blk = (s.blk.given (jobAgent id) strikes replies).replied (jobAgent id) ∧ exec (.outputMarkDone id strikes replies) s = .next t) ∧
  (∀ (s : State) (p : Nat) (r : ReplayRec) (b : Block), s.blk.replayOn p = true → s.blk.nextFrame p = (some (some r), b) → ((r.arrival + b.get .REPLAY_OFFSET_COUNTS p) % 2 ^ 64) ≤ b.gmc → 
    s.blk.inReset = false → ∃ t, exec (.replayFrameDelivery p) s = .next t ∧ t.blk = (b.set .REPLAY_POS_OFFSET p (r.off + r.size)).takeService (r.source - 0x20) r.body ((r.arrival + b.get .REPLAY_OFFSET_COUNTS p) % 2 ^ 64) true) ∧
  (∀ (s : State) (p : Nat) (r : ReplayRec) (b : Block), s.blk.replayOn p = true → s.blk.nextFrame p = (some (some r), b) → b.gmc < ((r.arrival + b.get .REPLAY_OFFSET_COUNTS p) % 2 ^ 64) → 
    s.blk.inReset = false → ∃ t, exec (.replayFrameDelivery p) s = .next t ∧ t.blk = b) ∧
  (∀ (s : State) (p : Nat), s.blk.replayOn p = true → ((s.blk.nextFrame p).1 = none ∨ (s.blk.nextFrame p).1 = some none) → 
    s.blk.inReset = false → ∃ t, exec (.replayFrameDelivery p) s = .next t ∧ t.blk = (s.blk.nextFrame p).2) ∧
  (∀ (s : State) (p : Nat), s.blk.replayOn p = false → 
    s.blk.inReset = false → ∃ t, exec (.replayFrameDelivery p) s = .next t ∧ t = s)

/-- BSORT, BMERGE, BDROP and SELECT: the Bolter units. BSORT leaves the kept keys of a register pair in the order of its OP,
BMERGE the better half of two sorted pairs in the first, BDROP the keys that are not dropped, and hands their number
back to the task; no other register of any tile, and no byte of memory, changes, and without a running task or with a
bad operand nothing does. A SELECT that may start, whose memory serves it and whose ARGS and block pass their checks
runs its rows in order and concludes with the number written; a bad one ends with its violation. While its memory does
not serve it nothing of it is done. (R421, R630, R632, R634, R635, R636, R645, R647, R649, R651) -/
def Obligations.BolterUnits : Prop :=
  (∀ (s : State) (tile keys idx op ktype q : Nat), s.blk.boltOk tile [keys, idx] op ktype = true → 
    s.blk.inReset = false → ∃ t, exec (.bsort tile keys idx op ktype q) s = .next t ∧ t.blk = (s.blk.setPair tile keys idx ktype (sortKeys op (s.blk.pairKeys tile keys idx op ktype q))).boltStats tile (blockKeys ktype) (blockKeys ktype - (s.blk.pairKeys tile keys idx op ktype q).length) 0 ∧
    t.blk.mem = s.blk.mem ∧ t.blk.out = s.blk.out ∧ (∀ k r, r < 32 → ¬(k = tile ∧ (r = keys ∨ r = idx ∨ r = (idx + 1) % 32)) → t.blk.vreg k r = s.blk.vreg k r)) ∧
  (∀ (s : State) (tile keysA idxA keysB idxB op ktype q : Nat), s.blk.boltOk tile [keysA, idxA, keysB, idxB] op ktype = true → 
    s.blk.inReset = false → ∃ t, exec (.bmerge tile keysA idxA keysB idxB op ktype q) s = .next t ∧ t.blk = s.blk.setPair tile keysA idxA ktype (mergeKeys op ((s.blk.pairKeys tile keysA idxA op ktype q).length + (s.blk.pairKeys tile keysB idxB op ktype q).length) (s.blk.pairKeys tile keysA idxA op ktype q) (s.blk.pairKeys tile keysB idxB op ktype q)) ∧
    t.blk.regs = s.blk.regs ∧ t.blk.mem = s.blk.mem ∧ (∀ k r, r < 32 → ¬(k = tile ∧ (r = keysA ∨ r = idxA ∨ r = (idxA + 1) % 32)) → t.blk.vreg k r = s.blk.vreg k r)) ∧
  (∀ (s : State) (tile keys idx op ktype q : Nat), s.blk.boltOk tile [keys, idx] op ktype = true → 
    s.blk.inReset = false → ∃ t, exec (.bdrop tile keys idx op ktype q) s = .next t ∧ t.blk.out = s.blk.out ++ [.tileData tile (leBytes 4 (blockKeys ktype - (s.blk.pairKeys tile keys idx op ktype q).length))] ∧
    t.blk.ms = (s.blk.setPair tile keys idx ktype (s.blk.pairKeys tile keys idx op ktype q)).ms ∧ t.blk.mem = s.blk.mem ∧ (∀ k r, r < 32 → ¬(k = tile ∧ (r = keys ∨ r = idx ∨ r = (idx + 1) % 32)) → t.blk.vreg k r = s.blk.vreg k r)) ∧
  (∀ (s : State) (tile keys idx op ktype q : Nat), s.blk.boltOk tile [keys, idx] op ktype = false → 
    s.blk.inReset = false → ∃ t, exec (.bsort tile keys idx op ktype q) s = .next t ∧ t = s ∧ exec (.bdrop tile keys idx op ktype q) s = .next s ∧
    ∀ a b, exec (.bmerge tile keys idx a b op ktype q) s = .next s) ∧
  (∀ (s : State) (id : Nat) (clock : List Nat) (strikes : List Strike) (replies : List Reply) (j : Job) (b : Block) (l : List Byte) (b2 b3 : Block) (rows st k : Nat), ((s.blk.given (jobAgent id) strikes replies).selStart id).1 = some (j, b) → b.selArgsBad j.part j.desc = none → (b.selWorks j).engRead (tileDie ((b.selUsed j).headD 0)) j.part (some j.id) (seParams j.desc) 128 = (.ok l, b2) → selBlkBad j.desc (selBlk l) = none → b2.selRows j (selBlk l) (b.selUsed j) clock (seRows j.desc) 0 = (rows, st, k, b3) → ((s.blk.given (jobAgent id) strikes replies).select id clock).ms.eng.stall = none → 
    s.blk.inReset = false → ∃ t, exec (.select id clock strikes replies) s = .next t ∧ t.blk = (b3.conclude j st k rows).replied (jobAgent id)) ∧
  (∀ (s : State) (id : Nat) (clock : List Nat) (strikes : List Strike) (replies : List Reply) (j : Job) (b : Block) (k : Nat), ((s.blk.given (jobAgent id) strikes replies).selStart id).1 = some (j, b) → b.selArgsBad j.part j.desc = some k → ((s.blk.given (jobAgent id) strikes replies).select id clock).ms.eng.stall = none → 
    s.blk.inReset = false → ∃ t, exec (.select id clock strikes replies) s = .next t ∧ t.blk = (b.violateJob j k).replied (jobAgent id)) ∧
  (∀ (s : State) (id : Nat) (clock : List Nat) (strikes : List Strike) (replies : List Reply) (j : Job) (b : Block) (l : List Byte) (b2 : Block) (k : Nat), ((s.blk.given (jobAgent id) strikes replies).selStart id).1 = some (j, b) → b.selArgsBad j.part j.desc = none → (b.selWorks j).engRead (tileDie ((b.selUsed j).headD 0)) j.part (some j.id) (seParams j.desc) 128 = (.ok l, b2) → selBlkBad j.desc (selBlk l) = some k → ((s.blk.given (jobAgent id) strikes replies).select id clock).ms.eng.stall = none → 
    s.blk.inReset = false → ∃ t, exec (.select id clock strikes replies) s = .next t ∧ t.blk = (b2.violateJob j k).replied (jobAgent id)) ∧
  (∀ (s : State) (id : Nat) (clock : List Nat) (strikes : List Strike) (replies : List Reply), ((s.blk.given (jobAgent id) strikes replies).selStart id).1 = none → ((s.blk.given (jobAgent id) strikes replies).select id clock).ms.eng.stall = none → 
    s.blk.inReset = false → ∃ t, exec (.select id clock strikes replies) s = .next t ∧ t.blk = (((s.blk.given (jobAgent id) strikes replies).selStart id).2).replied (jobAgent id)) ∧
  (∀ (s : State) (id : Nat) (clock : List Nat) (strikes : List Strike) (replies : List Reply) (x : EngStall), ((s.blk.given (jobAgent id) strikes replies).select id clock).ms.eng.stall = some x → 
    s.blk.inReset = false → ∃ t, exec (.select id clock strikes replies) s = .next t ∧ t.blk = (s.blk.strike strikes).withReplies replies fun b => b.engHeld ((s.blk.given (jobAgent id) strikes replies).select id clock) (jobAgent id) x)

/-- CHOL, LDLT, LU, BTRI, PCG and SOLVE_FACTOR: a SOLVE runs on its Quern. The SOLVE that the arbitration picks for its
method starts on the Quern of the lowest die it allows that takes work, which leaves A1 for it. Its block is read; a
failed read ends it with its status, a block that fails a check with the cause of the first that fails, and one that
passes runs by its method. When no such SOLVE may start, none does, and while its memory does not serve it nothing of it
is done. (R302, R421, R652, R654, R656, R657, R658) -/
def Obligations.QuernSolves : Prop :=
  (∀ (s : State) (id : Nat) (clock : List Nat) (parity : Option Nat) (strikes : List Strike) (replies : List Reply) (j : Job) (b b2 : Block) (l : List Byte), ((s.blk.given (jobAgent id) strikes replies).solveStart 1 id).1 = some (j, b) → (b.solveWorks j.desc).rd { die := b.solveDie j.desc, part := j.part, job := j.id } (soParams j.desc) 128 = (.ok l, b2) → soMethod j.desc = 1 → solveFault j.desc l 1 = none → ((s.blk.given (jobAgent id) strikes replies).solve 1 id clock parity).ms.eng.stall = none → 
    s.blk.inReset = false → ∃ t, exec (.chol id clock parity strikes replies) s = .next t ∧ t.blk = (b2.runSolve { die := b.solveDie j.desc, part := j.part, job := j.id } j l clock parity).replied (jobAgent id)) ∧
  (∀ (s : State) (id : Nat) (clock : List Nat) (parity : Option Nat) (strikes : List Strike) (replies : List Reply) (j : Job) (b b2 : Block) (l : List Byte), ((s.blk.given (jobAgent id) strikes replies).solveStart 2 id).1 = some (j, b) → (b.solveWorks j.desc).rd { die := b.solveDie j.desc, part := j.part, job := j.id } (soParams j.desc) 128 = (.ok l, b2) → soMethod j.desc = 2 → solveFault j.desc l 2 = none → ((s.blk.given (jobAgent id) strikes replies).solve 2 id clock parity).ms.eng.stall = none → 
    s.blk.inReset = false → ∃ t, exec (.ldlt id clock parity strikes replies) s = .next t ∧ t.blk = (b2.runSolve { die := b.solveDie j.desc, part := j.part, job := j.id } j l clock parity).replied (jobAgent id)) ∧
  (∀ (s : State) (id : Nat) (clock : List Nat) (parity : Option Nat) (strikes : List Strike) (replies : List Reply) (j : Job) (b b2 : Block) (l : List Byte), ((s.blk.given (jobAgent id) strikes replies).solveStart 3 id).1 = some (j, b) → (b.solveWorks j.desc).rd { die := b.solveDie j.desc, part := j.part, job := j.id } (soParams j.desc) 128 = (.ok l, b2) → soMethod j.desc = 3 → solveFault j.desc l 3 = none → ((s.blk.given (jobAgent id) strikes replies).solve 3 id clock parity).ms.eng.stall = none → 
    s.blk.inReset = false → ∃ t, exec (.solveLu id clock parity strikes replies) s = .next t ∧ t.blk = (b2.runSolve { die := b.solveDie j.desc, part := j.part, job := j.id } j l clock parity).replied (jobAgent id)) ∧
  (∀ (s : State) (id : Nat) (clock : List Nat) (parity : Option Nat) (strikes : List Strike) (replies : List Reply) (j : Job) (b b2 : Block) (l : List Byte), ((s.blk.given (jobAgent id) strikes replies).solveStart 4 id).1 = some (j, b) → (b.solveWorks j.desc).rd { die := b.solveDie j.desc, part := j.part, job := j.id } (soParams j.desc) 128 = (.ok l, b2) → soMethod j.desc = 4 → solveFault j.desc l 4 = none → ((s.blk.given (jobAgent id) strikes replies).solve 4 id clock parity).ms.eng.stall = none → 
    s.blk.inReset = false → ∃ t, exec (.btri id clock parity strikes replies) s = .next t ∧ t.blk = (b2.runSolve { die := b.solveDie j.desc, part := j.part, job := j.id } j l clock parity).replied (jobAgent id)) ∧
  (∀ (s : State) (id : Nat) (clock : List Nat) (parity : Option Nat) (strikes : List Strike) (replies : List Reply) (j : Job) (b b2 : Block) (l : List Byte), ((s.blk.given (jobAgent id) strikes replies).solveStart 5 id).1 = some (j, b) → (b.solveWorks j.desc).rd { die := b.solveDie j.desc, part := j.part, job := j.id } (soParams j.desc) 128 = (.ok l, b2) → soMethod j.desc = 5 → solveFault j.desc l 5 = none → ((s.blk.given (jobAgent id) strikes replies).solve 5 id clock parity).ms.eng.stall = none → 
    s.blk.inReset = false → ∃ t, exec (.pcg id clock parity strikes replies) s = .next t ∧ t.blk = (b2.runSolve { die := b.solveDie j.desc, part := j.part, job := j.id } j l clock parity).replied (jobAgent id)) ∧
  (∀ (s : State) (id : Nat) (clock : List Nat) (parity : Option Nat) (strikes : List Strike) (replies : List Reply) (j : Job) (b b2 : Block) (l : List Byte), ((s.blk.given (jobAgent id) strikes replies).solveStart 6 id).1 = some (j, b) → (b.solveWorks j.desc).rd { die := b.solveDie j.desc, part := j.part, job := j.id } (soParams j.desc) 128 = (.ok l, b2) → soMethod j.desc = 6 → ((s.blk.given (jobAgent id) strikes replies).solve 6 id clock parity).ms.eng.stall = none → 
    s.blk.inReset = false → ∃ t, exec (.solveFactor id clock parity strikes replies) s = .next t ∧ t.blk = (b2.runStored { die := b.solveDie j.desc, part := j.part, job := j.id } j l clock parity).replied (jobAgent id)) ∧
  (∀ (s : State) (id : Nat) (clock : List Nat) (parity : Option Nat) (strikes : List Strike) (replies : List Reply) (j : Job) (b b2 : Block) (l : List Byte) (c : Instr) (m k : Nat), ((c = .chol id clock parity strikes replies ∧ m = 1) ∨ (c = .ldlt id clock parity strikes replies ∧ m = 2) ∨ (c = .solveLu id clock parity strikes replies ∧ m = 3) ∨ (c = .btri id clock parity strikes replies ∧ m = 4) ∨ (c = .pcg id clock parity strikes replies ∧ m = 5) ∨ (c = .solveFactor id clock parity strikes replies ∧ m = 6)) → m ≠ 6 → ((s.blk.given (jobAgent id) strikes replies).solveStart m id).1 = some (j, b) → (b.solveWorks j.desc).rd { die := b.solveDie j.desc, part := j.part, job := j.id } (soParams j.desc) 128 = (.ok l, b2) → soMethod j.desc ≠ 6 → solveFault j.desc l (soMethod j.desc) = some k → ((s.blk.given (jobAgent id) strikes replies).solve m id clock parity).ms.eng.stall = none → 
    s.blk.inReset = false → ∃ t, exec c s = .next t ∧ t.blk = (b2.violateJob j k).replied (jobAgent id)) ∧
  (∀ (s : State) (id : Nat) (clock : List Nat) (parity : Option Nat) (strikes : List Strike) (replies : List Reply) (j : Job) (b b2 : Block) (e : Failed) (c : Instr) (m : Nat), ((c = .chol id clock parity strikes replies ∧ m = 1) ∨ (c = .ldlt id clock parity strikes replies ∧ m = 2) ∨ (c = .solveLu id clock parity strikes replies ∧ m = 3) ∨ (c = .btri id clock parity strikes replies ∧ m = 4) ∨ (c = .pcg id clock parity strikes replies ∧ m = 5) ∨ (c = .solveFactor id clock parity strikes replies ∧ m = 6)) → ((s.blk.given (jobAgent id) strikes replies).solveStart m id).1 = some (j, b) → (b.solveWorks j.desc).rd { die := b.solveDie j.desc, part := j.part, job := j.id } (soParams j.desc) 128 = (.error e, b2) → ((s.blk.given (jobAgent id) strikes replies).solve m id clock parity).ms.eng.stall = none → 
    s.blk.inReset = false → ∃ t, exec c s = .next t ∧ t.blk = (b2.conclude j e.status e.cause 0).replied (jobAgent id)) ∧
  (∀ (s : State) (id : Nat) (clock : List Nat) (parity : Option Nat) (strikes : List Strike) (replies : List Reply) (c : Instr) (m : Nat), ((c = .chol id clock parity strikes replies ∧ m = 1) ∨ (c = .ldlt id clock parity strikes replies ∧ m = 2) ∨ (c = .solveLu id clock parity strikes replies ∧ m = 3) ∨ (c = .btri id clock parity strikes replies ∧ m = 4) ∨ (c = .pcg id clock parity strikes replies ∧ m = 5) ∨ (c = .solveFactor id clock parity strikes replies ∧ m = 6)) → ((s.blk.given (jobAgent id) strikes replies).solveStart m id).1 = none → ((s.blk.given (jobAgent id) strikes replies).solve m id clock parity).ms.eng.stall = none → 
    s.blk.inReset = false → ∃ t, exec c s = .next t ∧ t.blk = (((s.blk.given (jobAgent id) strikes replies).solveStart m id).2).replied (jobAgent id)) ∧
  (∀ (s : State) (id : Nat) (clock : List Nat) (parity : Option Nat) (strikes : List Strike) (replies : List Reply) (c : Instr) (m : Nat) (x : EngStall), ((c = .chol id clock parity strikes replies ∧ m = 1) ∨ (c = .ldlt id clock parity strikes replies ∧ m = 2) ∨ (c = .solveLu id clock parity strikes replies ∧ m = 3) ∨ (c = .btri id clock parity strikes replies ∧ m = 4) ∨ (c = .pcg id clock parity strikes replies ∧ m = 5) ∨ (c = .solveFactor id clock parity strikes replies ∧ m = 6)) → ((s.blk.given (jobAgent id) strikes replies).solve m id clock parity).ms.eng.stall = some x → 
    s.blk.inReset = false → ∃ t, exec c s = .next t ∧ t.blk = (s.blk.strike strikes).withReplies replies fun b => b.engHeld ((s.blk.given (jobAgent id) strikes replies).solve m id clock parity) (jobAgent id) x)

/-- BUILD, SLICES, SWAP, SWAP_RETIRE, REFRESH, NODE_CACHE_LINE_EXPIRY, CHECK and PLAN. The WORLD_UPDATE, CHECK or PLAN that
the arbitration picks starts on the lowest die it allows that takes work; its blocks are read and checked, and a bad one
ends with its violation. Where the memory serves them: BUILD and SLICES lay out their epoch; a SWAP makes its header
current; a REFRESH drops the epoch's lines from the node caches and completes; a SWAP that waits completes once the
epoch before it is retired, at once when it has none, and not while an operation still holds that epoch. CHECK and PLAN
run on what they read, and a repair CHECK of a service-owned partition that finds a contact has its plan revoked. An
expired node cache line is gone from its die and no other is. (R302, R709, R710, R712, R715, R721, R725, R728, R751,
R762, R814, R720) -/
def Obligations.WorldCheckAndPlan : Prop :=
  (∀ (s : State) (id die : Nat) (strikes : List Strike) (replies : List Reply) (j : Job) (b b2 : Block) (h recs : List Byte), ((s.blk.given (jobAgent id) strikes replies).checkersStart (buildNames opBuild) id).1 = some (j, b) → die = (b.engDie j).getD 0 → (wuRead { die := die, part := j.part, job := j.id } j.desc).go (b.dieWorks die) = (.ok (h, recs), b2) → b2.wuFault j.part j.desc h recs = none → ((s.blk.given (jobAgent id) strikes replies).build opBuild id).ms.eng.stall = none → 
    s.blk.inReset = false → ∃ t, exec (.build id strikes replies) s = .next t ∧ t.blk = (b2.runBuild { die := die, part := j.part, job := j.id } j h recs).replied (jobAgent id)) ∧
  (∀ (s : State) (id die : Nat) (strikes : List Strike) (replies : List Reply) (j : Job) (b b2 : Block) (h recs : List Byte), ((s.blk.given (jobAgent id) strikes replies).checkersStart (buildNames opSlices) id).1 = some (j, b) → die = (b.engDie j).getD 0 → (wuRead { die := die, part := j.part, job := j.id } j.desc).go (b.dieWorks die) = (.ok (h, recs), b2) → b2.wuFault j.part j.desc h recs = none → ((s.blk.given (jobAgent id) strikes replies).build opSlices id).ms.eng.stall = none → 
    s.blk.inReset = false → ∃ t, exec (.slices id strikes replies) s = .next t ∧ t.blk = (b2.runBuild { die := die, part := j.part, job := j.id } j h recs).replied (jobAgent id)) ∧
  (∀ (s : State) (id die op k : Nat) (strikes : List Strike) (replies : List Reply) (c : Instr) (j : Job) (b b2 : Block) (h recs : List Byte), ((c = .build id strikes replies ∧ op = opBuild) ∨ (c = .slices id strikes replies ∧ op = opSlices)) → ((s.blk.given (jobAgent id) strikes replies).checkersStart (buildNames op) id).1 = some (j, b) → die = (b.engDie j).getD 0 → (wuRead { die := die, part := j.part, job := j.id } j.desc).go (b.dieWorks die) = (.ok (h, recs), b2) → b2.wuFault j.part j.desc h recs = some k → ((s.blk.given (jobAgent id) strikes replies).build op id).ms.eng.stall = none → 
    s.blk.inReset = false → ∃ t, exec c s = .next t ∧ t.blk = (b2.violateJob j k).replied (jobAgent id)) ∧
  (∀ (s : State) (id die op : Nat) (strikes : List Strike) (replies : List Reply) (c : Instr) (j : Job) (b b2 : Block) (k : Failed), ((c = .build id strikes replies ∧ op = opBuild) ∨ (c = .slices id strikes replies ∧ op = opSlices)) → ((s.blk.given (jobAgent id) strikes replies).checkersStart (buildNames op) id).1 = some (j, b) → die = (b.engDie j).getD 0 → (wuRead { die := die, part := j.part, job := j.id } j.desc).go (b.dieWorks die) = (.error k, b2) → ((s.blk.given (jobAgent id) strikes replies).build op id).ms.eng.stall = none → 
    s.blk.inReset = false → ∃ t, exec c s = .next t ∧ t.blk = (b2.conclude j k.status k.cause 0).replied (jobAgent id)) ∧
  (∀ (s : State) (id op : Nat) (strikes : List Strike) (replies : List Reply) (c : Instr), ((c = .build id strikes replies ∧ op = opBuild) ∨ (c = .slices id strikes replies ∧ op = opSlices)) → ((s.blk.given (jobAgent id) strikes replies).checkersStart (buildNames op) id).1 = none → ((s.blk.given (jobAgent id) strikes replies).build op id).ms.eng.stall = none → 
    s.blk.inReset = false → ∃ t, exec c s = .next t ∧ t.blk = (((s.blk.given (jobAgent id) strikes replies).checkersStart (buildNames op) id).2).replied (jobAgent id)) ∧
  (∀ (s : State) (id : Nat) (strikes : List Strike) (j : Job) (b b2 b3 : Block) (h recs : List Byte), (s.blk.given (jobAgent id) strikes []).hubStart opSwap id = some (j, b) → (wuRead { die := 2, part := j.part, job := j.id } j.desc).go b = (.ok (h, recs), b2) → b2.wuFault j.part j.desc h recs = none → (do writeM { die := 2, part := j.part, job := j.id } (wuHeader j.desc + 0x60) [byteOf eCurrent]; writeM { die := 2, part := j.part, job := j.id } (wuHeader j.desc + 0x78) (leBytes 8 b2.gmc) : EngM Unit).go b2 = (.ok (), b3) → ((s.blk.given (jobAgent id) strikes []).swap id).ms.eng.stall = none → 
    s.blk.inReset = false → ∃ t, exec (.swap id strikes) s = .next t ∧ t.blk.get .WORLD_CUR_HEADER (worldIx j.part (wuWorld j.desc)) = wuHeader j.desc % 2 ^ Fld.WORLD_CUR_HEADER.desc.width ∧
    t.blk.get .WORLD_SWAPS_COUNT (worldIx j.part (wuWorld j.desc)) = (b3.get .WORLD_SWAPS_COUNT (worldIx j.part (wuWorld j.desc)) + 1) % 2 ^ Fld.WORLD_SWAPS_COUNT.desc.width ∧
    t.blk.mem = b3.mem) ∧
  (∀ (s : State) (id : Nat) (strikes : List Strike) (j : Job) (b b2 : Block) (h recs : List Byte), (s.blk.given (jobAgent id) strikes []).hubStart opRefresh id = some (j, b) → (wuRead { die := 2, part := j.part, job := j.id } j.desc).go b = (.ok (h, recs), b2) → b2.wuFault j.part j.desc h recs = none → ((s.blk.given (jobAgent id) strikes []).refresh id).ms.eng.stall = none → 
    s.blk.inReset = false → ∃ t, exec (.refresh id strikes) s = .next t ∧ t.blk = ((b2.ncDrop j.part (epochRegions h (wuHeader j.desc))).conclude j stDone 0 0).replied (jobAgent id)) ∧
  (∀ (s : State) (id op k : Nat) (strikes : List Strike) (c : Instr) (j : Job) (b b2 : Block) (h recs : List Byte), ((c = .swap id strikes ∧ op = opSwap) ∨ (c = .refresh id strikes ∧ op = opRefresh)) → (s.blk.given (jobAgent id) strikes []).hubStart op id = some (j, b) → (wuRead { die := 2, part := j.part, job := j.id } j.desc).go b = (.ok (h, recs), b2) → b2.wuFault j.part j.desc h recs = some k → (op = opSwap → ((s.blk.given (jobAgent id) strikes []).swap id).ms.eng.stall = none) → (op = opRefresh → ((s.blk.given (jobAgent id) strikes []).refresh id).ms.eng.stall = none) → 
    s.blk.inReset = false → ∃ t, exec c s = .next t ∧ t.blk = (b2.violateJob j k).replied (jobAgent id)) ∧
  (∀ (s : State) (id op : Nat) (strikes : List Strike) (c : Instr), ((c = .swap id strikes ∧ op = opSwap) ∨ (c = .refresh id strikes ∧ op = opRefresh)) → (s.blk.given (jobAgent id) strikes []).hubStart op id = none → 
    s.blk.inReset = false → ∃ t, exec c s = .next t ∧ t.blk = ((s.blk.given (jobAgent id) strikes [])).replied (jobAgent id)) ∧
  (∀ (s : State) (id : Nat) (j : Job) (h : List Byte) (b : Block), (s.blk.given (jobAgent id) [] []).job id = some j → isOp 0x30 j = true → wuOp j.desc = opSwap → j.phase = .running → (readM { die := 2, part := j.part, job := j.id } (wuHeader j.desc) 128).go (s.blk.given (jobAgent id) [] []) = (.ok h, b) → hPrev h = 0 → ((s.blk.given (jobAgent id) [] []).swapRetire id).ms.eng.stall = none → 
    s.blk.inReset = false → ∃ t, exec (.swapRetire id) s = .next t ∧ t.blk = (b.conclude j stDone 0 0).replied (jobAgent id)) ∧
  (∀ (s : State) (id : Nat) (j : Job) (h : List Byte) (b b2 : Block), (s.blk.given (jobAgent id) [] []).job id = some j → isOp 0x30 j = true → wuOp j.desc = opSwap → j.phase = .running → (readM { die := 2, part := j.part, job := j.id } (wuHeader j.desc) 128).go (s.blk.given (jobAgent id) [] []) = (.ok h, b) → hPrev h ≠ 0 → (s.blk.given (jobAgent id) [] []).epochHeld (worldIx j.part (wuWorld j.desc)) (hPrev h) = false → (writeM { die := 2, part := j.part, job := j.id } (hPrev h + 0x60) [byteOf eRetired]).go b = (.ok (), b2) → ((s.blk.given (jobAgent id) [] []).swapRetire id).ms.eng.stall = none → 
    s.blk.inReset = false → ∃ t, exec (.swapRetire id) s = .next t ∧ t.blk = ((b2.event 0x80 0x02 [] j.part).conclude j stDone 0 j.next).replied (jobAgent id)) ∧
  (∀ (s : State) (id : Nat) (j : Job) (h : List Byte) (b : Block), (s.blk.given (jobAgent id) [] []).job id = some j → isOp 0x30 j = true → wuOp j.desc = opSwap → j.phase = .running → (readM { die := 2, part := j.part, job := j.id } (wuHeader j.desc) 128).go (s.blk.given (jobAgent id) [] []) = (.ok h, b) → hPrev h ≠ 0 → (s.blk.given (jobAgent id) [] []).epochHeld (worldIx j.part (wuWorld j.desc)) (hPrev h) = true → ((s.blk.given (jobAgent id) [] []).swapRetire id).ms.eng.stall = none → 
    s.blk.inReset = false → ∃ t, exec (.swapRetire id) s = .next t ∧ t.blk = ((s.blk.given (jobAgent id) [] [])).replied (jobAgent id)) ∧
  (∀ (s : State) (id : Nat), (∀ j, (s.blk.given (jobAgent id) [] []).job id = some j → j.phase ≠ .running) → 
    s.blk.inReset = false → ∃ t, exec (.swapRetire id) s = .next t ∧ t.blk = ((s.blk.given (jobAgent id) [] [])).replied (jobAgent id)) ∧
  (∀ (s : State) (die phys : Nat), 
    s.blk.inReset = false → ∃ t, exec (.nodeCacheLineExpiry die phys) s = .next t ∧ (∀ p x, t.blk.ncHit die p x = if x = phys / 64 * 64 then none else s.blk.ncHit die p x) ∧
    (∀ k p x, k ≠ die → t.blk.ncHit k p x = s.blk.ncHit k p x) ∧ t.blk.regs = s.blk.regs ∧ t.blk.mem = s.blk.mem ∧ t.blk.hop = s.blk.hop) ∧
  (∀ (s : State) (id die : Nat) (clock : List Nat)  (strikes : List Strike) (replies : List Reply) (k j : Job) (b b2 : Block) (x : CheckIn), ((s.blk.given (jobAgent id) strikes replies).checkersStart (isOp 0x31) id).1 = some (k, b) → die = (b.engDie k).getD 0 → j = (b.dieWorks die).capture k → (readCheck { die := die, part := j.part, job := j.id } j.desc (j.epoch.getD 0)).go (b.dieWorks die) = (.ok (.ok x), b2) → ((s.blk.given (jobAgent id) strikes replies).checkAndRevoke id clock).ms.eng.stall = none → 
    s.blk.inReset = false → ∃ t, exec (.checkDesc id clock strikes replies) s = .next t ∧ t.blk = (if ckRepair j.desc = true ∧ (s.blk.given (jobAgent id) strikes replies).get .PART_GRANT_OWNER j.part = 2 then (b2.runCheck { die := die, part := j.part, job := j.id } j x (b.dieWorks die).gmc clock).revokeAfter j.part j.desc else b2.runCheck { die := die, part := j.part, job := j.id } j x (b.dieWorks die).gmc clock).replied (jobAgent id)) ∧
  (∀ (s : State) (id die : Nat) (clock : List Nat)  (strikes : List Strike) (replies : List Reply) (k j : Job) (b b2 : Block) (m : Nat), ((s.blk.given (jobAgent id) strikes replies).checkersStart (isOp 0x31) id).1 = some (k, b) → die = (b.engDie k).getD 0 → j = (b.dieWorks die).capture k → (readCheck { die := die, part := j.part, job := j.id } j.desc (j.epoch.getD 0)).go (b.dieWorks die) = (.ok (.error m), b2) → ((s.blk.given (jobAgent id) strikes replies).checkAndRevoke id clock).ms.eng.stall = none → 
    s.blk.inReset = false → ∃ t, exec (.checkDesc id clock strikes replies) s = .next t ∧ t.blk = (if ckRepair j.desc = true ∧ (s.blk.given (jobAgent id) strikes replies).get .PART_GRANT_OWNER j.part = 2 then (b2.violateJob j m).revokeAfter j.part j.desc else b2.violateJob j m).replied (jobAgent id)) ∧
  (∀ (s : State) (id die : Nat) (clock : List Nat)  (strikes : List Strike) (replies : List Reply) (k j : Job) (b b2 : Block) (m : Failed), ((s.blk.given (jobAgent id) strikes replies).checkersStart (isOp 0x31) id).1 = some (k, b) → die = (b.engDie k).getD 0 → j = (b.dieWorks die).capture k → (readCheck { die := die, part := j.part, job := j.id } j.desc (j.epoch.getD 0)).go (b.dieWorks die) = (.error m, b2) → ((s.blk.given (jobAgent id) strikes replies).checkAndRevoke id clock).ms.eng.stall = none → 
    s.blk.inReset = false → ∃ t, exec (.checkDesc id clock strikes replies) s = .next t ∧ t.blk = (if ckRepair j.desc = true ∧ (s.blk.given (jobAgent id) strikes replies).get .PART_GRANT_OWNER j.part = 2 then (b2.conclude j m.status m.cause 0).revokeAfter j.part j.desc else b2.conclude j m.status m.cause 0).replied (jobAgent id)) ∧
  (∀ (s : State) (id : Nat) (clock : List Nat)  (strikes : List Strike) (replies : List Reply), ((s.blk.given (jobAgent id) strikes replies).checkersStart (isOp 0x31) id).1 = none → ((s.blk.given (jobAgent id) strikes replies).checkAndRevoke id clock).ms.eng.stall = none → 
    s.blk.inReset = false → ∃ t, exec (.checkDesc id clock strikes replies) s = .next t ∧ t.blk = (((s.blk.given (jobAgent id) strikes replies).checkersStart (isOp 0x31) id).2).replied (jobAgent id)) ∧
  (∀ (s : State) (id die : Nat) (clock : List Nat) (parity : Option Nat) (strikes : List Strike) (replies : List Reply) (k j : Job) (b b2 : Block) (x : PlanIn), ((s.blk.given (jobAgent id) strikes replies).checkersStart (isOp 0x32) id).1 = some (k, b) → die = (b.engDie k).getD 0 → j = (b.dieWorks die).capture k → (readPlan { die := die, part := j.part, job := j.id } j.desc (j.epoch.getD 0)).go (b.dieWorks die) = (.ok (.ok x), b2) → ((s.blk.given (jobAgent id) strikes replies).plan id clock parity).ms.eng.stall = none → 
    s.blk.inReset = false → ∃ t, exec (.planDesc id clock parity strikes replies) s = .next t ∧ t.blk = (b2.runPlan { die := die, part := j.part, job := j.id } j x (b.dieWorks die).gmc clock parity).replied (jobAgent id)) ∧
  (∀ (s : State) (id die : Nat) (clock : List Nat) (parity : Option Nat) (strikes : List Strike) (replies : List Reply) (k j : Job) (b b2 : Block) (m : Nat), ((s.blk.given (jobAgent id) strikes replies).checkersStart (isOp 0x32) id).1 = some (k, b) → die = (b.engDie k).getD 0 → j = (b.dieWorks die).capture k → (readPlan { die := die, part := j.part, job := j.id } j.desc (j.epoch.getD 0)).go (b.dieWorks die) = (.ok (.error m), b2) → ((s.blk.given (jobAgent id) strikes replies).plan id clock parity).ms.eng.stall = none → 
    s.blk.inReset = false → ∃ t, exec (.planDesc id clock parity strikes replies) s = .next t ∧ t.blk = (b2.violateJob j m).replied (jobAgent id)) ∧
  (∀ (s : State) (id die : Nat) (clock : List Nat) (parity : Option Nat) (strikes : List Strike) (replies : List Reply) (k j : Job) (b b2 : Block) (m : Failed), ((s.blk.given (jobAgent id) strikes replies).checkersStart (isOp 0x32) id).1 = some (k, b) → die = (b.engDie k).getD 0 → j = (b.dieWorks die).capture k → (readPlan { die := die, part := j.part, job := j.id } j.desc (j.epoch.getD 0)).go (b.dieWorks die) = (.error m, b2) → ((s.blk.given (jobAgent id) strikes replies).plan id clock parity).ms.eng.stall = none → 
    s.blk.inReset = false → ∃ t, exec (.planDesc id clock parity strikes replies) s = .next t ∧ t.blk = (b2.conclude j m.status m.cause 0).replied (jobAgent id)) ∧
  (∀ (s : State) (id : Nat) (clock : List Nat) (parity : Option Nat) (strikes : List Strike) (replies : List Reply), ((s.blk.given (jobAgent id) strikes replies).checkersStart (isOp 0x32) id).1 = none → ((s.blk.given (jobAgent id) strikes replies).plan id clock parity).ms.eng.stall = none → 
    s.blk.inReset = false → ∃ t, exec (.planDesc id clock parity strikes replies) s = .next t ∧ t.blk = (((s.blk.given (jobAgent id) strikes replies).checkersStart (isOp 0x32) id).2).replied (jobAgent id))

/-- The Miller cores and the Tenter fabric: faults, the memory window, mailboxes, watchdog, timer and user logic. An access
outside a core's map takes its access fault with the address recorded; one inside it changes nothing. The memory window
needs a service-owned partition: it enters the accesses of the hub as one of that core, in its partition, and is served
with them. Mailbox rings set their source and line at each core named and nowhere else; a ring to the host sets the
core's bit. The watchdog fires once its limit has passed without a kick and starts anew; the timer interrupts from its
count on. An unanswered access to user logic counts, reads as ones and writes nothing. A user interrupt sets its line at
every core; user logic writes its block memory and nothing outside it, and a core's read of that cycle gets the words as
they stood before. USER_RESET stops user logic, whose pins float until its time is over (a free value). (R778, R780,
R781, R783, R784, R785, R791, R792, R793, R819) -/
def Obligations.MillerAndTenter : Prop :=
  (∀ (s : State) (core addr size : Nat) (atomic : Bool), core < 4 → (∃ i < max 1 size, coreMay core (addr + i) atomic = false) → 
    s.blk.inReset = false → ∃ t, exec (.millerAccessFault core addr size atomic) s = .next t ∧ t.blk.get .M_ERR_ADDR_ADDR core = addr % 2 ^ 64 ∧ t.blk.out = s.blk.out ++ [.coreFault core] ∧ t.blk.free = s.blk.free + 2 ∧ t.blk.mem = s.blk.mem ∧
    (∀ f i, ¬(f ∈ ([.M_ERR_STATUS, .M_ERR_CAUSE, .M_ERR_ADDR_ADDR] : List Fld) ∧ i = core) → t.blk.get f i = s.blk.get f i)) ∧
  (∀ (s : State) (core addr size : Nat) (atomic : Bool), (4 ≤ core ∨ ∀ i < max 1 size, coreMay core (addr + i) atomic = true) → 
    s.blk.inReset = false → ∃ t, exec (.millerAccessFault core addr size atomic) s = .next t ∧ t = s) ∧
  (∀ (s : State) (core addr size : Nat) (store : Bool) (data : List Byte) (strikes : List Strike), core < 4 → (s.blk.strike strikes).get .PART_GRANT_OWNER ((s.blk.strike strikes).get .M_PART_PART core) ≠ 2 → 
    s.blk.inReset = false → ∃ t, exec (.memoryWindowAccess core addr size store strikes data) s = .next t ∧ t.blk.get .M_ERR_STATUS core = stAddr ∧ t.blk.get .M_ERR_CAUSE core = 0xF7 ∧ t.blk.get .M_ERR_ADDR_ADDR core = (windowBase + addr % 2 ^ 60) % 2 ^ 64 ∧
    t.blk.mem = (s.blk.strike strikes).mem ∧ t.blk.out = (s.blk.strike strikes).out ++ [.coreFault core] ∧ t.blk.ms.accs = (s.blk.strike strikes).ms.accs) ∧
  (∀ (s : State) (core addr size p : Nat) (strikes : List Strike) (data : List Byte), core < 4 → (s.blk.strike strikes).get .PART_GRANT_OWNER p = 2 → p = (s.blk.strike strikes).get .M_PART_PART core → 
    s.blk.inReset = false → ∃ t, exec (.memoryWindowAccess core addr size false strikes data) s = .next t ∧ t.blk = ((s.blk.strike strikes).addAccess
      { id := 0, kind := (.load 0), who := .core core, part := p, die := 2, crit := false, todo := blockReqs (addr % 2 ^ 60) size, elems := [addr % 2 ^ 60], data := zeros size, bad := none }).serve) ∧
  (∀ (s : State) (core addr size p : Nat) (strikes : List Strike) (l : List Byte), core < 4 → (s.blk.strike strikes).get .PART_GRANT_OWNER p = 2 → p = (s.blk.strike strikes).get .M_PART_PART core → 
    s.blk.inReset = false → ∃ t, exec (.memoryWindowAccess core addr size true strikes l) s = .next t ∧ t.blk = ((s.blk.strike strikes).addAccess
      { id := 0, kind := .store, who := .core core, part := p, die := 2, crit := false, todo := storeReqs (addr % 2 ^ 60) l.length, elems := [addr % 2 ^ 60], data := l, bad := none }).serve) ∧
  (∀ (s : State) (core addr size : Nat) (store : Bool) (data : List Byte) (strikes : List Strike), 4 ≤ core → 
    s.blk.inReset = false → ∃ t, exec (.memoryWindowAccess core addr size store strikes data) s = .next t ∧ t.blk = (s.blk.strike strikes)) ∧
  (∀ (s : State) (core mask : Nat), core < 4 → 
    s.blk.inReset = false → ∃ t, exec (.svcMbRing core mask) s = .next t ∧ (∀ k < 4, (mask.testBit k = true → t.blk.bit .M_MB_CORE_SRC k core = true ∧ t.blk.bit .M_IRQ_PEND_LINES k 1 = true) ∧
      (mask.testBit k = false → t.blk.get .M_MB_CORE_SRC k = s.blk.get .M_MB_CORE_SRC k ∧ t.blk.get .M_IRQ_PEND_LINES k = s.blk.get .M_IRQ_PEND_LINES k)) ∧
    t.blk.mem = s.blk.mem ∧ (∀ f i, f ≠ .M_MB_CORE_SRC → f ≠ .M_IRQ_PEND_LINES → t.blk.get f i = s.blk.get f i)) ∧
  (∀ (s : State) (mask : Nat), 
    s.blk.inReset = false → ∃ t, exec (.h2mRing mask) s = .next t ∧ (∀ k < 4, (mask.testBit k = true → t.blk.bit .M_IRQ_PEND_LINES k 0 = true) ∧
      (mask.testBit k = false → t.blk.get .M_IRQ_PEND_LINES k = s.blk.get .M_IRQ_PEND_LINES k)) ∧ t.blk.mem = s.blk.mem ∧ (∀ f i, f ≠ .M_IRQ_PEND_LINES → t.blk.get f i = s.blk.get f i)) ∧
  (∀ (s : State) (core : Nat), core < 4 → 
    s.blk.inReset = false → ∃ t, exec (.m2hRing core) s = .next t ∧ t.blk.bit .M2H_PEND_CORE 0 core = true ∧ t.blk.mem = s.blk.mem ∧ (∀ f i, f ≠ .M2H_PEND_CORE → t.blk.get f i = s.blk.get f i) ∧
    ∀ k, k ≠ core → t.blk.bit .M2H_PEND_CORE 0 k = true → s.blk.bit .M2H_PEND_CORE 0 k = true) ∧
  (∀ (s : State) (core : Nat), core < 4 → s.blk.get .M_WD_LIMIT core ≠ 0 → Tab.get s.blk.svc.kicks core 0 + s.blk.get .M_WD_LIMIT core * 1024 ≤ s.blk.gmc → 
    s.blk.inReset = false → ∃ t, exec (.watchdogExpiry core) s = .next t ∧ t.blk.get .M_STATUS_WD_FIRED core = 1 ∧ t.blk.bit .M2H_PEND_CORE 0 core = true ∧ Tab.get t.blk.svc.kicks core 0 = s.blk.gmc ∧ t.blk.mem = s.blk.mem ∧
    (∀ f i, f.eventOwn = false → f ≠ .M_STATUS_WD_FIRED → f ≠ .M2H_PEND_CORE → t.blk.get f i = s.blk.get f i)) ∧
  (∀ (s : State) (core : Nat), (4 ≤ core ∨ s.blk.get .M_WD_LIMIT core = 0 ∨ s.blk.gmc < Tab.get s.blk.svc.kicks core 0 + s.blk.get .M_WD_LIMIT core * 1024) → 
    s.blk.inReset = false → ∃ t, exec (.watchdogExpiry core) s = .next t ∧ t = s) ∧
  (∀ (s : State) (core : Nat), core < 4 → s.blk.get .M_TIMECMP_COUNT core ≤ s.blk.gmc → 
    s.blk.inReset = false → ∃ t, exec (.machineTimerInterrupt core) s = .next t ∧ t.blk.out = s.blk.out ++ [.coreTimer core] ∧ t.blk.regs = s.blk.regs ∧ t.blk.mem = s.blk.mem) ∧
  (∀ (s : State) (core : Nat), (4 ≤ core ∨ s.blk.gmc < s.blk.get .M_TIMECMP_COUNT core) → 
    s.blk.inReset = false → ∃ t, exec (.machineTimerInterrupt core) s = .next t ∧ t = s) ∧
  (∀ (s : State) (core size : Nat) (write : Bool), 
    s.blk.inReset = false → ∃ t, exec (.tenterAccessTimeout core size write) s = .next t ∧ t.blk.get .TENT_TIMEOUTS_COUNT = (s.blk.get .TENT_TIMEOUTS_COUNT + 1) % 2 ^ 32 ∧
    t.blk.out = (if write then s.blk.out else s.blk.out ++ [.coreData core (List.replicate size 0xFF)]) ∧ t.blk.mem = s.blk.mem ∧ (∀ f i, f ≠ .TENT_TIMEOUTS_COUNT → t.blk.get f i = s.blk.get f i)) ∧
  (∀ (s : State), 
    s.blk.inReset = false → ∃ t, exec .userReset s = .next t ∧ t.blk.cfg = s.blk.cfg ∧ t.blk.get .TENT_CTRL_USER_RESET = 1 ∧ 0 < t.blk.svc.userHold ∧ t.blk.svc = { s.blk.svc with userHold := t.blk.svc.userHold, userPins := none } ∧
    t.blk.userLogic = false ∧ t.blk.mem = s.blk.mem ∧ (∀ f i, f.eventOwn = false → f ≠ .TENT_CTRL_USER_RESET → t.blk.get f i = s.blk.get f i)) ∧
  (∀ (s : State) (n : Nat), n < 8 → s.blk.userLogic = true → 
    s.blk.inReset = false → ∃ t, exec (.tenterUserInterrupt n) s = .next t ∧ (∀ k < 4, t.blk.bit .M_IRQ_PEND_LINES k (16 + n) = true) ∧ t.blk.mem = s.blk.mem ∧ (∀ f i, f ≠ .M_IRQ_PEND_LINES → t.blk.get f i = s.blk.get f i)) ∧
  (∀ (s : State) (n : Nat), (8 ≤ n ∨ s.blk.userLogic = false) → 
    s.blk.inReset = false → ∃ t, exec (.tenterUserInterrupt n) s = .next t ∧ t = s) ∧
  (∀ (s : State) (off : Nat) (data : List Byte) (hub : Option (Nat × List Byte)) (read : Option (Nat × Nat × Nat)), 
    s.blk.inReset = false → ∃ t, exec (.userPortWrite off data hub read) s = .next t ∧ (∀ i, (i < tenterBase ∨ tenterBase + 0x200000 ≤ i) → t.blk.byte i = s.blk.byte i) ∧ t.blk.regs = s.blk.regs ∧ t.blk.out = s.blk.out ++ (match read with | some (k, o, n) => [.coreData k (s.blk.readMem (tenterBase + o) n)] | none => []) ∧
    (s.blk.userLogic = true → ∀ i < data.length, off + i < 0x200000 → t.blk.byte (tenterBase + off + i) = data.getD i 0)) ∧
  (∀ (s : State) (off o : Nat) (data l : List Byte) (read : Option (Nat × Nat × Nat)), s.blk.userLogic = false → 
    s.blk.inReset = false → ∃ t, exec (.userPortWrite off data (some (o, l)) read) s = .next t ∧ (∀ i < l.length, o + i < 0x200000 → t.blk.byte (tenterBase + o + i) = l.getD i 0) ∧ exec (.userPortWrite off data none none) s = .next s)

/-- ETH_MODE_WRITE, ETH_LINK_CHANGE, PHC_STEP, PHC_SNAP, TX_TS_POP, FRAME_RECEIVE and FRAME_TRANSMIT. A change of the
Ethernet mode is taken only while no port is enabled. A link that changes on a live port sets its status and line 6 at
every core. PHC_STEP adds its signed value to the clock, PHC_SNAP takes the count and the clock of one cycle, TX_TS_POP
drops the head of the stamp FIFO. A frame received with an error or a wrong length is counted as such, one the filter
stops as filtered; another is counted and goes to its queue, as a service frame when it is one, or is dropped and
counted in replay. The entry at the head of a transmit queue is sent, stamped as flagged, and the head moves. (R580,
R783, R794, R795, R796, R797, R799, R800, R801, R805) -/
def Obligations.EthernetAndClock : Prop :=
  (∀ (s : State) (mode : Nat), mode % 2 ≠ s.blk.get .SVC_CTRL_ETH_MODE → (∀ p < 4, s.blk.on .ETH_CFG_ENABLE p = false) → 
    s.blk.inReset = false → ∃ t, exec (.ethModeWrite mode) s = .next t ∧ t.blk.get .SVC_CTRL_ETH_MODE = mode % 2 ∧ t.blk.mem = s.blk.mem ∧ (∀ f i, f ≠ .SVC_CTRL_ETH_MODE → t.blk.get f i = s.blk.get f i)) ∧
  (∀ (s : State) (mode : Nat), mode % 2 ≠ s.blk.get .SVC_CTRL_ETH_MODE → (∃ p < 4, s.blk.on .ETH_CFG_ENABLE p = true) → 
    s.blk.inReset = false → ∃ t, exec (.ethModeWrite mode) s = .next t ∧ t.blk.get .SVC_CTRL_MODE_REFUSED = 1 ∧ t.blk.get .SVC_CTRL_ETH_MODE = s.blk.get .SVC_CTRL_ETH_MODE ∧ (∀ f i, f ≠ .SVC_CTRL_MODE_REFUSED → t.blk.get f i = s.blk.get f i)) ∧
  (∀ (s : State) (mode : Nat), mode % 2 = s.blk.get .SVC_CTRL_ETH_MODE → 
    s.blk.inReset = false → ∃ t, exec (.ethModeWrite mode) s = .next t ∧ t = s) ∧
  (∀ (s : State) (port : Nat) (link fec : Bool), port < 4 → s.blk.on .ETH_STATUS_LINK port ≠ link → (link = true → s.blk.ethLive port = true) → 
    s.blk.inReset = false → ∃ t, exec (.ethLinkChange port link fec) s = .next t ∧ t.blk.on .ETH_STATUS_LINK port = link ∧ t.blk.on .ETH_STATUS_FEC_LOCK port = fec ∧ (∀ k < 4, t.blk.bit .M_IRQ_PEND_LINES k 6 = true) ∧ t.blk.mem = s.blk.mem ∧
    (∀ f i, f.eventOwn = false → ¬(f ∈ ([.ETH_STATUS_LINK, .ETH_STATUS_FEC_LOCK] : List Fld) ∧ i = port) → t.blk.get f i = s.blk.get f i)) ∧
  (∀ (s : State) (port : Nat) (link fec : Bool), (4 ≤ port ∨ s.blk.on .ETH_STATUS_LINK port = link ∨ (link = true ∧ s.blk.ethLive port = false)) → 
    s.blk.inReset = false → ∃ t, exec (.ethLinkChange port link fec) s = .next t ∧ t = s) ∧
  (∀ (s : State) (val : Nat), 
    s.blk.inReset = false → ∃ t, exec (.phcStep val) s = .next t ∧ t.blk.svc.phc = toW 96 ((s.blk.svc.phc : Int) + sext 64 val * 2 ^ 32) ∧ t.blk.gmc = s.blk.gmc ∧ t.blk.regs = s.blk.regs ∧ t.blk.mem = s.blk.mem) ∧
  (∀ (s : State), 
    s.blk.inReset = false → ∃ t, exec .phcSnap s = .next t ∧ t.blk.get .PHC_SNAP_GMC_COUNT = s.blk.gmc % 2 ^ 64 ∧ t.blk.get .PHC_SNAP_PTP_COUNT = s.blk.svc.phc / 2 ^ 32 % 2 ^ 64 ∧ t.blk.svc = s.blk.svc ∧ t.blk.mem = s.blk.mem ∧ (∀ f i, f ≠ .PHC_SNAP_GMC_COUNT → f ≠ .PHC_SNAP_PTP_COUNT → t.blk.get f i = s.blk.get f i)) ∧
  (∀ (s : State), 
    s.blk.inReset = false → ∃ t, exec .txTsPop s = .next t ∧ t.blk.svc = { s.blk.svc with stamps := s.blk.svc.stamps.drop 1 } ∧ t.blk.regs = s.blk.regs ∧ t.blk.mem = s.blk.mem) ∧
  (∀ (s : State) (port : Nat) (frame : List Byte) (good : Bool), s.blk.ethUp port = true → (good = false ∨ frame.length < 60 ∨ 9212 < frame.length) → 
    s.blk.inReset = false → ∃ t, exec (.frameReceive port frame good) s = .next t ∧ t.blk.get .ETH_COUNT_COUNT (port * 9 + 2) = (s.blk.get .ETH_COUNT_COUNT (port * 9 + 2) + 1) % 2 ^ Fld.ETH_COUNT_COUNT.desc.width ∧ t.blk.mem = s.blk.mem ∧
    (∀ f i, ¬(f = .ETH_COUNT_COUNT ∧ i = port * 9 + 2) → t.blk.get f i = s.blk.get f i)) ∧
  (∀ (s : State) (port : Nat) (frame : List Byte) (good : Bool), s.blk.ethUp port = true → good = true → 60 ≤ frame.length → frame.length ≤ 9212 → s.blk.filterPass port frame = false → 
    s.blk.inReset = false → ∃ t, exec (.frameReceive port frame good) s = .next t ∧ t.blk.get .ETH_COUNT_COUNT (port * 9 + 1) = (s.blk.get .ETH_COUNT_COUNT (port * 9 + 1) + 1) % 2 ^ Fld.ETH_COUNT_COUNT.desc.width ∧ t.blk.mem = s.blk.mem ∧
    (∀ f i, ¬(f = .ETH_COUNT_COUNT ∧ i = port * 9 + 1) → t.blk.get f i = s.blk.get f i)) ∧
  (∀ (s : State) (port : Nat) (frame : List Byte) (good : Bool), s.blk.ethUp port = true → good = true → 60 ≤ frame.length → frame.length ≤ 9212 → s.blk.filterPass port frame = true → isService (s.blk.get .SVC_UDP_PORT) frame = false → 
    s.blk.inReset = false → ∃ t, exec (.frameReceive port frame good) s = .next t ∧ t.blk = (s.blk.ethCount port 0).takeGeneral port frame) ∧
  (∀ (s : State) (port : Nat) (frame : List Byte) (good : Bool), s.blk.ethUp port = true → good = true → 60 ≤ frame.length → frame.length ≤ 9212 → s.blk.filterPass port frame = true → isService (s.blk.get .SVC_UDP_PORT) frame = true → ¬(svField frame 0 4 = svMagic ∧ s.blk.replayOn (svPart frame) = true ∧ s.blk.get .PART_GRANT_OWNER (svPart frame) = 2) → 
    s.blk.inReset = false → ∃ t, exec (.frameReceive port frame good) s = .next t ∧ t.blk = (s.blk.ethCount port 0).takeService port frame s.blk.gmc false) ∧
  (∀ (s : State) (port : Nat) (frame : List Byte) (good : Bool), s.blk.ethUp port = true → good = true → 60 ≤ frame.length → frame.length ≤ 9212 → s.blk.filterPass port frame = true → isService (s.blk.get .SVC_UDP_PORT) frame = true → svField frame 0 4 = svMagic → s.blk.replayOn (svPart frame) = true → s.blk.get .PART_GRANT_OWNER (svPart frame) = 2 → 
    s.blk.inReset = false → ∃ t, exec (.frameReceive port frame good) s = .next t ∧ t.blk = (s.blk.ethCount port 0).bump .REPLAY_DROPPED_COUNT (svPart frame)) ∧
  (∀ (s : State) (port : Nat) (frame : List Byte) (good : Bool), s.blk.ethUp port = false → 
    s.blk.inReset = false → ∃ t, exec (.frameReceive port frame good) s = .next t ∧ t = s ∧ exec (.frameTransmit port) s = .next s) ∧
  (∀ (s : State) (port : Nat) (e f : List Byte) (b b2 : Block), s.blk.ethUp port = true → s.blk.on .TXQ_CFG_ENABLE port = true → s.blk.qUsed (txQ port) ≠ 0 → s.blk.hubRead (s.blk.qCore (txQ port)) (s.blk.qEntry (txQ port) 16 (s.blk.get .TXQ_HEAD_INDEX port)) 16 = (e, b) → 60 ≤ fieldAt e 4 2 → fieldAt e 4 2 ≤ 9212 → b.hubRead (s.blk.qCore (txQ port)) (fieldAt e 0 4) (fieldAt e 4 2) = (f, b2) → 
    s.blk.inReset = false → ∃ t, exec (.frameTransmit port) s = .next t ∧ t.blk = (if ((fieldAt e 6 1).testBit 0 || ((fieldAt e 6 1).testBit 1 && !((fieldAt e 6 1).testBit 1 && ptpSync f (fieldAt e 7 1)))) = true then (b2.sendFrame port (if ((fieldAt e 6 1).testBit 1 && ptpSync f (fieldAt e 7 1)) = true then oneStep f (fieldAt e 7 1) b2.ptp ((fieldAt e 6 1).testBit 2) else f)).pushStamp port (fieldAt e 8 4)
      else (b2.sendFrame port (if ((fieldAt e 6 1).testBit 1 && ptpSync f (fieldAt e 7 1)) = true then oneStep f (fieldAt e 7 1) b2.ptp ((fieldAt e 6 1).testBit 2) else f))).set .TXQ_HEAD_INDEX port (s.blk.get .TXQ_HEAD_INDEX port + 1)) ∧
  (∀ (s : State) (port : Nat) (e : List Byte) (b : Block), s.blk.ethUp port = true → s.blk.on .TXQ_CFG_ENABLE port = true → s.blk.qUsed (txQ port) ≠ 0 → s.blk.hubRead (s.blk.qCore (txQ port)) (s.blk.qEntry (txQ port) 16 (s.blk.get .TXQ_HEAD_INDEX port)) 16 = (e, b) → (fieldAt e 4 2 < 60 ∨ 9212 < fieldAt e 4 2) → 
    s.blk.inReset = false → ∃ t, exec (.frameTransmit port) s = .next t ∧ t.blk = b.set .TXQ_HEAD_INDEX port (s.blk.get .TXQ_HEAD_INDEX port + 1))

/-- SWEEP and SWEEP_WAIT_EXPIRY complete: sweeps collected, rejected, handed to the Hopper or dropped. The planning service
takes the oldest frame of its partition's mailbox when it is a SWEEP, and else does nothing; every case of that is here.
A malformed SWEEP is rejected with BAD_PAYLOAD, one not newer than its stream's last as STALE. A SWEEP of one fragment,
or the fragment that completes one, makes the service post its descriptors (or reject it with BUSY); another fragment
waits for the rest. SWEEP_WAIT_EXPIRY drops the oldest sweep that has waited its time and rejects it as INCOMPLETE, and
does nothing while none has. (R809, R810, R811) -/
def Obligations.SweepService : Prop :=
  (∀ (s : State) (p at_ port : Nat) (f : List Byte) (core ring : Nat) (descs : List (List Byte)), s.blk.mailHead p = some (at_, port, f) → svType f = 1 → sweepOk f = false → 
    s.blk.inReset = false → ∃ t, exec (.sweep p core ring descs) s = .next t ∧ t.blk = (s.blk.mailTake p).sendReject port f rjPayload) ∧
  (∀ (s : State) (p at_ port : Nat) (f : List Byte) (core ring : Nat) (descs : List (List Byte)), s.blk.mailHead p = some (at_, port, f) → svType f = 1 → sweepOk f = true → ((s.blk.mailTake p).svc.sweeps.find? fun (x : Sweep) => x.part == p && ofMessage f x.src x.stream x.seq) = none → (s.blk.mailTake p).newer p f = true → svParts f = 1 → 
    s.blk.inReset = false → ∃ t, exec (.sweep p core ring descs) s = .next t ∧ t.blk = ((s.blk.mailTake p).noteSeq p f).sweepDone port f p core ring descs) ∧
  (∀ (s : State) (p at_ port : Nat) (f : List Byte) (core ring : Nat) (descs : List (List Byte)), s.blk.mailHead p = some (at_, port, f) → svType f = 1 → sweepOk f = true → ((s.blk.mailTake p).svc.sweeps.find? fun (x : Sweep) => x.part == p && ofMessage f x.src x.stream x.seq) = none → (s.blk.mailTake p).newer p f = true → svParts f ≠ 1 → 
    s.blk.inReset = false → ∃ t, exec (.sweep p core ring descs) s = .next t ∧ t.blk.svc.sweeps = s.blk.svc.sweeps ++ [{ part := p, src := frIpSrc f, stream := svStream f, seq := svSeq f, parts := svParts f, got := [svPartNo f], since := s.blk.gmc, port := port, frame := f }] ∧
    t.blk.out = s.blk.out ∧ t.blk.mem = s.blk.mem) ∧
  (∀ (s : State) (p at_ port : Nat) (f : List Byte) (core ring : Nat) (descs : List (List Byte)), s.blk.mailHead p = some (at_, port, f) → svType f = 1 → sweepOk f = true → ((s.blk.mailTake p).svc.sweeps.find? fun (x : Sweep) => x.part == p && ofMessage f x.src x.stream x.seq) = none → (s.blk.mailTake p).newer p f = false → 
    s.blk.inReset = false → ∃ t, exec (.sweep p core ring descs) s = .next t ∧ t.blk = (s.blk.mailTake p).sendReject port f rjStale) ∧
  (∀ (s : State) (p at_ port : Nat) (f : List Byte) (core ring : Nat) (descs : List (List Byte)) (x : Sweep), s.blk.mailHead p = some (at_, port, f) → svType f = 1 → sweepOk f = true → ((s.blk.mailTake p).svc.sweeps.find? fun (x : Sweep) => x.part == p && ofMessage f x.src x.stream x.seq) = some x → x.parts ≤ (if svPartNo f ∈ x.got then x.got else x.got ++ [svPartNo f]).length → 
    s.blk.inReset = false → ∃ t, exec (.sweep p core ring descs) s = .next t ∧ t.blk = ((s.blk.mailTake p).dropSweep p f).sweepDone port f p core ring descs) ∧
  (∀ (s : State) (p at_ port : Nat) (f : List Byte) (core ring : Nat) (descs : List (List Byte)) (x : Sweep), s.blk.mailHead p = some (at_, port, f) → svType f = 1 → sweepOk f = true → ((s.blk.mailTake p).svc.sweeps.find? fun (x : Sweep) => x.part == p && ofMessage f x.src x.stream x.seq) = some x → (if svPartNo f ∈ x.got then x.got else x.got ++ [svPartNo f]).length < x.parts → 
    s.blk.inReset = false → ∃ t, exec (.sweep p core ring descs) s = .next t ∧ t.blk.svc.sweeps = s.blk.svc.sweeps.map (fun (y : Sweep) => if y = x then { x with got := if svPartNo f ∈ x.got then x.got else x.got ++ [svPartNo f] } else y) ∧ t.blk.out = s.blk.out) ∧
  (∀ (s : State) (p wait : Nat) (x : Sweep), (s.blk.svc.sweeps.find? fun (x : Sweep) => x.part == p && decide (x.since + wait ≤ s.blk.gmc)) = some x → 
    s.blk.inReset = false → ∃ t, exec (.sweepWaitExpiry p wait) s = .next t ∧ t.blk = ({ s.blk with svc := { s.blk.svc with sweeps := s.blk.svc.sweeps.erase x } } : Block).sendReject x.port x.frame rjIncomplete) ∧
  (∀ (s : State) (p wait : Nat), (∀ x ∈ s.blk.svc.sweeps, x.part = p → s.blk.gmc < x.since + wait) → 
    s.blk.inReset = false → ∃ t, exec (.sweepWaitExpiry p wait) s = .next t ∧ t = s) ∧
  (∀ (s : State) (p core ring : Nat) (descs : List (List Byte)), (∀ x, s.blk.mailHead p = some x → svType x.2.2 ≠ 1) → exec (.sweep p core ring descs) s = .next s)

/-- PLAN_REQ, TELEMETRY and STATUS_REQ complete: the answers of the planning and ageing services. A service takes the oldest
frame of its partition's mailbox when it is of its type, and else does nothing; every case of that is here. A PLAN_REQ
is answered with one PLAN: a planned one is kept with its window, from T_START to the earliest of the ends; a malformed
one is REFUSED. A malformed TELEMETRY is rejected with BAD_PAYLOAD, one not newer than its stream's last as STALE; the
last fragment of a history is answered with one SOH, INCOMPLETE when a fragment is missing, and any other is kept. A
STATUS_REQ is answered with the 32 bytes of the telemetry record. (R809, R810, R812, R813, R816) -/
def Obligations.PlanningAndAgeingServices : Prop :=
  (∀ (s : State) (p at_ port : Nat) (f : List Byte) (a : PlanAnswer), s.blk.mailHead p = some (at_, port, f) → svType f = 2 → (planReqOk f = false ∨ a.outcome % 4 ≠ 0) → 
    s.blk.inReset = false → ∃ t, exec (.planReq p a) s = .next t ∧ t.blk = ((s.blk.mailTake p).noteSeq p f).sendMessage port f 0x03 a.stream a.seq
      (planBody (fieldAt (svBody f) 0 4) (if planReqOk f then a.outcome % 4 else 3) (fieldAt (svBody f) 7 1) 0 a.validFrom a.validUntil a.epoch a.minClear a.mark [])) ∧
  (∀ (s : State) (p at_ port : Nat) (f : List Byte) (a : PlanAnswer), s.blk.mailHead p = some (at_, port, f) → svType f = 2 → planReqOk f = true → a.outcome % 4 = 0 → 
    s.blk.inReset = false → ∃ t, exec (.planReq p a) s = .next t ∧ (∃ x ∈ t.blk.svc.plans, x.part = p ∧ x.request = fieldAt (svBody f) 0 4 ∧ x.start = fieldAt (svBody f) 0x10 8 ∧ x.until_ = (min (fieldAt (svBody f) 0x10 8 + a.span) (min a.sliceEnd (fieldAt (svBody f) 0x10 8 + fieldAt a.knots (knotSize (fieldAt (svBody f) 7 1) * (a.knots.length / knotSize (fieldAt (svBody f) 7 1) - 1)) 4 * 1000)))) ∧
    t.blk.get .SVCQ_HEAD_INDEX p = (s.blk.get .SVCQ_HEAD_INDEX p + 1) % 2 ^ Fld.SVCQ_HEAD_INDEX.desc.width ∧ t.blk.mem = s.blk.mem) ∧
  (∀ (s : State) (p at_ port : Nat) (f : List Byte) (a : SohAnswer), s.blk.mailHead p = some (at_, port, f) → svType f = 4 → telemetryOk f = false → 
    s.blk.inReset = false → ∃ t, exec (.telemetry p a) s = .next t ∧ t.blk = (s.blk.mailTake p).sendReject port f rjPayload) ∧
  (∀ (s : State) (p at_ port : Nat) (f : List Byte) (a : SohAnswer) (o : Option Pack), s.blk.mailHead p = some (at_, port, f) → svType f = 4 → telemetryOk f = true → o = (s.blk.svc.packs.find? fun (x : Pack) => x.part == p && x.src == frIpSrc f && x.pack == fieldAt (svBody f) 0 8 && x.stream == svStream f) → (o = none ∨ ∃ x, o = some x ∧ x.seq ≠ svSeq f) → (s.blk.mailTake p).newer p f = false → 
    s.blk.inReset = false → ∃ t, exec (.telemetry p a) s = .next t ∧ t.blk = (s.blk.mailTake p).sendReject port f rjStale) ∧
  (∀ (s : State) (p at_ port : Nat) (f : List Byte) (a : SohAnswer) (o : Option Pack), s.blk.mailHead p = some (at_, port, f) → svType f = 4 → telemetryOk f = true → o = (s.blk.svc.packs.find? fun (x : Pack) => x.part == p && x.src == frIpSrc f && x.pack == fieldAt (svBody f) 0 8 && x.stream == svStream f) → ((∃ x, o = some x ∧ x.seq = svSeq f) ∨ (s.blk.mailTake p).newer p f = true) → ¬((fieldAt (svBody f) 0x14 1).testBit 0 = true ∧ svPartNo f + 1 = svParts f) → 
    s.blk.inReset = false → ∃ t, exec (.telemetry p a) s = .next t ∧ Pack.add o p f ∈ t.blk.svc.packs ∧ t.blk.out = s.blk.out ∧ t.blk.mem = s.blk.mem) ∧
  (∀ (s : State) (p at_ port : Nat) (f : List Byte) (a : SohAnswer) (o : Option Pack), s.blk.mailHead p = some (at_, port, f) → svType f = 4 → telemetryOk f = true → o = (s.blk.svc.packs.find? fun (x : Pack) => x.part == p && x.src == frIpSrc f && x.pack == fieldAt (svBody f) 0 8 && x.stream == svStream f) → ((∃ x, o = some x ∧ x.seq = svSeq f) ∨ (s.blk.mailTake p).newer p f = true) → (fieldAt (svBody f) 0x14 1).testBit 0 = true → svPartNo f + 1 = svParts f → 
    s.blk.inReset = false → ∃ t, exec (.telemetry p a) s = .next t ∧ t.blk = ({ ((s.blk.mailTake p).noteSeq p f) with svc := { ((s.blk.mailTake p).noteSeq p f).svc with packs := ((s.blk.mailTake p).noteSeq p f).svc.packs.filter fun (y : Pack) => !(y.part == p && y.src == frIpSrc f && y.pack == fieldAt (svBody f) 0 8 && y.stream == svStream f) } } : Block).sendMessage port f 0x05 a.stream a.seq
      (sohBody (fieldAt (svBody f) 0 8) (svSeq f) (if (Pack.add o p f).missing = true ∨ (Pack.add o p f).got.length < (Pack.add o p f).parts then 1 else if a.outcome % 4 = 1 then 3 else a.outcome % 4) a)) ∧
  (∀ (s : State) (p at_ port : Nat) (f : List Byte) (stream seq : Nat), s.blk.mailHead p = some (at_, port, f) → svType f = 6 → 
    s.blk.inReset = false → ∃ t, exec (.statusReq p stream seq) s = .next t ∧ t.blk = ((s.blk.mailTake p).noteSeq p f).sendMessage port f 0x07 stream seq s.blk.telemetry ∧ s.blk.telemetry.length = 32) ∧
  (∀ (s : State) (p : Nat) (a : PlanAnswer), (∀ x, s.blk.mailHead p = some x → svType x.2.2 ≠ 2) → exec (.planReq p a) s = .next s) ∧
  (∀ (s : State) (p : Nat) (a : SohAnswer), (∀ x, s.blk.mailHead p = some x → svType x.2.2 ≠ 4) → exec (.telemetry p a) s = .next s) ∧
  (∀ (s : State) (p : Nat) (stream seq : Nat), (∀ x, s.blk.mailHead p = some x → svType x.2.2 ≠ 6) → exec (.statusReq p stream seq) s = .next s)

/-- GET_IDENTITY, READ_REG, WRITE_REG, GET_TELEMETRY and RELOAD over MCTP complete. On a binding that takes messages each of
the five commands completes, whatever its operands: the next state holds the answer on that binding, with the header,
TAG and STATUS of the Oszoed type. GET_IDENTITY, READ_REG and GET_TELEMETRY give their data; READ_REG of a block that is
not ready is NOT_READY; WRITE_REG writes when enabled and within its three blocks and else is DENIED; a bad width or
offset is BAD_ARGUMENT. RELOAD starts a sequence anew in a halted or retrying package, with its key resets a released
one, and else is NOT_READY. A message on a binding that takes none changes nothing, and the last clause says which
binding takes messages when. (R223, R224, R227, R228, R233) -/
def Obligations.OszoedMessages : Prop :=
  (∀ (s : State) (via : Binding) (tag : Nat), s.blk.mctpUp via = true → 
    s.blk.inReset = false → ∃ t, exec (.getIdentity via tag) s = .next t ∧ t.blk = s.blk.respond via ([0x7E, 0x1F, 0xA2, 0x01, 0x01, 0x01] ++ leBytes 2 tag ++ [0, 0, 0, 0] ++ 
      (leBytes 4 (s.blk.word 0x0) ++ leBytes 4 (s.blk.word 0x4) ++ (leBytes 4 (s.blk.word 0x8) ++ leBytes 4 (s.blk.word 0xC)) ++ (leBytes 4 (s.blk.word 0x10008) ++
        leBytes 4 (s.blk.word 0x1000C)) ++ (leBytes 4 (s.blk.word 0x10010) ++ leBytes 4 (s.blk.word 0x10014)) ++ leBytes 4 (s.blk.word 0x10000)))) ∧
  (∀ (s : State) (via : Binding) (tag : Nat) (off width : Nat), s.blk.mctpUp via = true → (width = 4 ∨ width = 8) → off + width ≤ 0x1000000 → s.blk.notReady off = false → 
    s.blk.inReset = false → ∃ t, exec (.readReg via tag off width) s = .next t ∧ t.blk = (s.blk.readSetup .mctp off width).2.respond via ([0x7E, 0x1F, 0xA2, 0x01, 0x02, 0x01] ++ leBytes 2 tag ++ [0, 0, 0, 0] ++ leBytes 8 (s.blk.readSetup .mctp off width).1)) ∧
  (∀ (s : State) (via : Binding) (tag : Nat) (off width : Nat), s.blk.mctpUp via = true → (width = 4 ∨ width = 8) → off + width ≤ 0x1000000 → s.blk.notReady off = true → 
    s.blk.inReset = false → ∃ t, exec (.readReg via tag off width) s = .next t ∧ t.blk = s.blk.respond via ([0x7E, 0x1F, 0xA2, 0x01, 0x02, 0x01] ++ leBytes 2 tag ++ [7, 0, 0, 0])) ∧
  (∀ (s : State) (via : Binding) (tag : Nat) (off width : Nat), s.blk.mctpUp via = true → (width ≠ 4 ∧ width ≠ 8 ∨ 0x1000000 < off + width) → 
    s.blk.inReset = false → ∃ t, exec (.readReg via tag off width) s = .next t ∧ t.blk = s.blk.respond via ([0x7E, 0x1F, 0xA2, 0x01, 0x02, 0x01] ++ leBytes 2 tag ++ [3, 0, 0, 0])) ∧
  (∀ (s : State) (via : Binding) (tag : Nat) (off width val : Nat), s.blk.mctpUp via = true → (width = 4 ∨ width = 8) → off + width ≤ 0x1000000 → s.blk.get .GLOBAL_CTRL_MCTP_WR_EN = 1 → (0x10000 ≤ off ∧ off < 0x10300 ∨ 0x20000 ≤ off ∧ off < 0x20200 ∨ 0x30000 ≤ off ∧ off < 0x30200) → 
    s.blk.inReset = false → ∃ t, exec (.writeReg via tag off width val) s = .next t ∧ t.blk = (s.blk.respond via ([0x7E, 0x1F, 0xA2, 0x01, 0x03, 0x01] ++ leBytes 2 tag ++ [0, 0, 0, 0])).writeSetup .mctp off width val 0 0) ∧
  (∀ (s : State) (via : Binding) (tag : Nat) (off width val : Nat), s.blk.mctpUp via = true → (s.blk.get .GLOBAL_CTRL_MCTP_WR_EN = 0 ∨ ¬(0x10000 ≤ off ∧ off < 0x10300 ∨ 0x20000 ≤ off ∧ off < 0x20200 ∨ 0x30000 ≤ off ∧ off < 0x30200)) → 
    s.blk.inReset = false → ∃ t, exec (.writeReg via tag off width val) s = .next t ∧ t.blk = s.blk.respond via ([0x7E, 0x1F, 0xA2, 0x01, 0x03, 0x01] ++ leBytes 2 tag ++ [4, 0, 0, 0])) ∧
  (∀ (s : State) (via : Binding) (tag : Nat) (off width val : Nat), s.blk.mctpUp via = true → s.blk.get .GLOBAL_CTRL_MCTP_WR_EN = 1 → (0x10000 ≤ off ∧ off < 0x10300 ∨ 0x20000 ≤ off ∧ off < 0x20200 ∨ 0x30000 ≤ off ∧ off < 0x30200) → (width ≠ 4 ∧ width ≠ 8 ∨ 0x1000000 < off + width) → 
    s.blk.inReset = false → ∃ t, exec (.writeReg via tag off width val) s = .next t ∧ t.blk = s.blk.respond via ([0x7E, 0x1F, 0xA2, 0x01, 0x03, 0x01] ++ leBytes 2 tag ++ [3, 0, 0, 0])) ∧
  (∀ (s : State) (via : Binding) (tag : Nat), s.blk.mctpUp via = true → 
    s.blk.inReset = false → ∃ t, exec (.getTelemetry via tag) s = .next t ∧ t.blk = s.blk.respond via ([0x7E, 0x1F, 0xA2, 0x01, 0x10, 0x01] ++ leBytes 2 tag ++ [0, 0, 0, 0] ++ s.blk.telemetry) ∧ s.blk.telemetry.length = 32) ∧
  (∀ (s : State) (via : Binding) (tag : Nat) (key : Nat), s.blk.mctpUp via = true → s.blk.pwr.released = true → key = 0x7A11 → 
    s.blk.inReset = false → ∃ t, exec (.reload via tag key) s = .next t ∧ t.blk = (s.blk.respond via ([0x7E, 0x1F, 0xA2, 0x01, 0x30, 0x01] ++ leBytes 2 tag ++ [0, 0, 0, 0])).registerReset false) ∧
  (∀ (s : State) (via : Binding) (tag : Nat) (key : Nat), s.blk.mctpUp via = true → s.blk.pwr.released = true → key ≠ 0x7A11 → 
    s.blk.inReset = false → ∃ t, exec (.reload via tag key) s = .next t ∧ t.blk = s.blk.respond via ([0x7E, 0x1F, 0xA2, 0x01, 0x30, 0x01] ++ leBytes 2 tag ++ [3, 0, 0, 0])) ∧
  (∀ (s : State) (via : Binding) (tag : Nat) (key : Nat), s.blk.mctpUp via = true → s.blk.pwr.released = false → (s.blk.cfg.phase = .halted ∨ s.blk.cfg.retrying = true) → 
    s.blk.inReset = false → ∃ t, exec (.reload via tag key) s = .next t ∧ t.blk.cfg.phase = .attempt 0 ∧ t.blk.cfg.image = [] ∧ t.blk.cfg.nvm = s.blk.cfg.nvm ∧ t.blk.mem = s.blk.mem ∧ t.blk.regs = s.blk.regs ∧
    (via ≠ .tap → t.blk.out = s.blk.out ++ packets (bindingNo via) ([0x7E, 0x1F, 0xA2, 0x01, 0x30, 0x01] ++ leBytes 2 tag ++ [0, 0, 0, 0]))) ∧
  (∀ (s : State) (via : Binding) (tag : Nat) (key : Nat), s.blk.mctpUp via = true → s.blk.pwr.released = false → s.blk.cfg.phase ≠ .halted → s.blk.cfg.retrying = false → 
    s.blk.inReset = false → ∃ t, exec (.reload via tag key) s = .next t ∧ t.blk = s.blk.respond via ([0x7E, 0x1F, 0xA2, 0x01, 0x30, 0x01] ++ leBytes 2 tag ++ [7, 0, 0, 0])) ∧
  (∀ (s : State) (via : Binding) (tag : Nat), s.blk.mctpUp via = false →
    exec (.getIdentity via tag) s = .next s) ∧
  (∀ (s : State) (via : Binding) (tag off width : Nat), s.blk.mctpUp via = false →
    exec (.readReg via tag off width) s = .next s) ∧
  (∀ (s : State) (via : Binding) (tag off width val : Nat), s.blk.mctpUp via = false →
    exec (.writeReg via tag off width val) s = .next s) ∧
  (∀ (s : State) (via : Binding) (tag : Nat), s.blk.mctpUp via = false →
    exec (.getTelemetry via tag) s = .next s) ∧
  (∀ (s : State) (via : Binding) (tag key : Nat), s.blk.mctpUp via = false →
    exec (.reload via tag key) s = .next s) ∧
  (∀ (s : State) (via : Binding), s.blk.mctpUp via = true ↔ s.blk.pwr.mainUp = true ∧ s.blk.pwr.perst = true ∧
    ((via = .vdm ∧ s.blk.get .GLOBAL_CTRL_VDM_EN ≠ 0 ∧ s.blk.get .HOST_LINK_RATE ≠ 0 ∧ s.blk.cfg.phase ≠ .halted) ∨
      (via = .i2c ∧ s.blk.get .GLOBAL_CTRL_SMBUS_EN ≠ 0) ∨ (via = .tap ∧ s.blk.get .GLOBAL_CTRL_SMBUS_EN ≠ 0 ∧ s.blk.cfg.tap = 0x20)))

/-- SLOT_BEGIN, SLOT_WRITE, SLOT_COMMIT, SLOT_ERASE and SLOT_VERIFY over MCTP complete. On a binding that takes messages
each of the five slot commands completes, whatever its operands, with an answer on that binding. SLOT_BEGIN erases a
slot and opens a session; SLOT_WRITE programs the next bytes and no others, one at any other offset is OUT_OF_ORDER, one
past the session's length or of no allowed size BAD_ARGUMENT, one too long TOO_LONG, and each received one starts the
session's time over; SLOT_COMMIT seals the slot, before its last byte it is OUT_OF_ORDER; SLOT_ERASE and SLOT_VERIFY act
while no operation runs. Another operation makes a slot command BUSY with SLOT_BADREQ set. On a binding that takes none,
nothing changes. (R173, R175, R224, R227, R229, R230, R231) -/
def Obligations.SlotMessages : Prop :=
  (∀ (s : State) (via : Binding) (tag : Nat) (slot length : Nat), s.blk.mctpUp via = true → slot < 2 → s.blk.slotBusy = false → s.blk.slotInUse slot = false → length ≤ Config.slotBytes → 
    s.blk.inReset = false → ∃ t, exec (.slotBegin via tag slot length) s = .next t ∧ t.blk.cfg.session = some { slot := slot, length := length, next := 0, since := s.blk.pwr.now } ∧ t.blk.slotState slot = slotWriting ∧ t.blk.mem = s.blk.mem ∧ t.blk.regs = s.blk.regs ∧
    (∀ a, slotBase slot ≤ a → a < slotBase slot + Config.slotBytes → Mem.byte 0xFF t.blk.cfg.nvm a = 0xFF) ∧
    (via ≠ .tap → t.blk.out = s.blk.out ++ packets (bindingNo via) ([0x7E, 0x1F, 0xA2, 0x01, 0x20, 0x01] ++ leBytes 2 tag ++ [0, 0, 0, 0]))) ∧
  (∀ (s : State) (via : Binding) (tag : Nat) (slot length : Nat), s.blk.mctpUp via = true → slot < 2 → s.blk.slotBusy = true → length ≤ Config.slotBytes → 
    s.blk.inReset = false → ∃ t, exec (.slotBegin via tag slot length) s = .next t ∧ t.blk = (s.blk.set .SLOT_CTRL_SLOT_BADREQ 0 1).respond via ([0x7E, 0x1F, 0xA2, 0x01, 0x20, 0x01] ++ leBytes 2 tag ++ [1, 0, 0, 0])) ∧
  (∀ (s : State) (via : Binding) (tag : Nat) (slot length : Nat), s.blk.mctpUp via = true → slot < 2 → s.blk.slotBusy = false → s.blk.slotInUse slot = true → length ≤ Config.slotBytes → 
    s.blk.inReset = false → ∃ t, exec (.slotBegin via tag slot length) s = .next t ∧ t.blk = (s.blk.set .SLOT_CTRL_SLOT_BADREQ 0 1).respond via ([0x7E, 0x1F, 0xA2, 0x01, 0x20, 0x01] ++ leBytes 2 tag ++ [4, 0, 0, 0])) ∧
  (∀ (s : State) (via : Binding) (tag : Nat) (slot length : Nat), s.blk.mctpUp via = true → (2 ≤ slot ∨ Config.slotBytes < length) → 
    s.blk.inReset = false → ∃ t, exec (.slotBegin via tag slot length) s = .next t ∧ t.blk = s.blk.respond via ([0x7E, 0x1F, 0xA2, 0x01, 0x20, 0x01] ++ leBytes 2 tag ++ [3, 0, 0, 0])) ∧
  (∀ (s : State) (via : Binding) (tag : Nat) (off : Nat) (data : List Byte) (x : SlotSession), s.blk.mctpUp via = true → s.blk.cfg.session = some x → 0 < data.length → data.length ≤ 1024 → off = x.next → off + data.length ≤ x.length → s.blk.slotInUse x.slot = false → 
    s.blk.inReset = false → ∃ t, exec (.slotWrite via tag off data) s = .next t ∧ t.blk.cfg.session = some { x with next := off + data.length, since := s.blk.pwr.now } ∧ t.blk.mem = s.blk.mem ∧ t.blk.regs = s.blk.regs ∧
    (∀ i < data.length, Mem.byte 0xFF t.blk.cfg.nvm (slotBase x.slot + off + i) = Mem.byte 0xFF s.blk.cfg.nvm (slotBase x.slot + off + i) &&& data.getD i 0) ∧
    (∀ a, (a < slotBase x.slot + off ∨ slotBase x.slot + off + data.length ≤ a) → Mem.byte 0xFF t.blk.cfg.nvm a = Mem.byte 0xFF s.blk.cfg.nvm a) ∧
    (via ≠ .tap → t.blk.out = s.blk.out ++ packets (bindingNo via) ([0x7E, 0x1F, 0xA2, 0x01, 0x21, 0x01] ++ leBytes 2 tag ++ [0, 0, 0, 0]))) ∧
  (∀ (s : State) (via : Binding) (tag : Nat) (off : Nat) (data : List Byte), s.blk.mctpUp via = true → 0 < data.length → data.length ≤ 1024 → (∀ x, s.blk.cfg.session = some x → off ≠ x.next) → 
    s.blk.inReset = false → ∃ t, exec (.slotWrite via tag off data) s = .next t ∧ t.blk = s.blk.sessionHeard.respond via ([0x7E, 0x1F, 0xA2, 0x01, 0x21, 0x01] ++ leBytes 2 tag ++ [5, 0, 0, 0])) ∧
  (∀ (s : State) (via : Binding) (tag : Nat) (off : Nat) (data : List Byte) (x : SlotSession), s.blk.mctpUp via = true → s.blk.cfg.session = some x → 0 < data.length → data.length ≤ 1024 → off = x.next → x.length < off + data.length → 
    s.blk.inReset = false → ∃ t, exec (.slotWrite via tag off data) s = .next t ∧ t.blk = s.blk.sessionHeard.respond via ([0x7E, 0x1F, 0xA2, 0x01, 0x21, 0x01] ++ leBytes 2 tag ++ [3, 0, 0, 0])) ∧
  (∀ (s : State) (via : Binding) (tag : Nat) (off : Nat) (data : List Byte), s.blk.mctpUp via = true → 1068 < data.length → 
    s.blk.inReset = false → ∃ t, exec (.slotWrite via tag off data) s = .next t ∧ t.blk = s.blk.sessionHeard.respond via ([0x7E, 0x1F, 0xA2, 0x01, 0x21, 0x01] ++ leBytes 2 tag ++ [6, 0, 0, 0])) ∧
  (∀ (s : State) (via : Binding) (tag : Nat) (off : Nat) (data : List Byte), s.blk.mctpUp via = true → (data.length = 0 ∨ 1024 < data.length) → data.length ≤ 1068 → 
    s.blk.inReset = false → ∃ t, exec (.slotWrite via tag off data) s = .next t ∧ t.blk = s.blk.sessionHeard.respond via ([0x7E, 0x1F, 0xA2, 0x01, 0x21, 0x01] ++ leBytes 2 tag ++ [3, 0, 0, 0])) ∧
  (∀ (s : State), s.blk.sessionHeard.cfg.session = s.blk.cfg.session.map (fun x => { x with since := s.blk.pwr.now }) ∧ s.blk.sessionHeard.cfg.nvm = s.blk.cfg.nvm ∧ s.blk.sessionHeard.regs = s.blk.regs ∧
    s.blk.sessionHeard.mem = s.blk.mem ∧ s.blk.sessionHeard.out = s.blk.out) ∧
  (∀ (s : State) (via : Binding) (tag : Nat) (x : SlotSession), s.blk.mctpUp via = true → s.blk.cfg.session = some x → x.slot < 2 → x.length ≤ x.next → x.length < 2 ^ 32 → 
    s.blk.inReset = false → ∃ t, exec (.slotCommit via tag) s = .next t ∧ t.blk.cfg.session = none ∧ t.blk.slotState x.slot = slotValid ∧ t.blk.slotLen x.slot = x.length ∧ t.blk.slotGen x.slot = (s.blk.slotGen x.slot + 1) % 2 ^ 32 ∧ t.blk.mem = s.blk.mem) ∧
  (∀ (s : State) (via : Binding) (tag : Nat), s.blk.mctpUp via = true → (∀ x, s.blk.cfg.session = some x → x.next < x.length) → 
    s.blk.inReset = false → ∃ t, exec (.slotCommit via tag) s = .next t ∧ t.blk = s.blk.respond via ([0x7E, 0x1F, 0xA2, 0x01, 0x22, 0x01] ++ leBytes 2 tag ++ [5, 0, 0, 0])) ∧
  (∀ (s : State) (via : Binding) (tag : Nat) (slot : Nat), s.blk.mctpUp via = true → slot < 2 → s.blk.slotBusy = false → s.blk.slotInUse slot = false → 
    s.blk.inReset = false → ∃ t, exec (.slotErase via tag slot) s = .next t ∧ t.blk.slotState slot = slotEmpty ∧ t.blk.mem = s.blk.mem ∧ t.blk.cfg.session = s.blk.cfg.session ∧
    ∀ a, slotBase slot ≤ a → a < slotBase slot + Config.slotBytes → Mem.byte 0xFF t.blk.cfg.nvm a = 0xFF) ∧
  (∀ (s : State) (via : Binding) (tag : Nat) (slot : Nat), s.blk.mctpUp via = true → slot < 2 → s.blk.slotBusy = true → 
    s.blk.inReset = false → ∃ t, exec (.slotErase via tag slot) s = .next t ∧ t.blk = (s.blk.set .SLOT_CTRL_SLOT_BADREQ 0 1).respond via ([0x7E, 0x1F, 0xA2, 0x01, 0x23, 0x01] ++ leBytes 2 tag ++ [1, 0, 0, 0])) ∧
  (∀ (s : State) (via : Binding) (tag : Nat) (slot : Nat), s.blk.mctpUp via = true → 2 ≤ slot → 
    s.blk.inReset = false → ∃ t, exec (.slotErase via tag slot) s = .next t ∧ t.blk = s.blk.respond via ([0x7E, 0x1F, 0xA2, 0x01, 0x23, 0x01] ++ leBytes 2 tag ++ [3, 0, 0, 0])) ∧
  (∀ (s : State) (via : Binding) (tag : Nat) (slot : Nat), s.blk.mctpUp via = true → slot < 2 → s.blk.slotBusy = false → 
    s.blk.inReset = false → ∃ t, exec (.slotVerify via tag slot) s = .next t ∧ t.blk = (s.blk.event 0x01 0x04 [byteOf slot, 3, byteOf (s.blk.verifySlot slot)]).respond via ([0x7E, 0x1F, 0xA2, 0x01, 0x24, 0x01] ++ leBytes 2 tag ++ [0, 0, 0, 0] ++ [byteOf (s.blk.verifySlot slot)])) ∧
  (∀ (s : State) (via : Binding) (tag : Nat) (slot : Nat), s.blk.mctpUp via = true → slot < 2 → s.blk.slotBusy = true → 
    s.blk.inReset = false → ∃ t, exec (.slotVerify via tag slot) s = .next t ∧ t.blk = (s.blk.set .SLOT_CTRL_SLOT_BADREQ 0 1).respond via ([0x7E, 0x1F, 0xA2, 0x01, 0x24, 0x01] ++ leBytes 2 tag ++ [1, 0, 0, 0])) ∧
  (∀ (s : State) (via : Binding) (tag : Nat) (slot : Nat), s.blk.mctpUp via = true → 2 ≤ slot → 
    s.blk.inReset = false → ∃ t, exec (.slotVerify via tag slot) s = .next t ∧ t.blk = s.blk.respond via ([0x7E, 0x1F, 0xA2, 0x01, 0x24, 0x01] ++ leBytes 2 tag ++ [3, 0, 0, 0])) ∧
  (∀ (s : State) (via : Binding) (tag slot length : Nat), s.blk.mctpUp via = false →
    exec (.slotBegin via tag slot length) s = .next s) ∧
  (∀ (s : State) (via : Binding) (tag off : Nat) (data : List Byte), s.blk.mctpUp via = false →
    exec (.slotWrite via tag off data) s = .next s) ∧
  (∀ (s : State) (via : Binding) (tag : Nat), s.blk.mctpUp via = false →
    exec (.slotCommit via tag) s = .next s) ∧
  (∀ (s : State) (via : Binding) (tag slot : Nat), s.blk.mctpUp via = false →
    exec (.slotErase via tag slot) s = .next s) ∧
  (∀ (s : State) (via : Binding) (tag slot : Nat), s.blk.mctpUp via = false →
    exec (.slotVerify via tag slot) s = .next s)

/-- The MCTP control commands and the SPDM responder. The five supported control commands are answered with their data,
SET_ENDPOINT_ID setting the endpoint ID, and every other with ERROR_UNSUPPORTED_CMD; an Oszoed message with an unknown
COMMAND or VERSION is answered with BAD_COMMAND. The SPDM responder answers version 1.2 alone and keeps a connection
state for each binding, which GET_VERSION starts over on its own binding alone; a request before its state is an error.
The measurement blocks are those of the table, in its order. Message layouts that DMTF gives are the model's presumption
(log entries on MCTP and SPDM), nonces and signatures are free values. (R223, R224, R225, R226, R227, R234, R236) -/
def Obligations.ControlAndSpdmMessages : Prop :=
  (∀ (s : State) (via : Binding) (tag : Nat) (op eid : Nat), s.blk.mctpUp via = true → op % 4 < 2 → 0 < eid → eid < 0xFF → 
    s.blk.inReset = false → ∃ t, exec (.setEndpointId via tag op eid) s = .next t ∧ t.blk = (s.blk.set .MCTP_EID_EID 0 eid).respond via ([0x00, byteOf (tag % 32), 0x01, 0x00] ++ [0x00, byteOf eid, 0x00]) ∧ t.blk.get .MCTP_EID_EID = eid) ∧
  (∀ (s : State) (via : Binding) (tag : Nat) (op eid : Nat), s.blk.mctpUp via = true → (op % 4 = 2 ∨ (op % 4 < 2 ∧ (eid = 0 ∨ eid = 0xFF)) ∨ (op % 4 = 3 ∧ via ≠ .vdm)) → 
    s.blk.inReset = false → ∃ t, exec (.setEndpointId via tag op eid) s = .next t ∧ t.blk = s.blk.respond via ([0x00, byteOf (tag % 32), 0x01, 0x02])) ∧
  (∀ (s : State) (tag op eid : Nat), s.blk.mctpUp .vdm = true → op % 4 = 3 → 
    s.blk.inReset = false → ∃ t, exec (.setEndpointId .vdm tag op eid) s = .next t ∧ t.blk = s.blk.respond .vdm ([0x00, byteOf (tag % 32), 0x01, 0x00] ++ [0x00, byteOf (s.blk.get .MCTP_EID_EID), 0x00])) ∧
  (∀ (s : State) (via : Binding) (tag : Nat), s.blk.mctpUp via = true → 
    s.blk.inReset = false → ∃ t, exec (.getEndpointId via tag) s = .next t ∧ t.blk = s.blk.respond via ([0x00, byteOf (tag % 32), 0x02, 0x00] ++ [byteOf (s.blk.get .MCTP_EID_EID), 0x00, 0x00])) ∧
  (∀ (s : State) (via : Binding) (tag : Nat) (type : Nat), s.blk.mctpUp via = true → type ∈ ([0xFF, 0x00, 0x05, 0x7E] : List Nat) → 
    s.blk.inReset = false → ∃ t, exec (.getMctpVersionSupport via tag type) s = .next t ∧ t.blk = ({ s.blk with free := s.blk.free + 4 } : Block).respond via ([0x00, byteOf (tag % 32), 0x04, 0x00] ++ [0x01, byteOf (Config.freeNat s.blk.free), byteOf (Config.freeNat (s.blk.free + 1)), byteOf (Config.freeNat (s.blk.free + 2)),
      byteOf (Config.freeNat (s.blk.free + 3))])) ∧
  (∀ (s : State) (via : Binding) (tag : Nat) (type : Nat), s.blk.mctpUp via = true → type ∉ ([0xFF, 0x00, 0x05, 0x7E] : List Nat) → 
    s.blk.inReset = false → ∃ t, exec (.getMctpVersionSupport via tag type) s = .next t ∧ t.blk = s.blk.respond via ([0x00, byteOf (tag % 32), 0x04, 0x80])) ∧
  (∀ (s : State) (via : Binding) (tag : Nat), s.blk.mctpUp via = true → 
    s.blk.inReset = false → ∃ t, exec (.getMessageTypeSupport via tag) s = .next t ∧ t.blk = s.blk.respond via ([0x00, byteOf (tag % 32), 0x05, 0x00] ++ [0x03, 0x00, 0x05, 0x7E])) ∧
  (∀ (s : State) (via : Binding) (tag : Nat) (selector : Nat), s.blk.mctpUp via = true → selector % 256 = 0 → 
    s.blk.inReset = false → ∃ t, exec (.getVendorDefinedMessageSupport via tag selector) s = .next t ∧ t.blk = ({ s.blk with free := s.blk.free + 2 } : Block).respond via ([0x00, byteOf (tag % 32), 0x06, 0x00] ++ [0xFF, 0x00, 0x1F, 0xA2, byteOf (Config.freeNat s.blk.free), byteOf (Config.freeNat (s.blk.free + 1))])) ∧
  (∀ (s : State) (via : Binding) (tag : Nat) (selector : Nat), s.blk.mctpUp via = true → selector % 256 ≠ 0 → 
    s.blk.inReset = false → ∃ t, exec (.getVendorDefinedMessageSupport via tag selector) s = .next t ∧ t.blk = s.blk.respond via ([0x00, byteOf (tag % 32), 0x06, 0x02])) ∧
  (∀ (s : State) (via : Binding) (tag : Nat) (command version : Nat), s.blk.mctpUp via = true → command ∉ ([0x01, 0x02, 0x04, 0x05, 0x06] : List Nat) → 
    s.blk.inReset = false → ∃ t, exec (.unsupportedControlCommand via tag false command version) s = .next t ∧ t.blk = s.blk.respond via ([0x00, byteOf (tag % 32), (byteOf command), 0x05])) ∧
  (∀ (s : State) (via : Binding) (tag : Nat) (command version : Nat), s.blk.mctpUp via = true → (version ≠ 1 ∨ command ∉ ([0x01, 0x02, 0x03, 0x10, 0x20, 0x21, 0x22, 0x23, 0x24, 0x30] : List Nat)) → 
    s.blk.inReset = false → ∃ t, exec (.unsupportedControlCommand via tag true command version) s = .next t ∧ t.blk = s.blk.respond via ([0x7E, 0x1F, 0xA2, 0x01, (byteOf command), 0x01] ++ leBytes 2 tag ++ [2, 0, 0, 0])) ∧
  (∀ (s : State) (via : Binding), s.blk.mctpUp via = true → 
    s.blk.inReset = false → ∃ t, exec (.getVersion via) s = .next t ∧ t.blk = ({ s.blk with mgmt := { s.blk.mgmt with spdm := Tab.put s.blk.mgmt.spdm (bindingNo via) 1 } } : Block).respond via ([0x05, 0x10, 0x04, 0x00, 0x00, 0x00, 0x01, 0x00, 0x12]) ∧ Tab.get t.blk.mgmt.spdm (bindingNo via) 0 = 1 ∧
    ∀ w, bindingNo w ≠ bindingNo via → Tab.get t.blk.mgmt.spdm (bindingNo w) 0 = Tab.get s.blk.mgmt.spdm (bindingNo w) 0) ∧
  (∀ (s : State) (via : Binding) (c : Instr) (need v : Nat), s.blk.mctpUp via = true → ((c = .getCapabilities via v ∧ need = 1) ∨ (∃ a b d, c = .negotiateAlgorithms via v a b d ∧ need = 2) ∨ (c = .getDigests via v ∧ need = 3) ∨ (∃ a b d, c = .getCertificate via v a b d ∧ need = 3) ∨
      (∃ a b d, c = .challenge via v a b d ∧ need = 3) ∨ ∃ a b d, c = .getMeasurements via v a b d ∧ need = 3) → v ≠ 0x12 → 
    s.blk.inReset = false → ∃ t, exec c s = .next t ∧ t.blk = s.blk.respond via ([0x05, 0x12, 0x7F, 0x41, 0x00])) ∧
  (∀ (s : State) (via : Binding) (c : Instr) (need : Nat), s.blk.mctpUp via = true → ((c = .getCapabilities via 0x12 ∧ need = 1) ∨ (∃ a b d, c = .negotiateAlgorithms via 0x12 a b d ∧ need = 2) ∨ (c = .getDigests via 0x12 ∧ need = 3) ∨ (∃ a b d, c = .getCertificate via 0x12 a b d ∧ need = 3) ∨
      (∃ a b d, c = .challenge via 0x12 a b d ∧ need = 3) ∨ ∃ a b d, c = .getMeasurements via 0x12 a b d ∧ need = 3) → Tab.get s.blk.mgmt.spdm (bindingNo via) 0 < need → 
    s.blk.inReset = false → ∃ t, exec c s = .next t ∧ t.blk = s.blk.respond via ([0x05, 0x12, 0x7F, 0x04, 0x00])) ∧
  (∀ (s : State) (via : Binding), s.blk.mctpUp via = true → 1 ≤ Tab.get s.blk.mgmt.spdm (bindingNo via) 0 → 
    s.blk.inReset = false → ∃ t, exec (.getCapabilities via 0x12) s = .next t ∧ t.blk.mgmt.spdm = Tab.put s.blk.mgmt.spdm (bindingNo via) 2 ∧ t.blk.free = s.blk.free + 9 ∧ t.blk.regs = s.blk.regs ∧ t.blk.mem = s.blk.mem ∧
    (via ≠ .tap → ∃ ct : Byte, ∃ l : List Byte, l.length = 8 ∧ t.blk.out = s.blk.out ++ packets (bindingNo via) ([0x05, 0x12, 0x61, 0x00, 0x00, 0x00, ct, 0x00, 0x00, 0x16, 0x00, 0x00, 0x00] ++ l))) ∧
  (∀ (s : State) (via : Binding) (asym hash meas : Nat), s.blk.mctpUp via = true → 2 ≤ Tab.get s.blk.mgmt.spdm (bindingNo via) 0 → asym.testBit 7 = true → hash.testBit 1 = true → 
    s.blk.inReset = false → ∃ t, exec (.negotiateAlgorithms via 0x12 asym hash meas) s = .next t ∧ t.blk = ({ s.blk with mgmt := { s.blk.mgmt with spdm := Tab.put s.blk.mgmt.spdm (bindingNo via) 3 } } : Block).respond via (([0x05, 0x12, 0x63, 0x00, 0x00, 0x24, 0x00, byteOf (meas % 2), 0x00] ++ leBytes 4 (if meas % 2 = 0 then 0 else 0x10) ++ leBytes 4 (asym &&& 0x80) ++ leBytes 4 (hash &&& 0x02) ++ zeros 16))) ∧
  (∀ (s : State) (via : Binding) (asym hash meas : Nat), s.blk.mctpUp via = true → 2 ≤ Tab.get s.blk.mgmt.spdm (bindingNo via) 0 → (asym.testBit 7 = false ∨ hash.testBit 1 = false) → 
    s.blk.inReset = false → ∃ t, exec (.negotiateAlgorithms via 0x12 asym hash meas) s = .next t ∧ t.blk = s.blk.respond via (([0x05, 0x12, 0x63, 0x00, 0x00, 0x24, 0x00, byteOf (meas % 2), 0x00] ++ leBytes 4 (if meas % 2 = 0 then 0 else 0x10) ++ leBytes 4 (asym &&& 0x80) ++ leBytes 4 (hash &&& 0x02) ++ zeros 16))) ∧
  (∀ (s : State) (via : Binding), s.blk.mctpUp via = true → 3 ≤ Tab.get s.blk.mgmt.spdm (bindingNo via) 0 → 
    s.blk.inReset = false → ∃ t, exec (.getDigests via 0x12) s = .next t ∧ t.blk = s.blk.respond via ([0x05, 0x12, 0x01, 0x00, 0x01] ++ padTo 48 (sha384 Config.certChain))) ∧
  (∀ (s : State) (via : Binding) (off length : Nat), s.blk.mctpUp via = true → 3 ≤ Tab.get s.blk.mgmt.spdm (bindingNo via) 0 → off < Config.certChain.length → 
    s.blk.inReset = false → ∃ t, exec (.getCertificate via 0x12 0 off length) s = .next t ∧ t.blk = s.blk.respond via ([0x05, 0x12, 0x02, 0x00, 0x00] ++ leBytes 2 (min (min length 1024) (Config.certChain.length - off)) ++
      leBytes 2 (Config.certChain.length - off - min (min length 1024) (Config.certChain.length - off)) ++ (Config.certChain.drop off).take (min length 1024))) ∧
  (∀ (s : State) (via : Binding) (slot off length : Nat), s.blk.mctpUp via = true → 3 ≤ Tab.get s.blk.mgmt.spdm (bindingNo via) 0 → (slot ≠ 0 ∨ Config.certChain.length ≤ off) → 
    s.blk.inReset = false → ∃ t, exec (.getCertificate via 0x12 slot off length) s = .next t ∧ t.blk = s.blk.respond via ([0x05, 0x12, 0x7F, 0x01, 0x00]) ∧ (slot ≠ 0 → ∀ nonce kind, exec (.challenge via 0x12 slot nonce kind) s = .next t)) ∧
  (∀ (s : State) (via : Binding) (nonce : List Byte), s.blk.mctpUp via = true → 3 ≤ Tab.get s.blk.mgmt.spdm (bindingNo via) 0 → 
    s.blk.inReset = false → ∃ t, exec (.challenge via 0x12 0 nonce 0) s = .next t ∧ t.blk.free = s.blk.free + 128 ∧ t.blk.regs = s.blk.regs ∧ t.blk.mem = s.blk.mem ∧
    (via ≠ .tap → ∃ n g : List Byte, n.length = 32 ∧ g.length = 96 ∧ t.blk.out = s.blk.out ++ packets (bindingNo via) ([0x05, 0x12, 0x03, 0x00, 0x01] ++ padTo 48 (sha384 Config.certChain) ++ n ++ [0x00, 0x00] ++ g))) ∧
  (∀ (s : State) (via : Binding) (nonce : List Byte), s.blk.mctpUp via = true → 3 ≤ Tab.get s.blk.mgmt.spdm (bindingNo via) 0 → 
    s.blk.inReset = false → ∃ t, exec (.challenge via 0x12 0 nonce 0xFF) s = .next t ∧ t.blk.free = s.blk.free + 128 ∧ t.blk.regs = s.blk.regs ∧ t.blk.mem = s.blk.mem ∧
    (via ≠ .tap → ∃ n g : List Byte, n.length = 32 ∧ g.length = 96 ∧ t.blk.out = s.blk.out ++ packets (bindingNo via) ([0x05, 0x12, 0x03, 0x00, 0x01] ++ padTo 48 (sha384 Config.certChain) ++ n ++ sha384 (([1, 2, 3, 4, 5] : List Nat).flatMap s.blk.measurement) ++ [0x00, 0x00] ++ g))) ∧
  (∀ (s : State) (via : Binding) (nonce : List Byte), s.blk.mctpUp via = true → 3 ≤ Tab.get s.blk.mgmt.spdm (bindingNo via) 0 → 
    s.blk.inReset = false → ∃ t, exec (.challenge via 0x12 0 nonce 1) s = .next t ∧ t.blk.free = s.blk.free + 176 ∧ t.blk.regs = s.blk.regs ∧ t.blk.mem = s.blk.mem ∧
    (via ≠ .tap → ∃ n g h : List Byte, h.length = 48 ∧ n.length = 32 ∧ g.length = 96 ∧ t.blk.out = s.blk.out ++ packets (bindingNo via) ([0x05, 0x12, 0x03, 0x00, 0x01] ++ padTo 48 (sha384 Config.certChain) ++ n ++ h ++ [0x00, 0x00] ++ g))) ∧
  (∀ (s : State) (via : Binding) (kind : Nat) (nonce : List Byte), s.blk.mctpUp via = true → 3 ≤ Tab.get s.blk.mgmt.spdm (bindingNo via) 0 → kind ∉ ([0, 1, 0xFF] : List Nat) → 
    s.blk.inReset = false → ∃ t, exec (.challenge via 0x12 0 nonce kind) s = .next t ∧ t.blk = s.blk.respond via ([0x05, 0x12, 0x7F, 0x01, 0x00])) ∧
  (∀ (s : State) (via : Binding) (index : Nat) (signed : Bool) (nonce : List Byte) (which : List Nat), s.blk.mctpUp via = true → 3 ≤ Tab.get s.blk.mgmt.spdm (bindingNo via) 0 → ((index = 0 ∧ which = []) ∨ (1 ≤ index ∧ index ≤ 5 ∧ which = [index]) ∨ (index = 0xFF ∧ which = [1, 2, 3, 4, 5])) → 
    s.blk.inReset = false → ∃ t, exec (.getMeasurements via 0x12 index signed nonce) s = .next t ∧ t.blk.free = s.blk.free + (if signed then 128 else 32) ∧ t.blk.regs = s.blk.regs ∧ t.blk.mem = s.blk.mem ∧
    (via ≠ .tap → ∃ l : List Byte, l.length = (if signed then 130 else 34) ∧ t.blk.out = s.blk.out ++ packets (bindingNo via)
      ([0x05, 0x12, 0x60, if index = 0 then 0x05 else 0x00, 0x00, byteOf which.length] ++ leBytes 3 (which.flatMap s.blk.measurement).length ++ which.flatMap s.blk.measurement ++ l))) ∧
  (∀ (s : State) (via : Binding) (index : Nat) (signed : Bool) (nonce : List Byte), s.blk.mctpUp via = true → 3 ≤ Tab.get s.blk.mgmt.spdm (bindingNo via) 0 → 5 < index → index ≠ 0xFF → 
    s.blk.inReset = false → ∃ t, exec (.getMeasurements via 0x12 index signed nonce) s = .next t ∧ t.blk = s.blk.respond via ([0x05, 0x12, 0x7F, 0x01, 0x00])) ∧
  (∀ (s : State), s.blk.measurement 1 = [0x01, 0x01, 0x23, 0x00, 0x01, 0x20, 0x00] ++ leBytes 32 (s.blk.get .IMAGE_MARK_MARK) ∧ s.blk.measurement 2 = [0x02, 0x01, 0x0B, 0x00, 0x87, 0x08, 0x00] ++ leBytes 8 (s.blk.get .LOADED_VERSION_VERSION) ∧
    s.blk.measurement 3 = [0x03, 0x01, 0x0B, 0x00, 0x87, 0x08, 0x00] ++ leBytes 8 s.blk.arbValue ∧
    s.blk.measurement 4 = [0x04, 0x01, 0x0B, 0x00, 0x82, 0x08, 0x00] ++ leBytes 4 (s.blk.word 0) ++ [byteOf (s.blk.get .CFG_STATUS_KEY_SRC), 0, 0, 0] ∧
    s.blk.measurement 5 = [0x05, 0x01, 0x0B, 0x00, 0x86, 0x08, 0x00] ++ leBytes 8 (s.blk.get .LOADED_BUILD_BUILD)) ∧
  (∀ (s : State) (via : Binding) (a b d : Nat), s.blk.mctpUp via = false →
    exec (.setEndpointId via a b d) s = .next s) ∧
  (∀ (s : State) (via : Binding) (a : Nat), s.blk.mctpUp via = false →
    exec (.getEndpointId via a) s = .next s) ∧
  (∀ (s : State) (via : Binding) (a b : Nat), s.blk.mctpUp via = false →
    exec (.getMctpVersionSupport via a b) s = .next s) ∧
  (∀ (s : State) (via : Binding) (a : Nat), s.blk.mctpUp via = false →
    exec (.getMessageTypeSupport via a) s = .next s) ∧
  (∀ (s : State) (via : Binding) (a b : Nat), s.blk.mctpUp via = false →
    exec (.getVendorDefinedMessageSupport via a b) s = .next s) ∧
  (∀ (s : State) (via : Binding) (a : Nat), s.blk.mctpUp via = false →
    exec (.getCapabilities via a) s = .next s) ∧
  (∀ (s : State) (via : Binding) (a b d e : Nat), s.blk.mctpUp via = false →
    exec (.negotiateAlgorithms via a b d e) s = .next s) ∧
  (∀ (s : State) (via : Binding) (a : Nat), s.blk.mctpUp via = false →
    exec (.getDigests via a) s = .next s) ∧
  (∀ (s : State) (via : Binding) (a b d e : Nat), s.blk.mctpUp via = false →
    exec (.getCertificate via a b d e) s = .next s) ∧
  (∀ (s : State) (via : Binding) (a b d : Nat) (o : Bool), s.blk.mctpUp via = false →
    exec (.unsupportedControlCommand via a o b d) s = .next s) ∧
  (∀ (s : State) (via : Binding) , s.blk.mctpUp via = false →
    exec (.getVersion via) s = .next s) ∧
  (∀ (s : State) (via : Binding) (a b d : Nat) (n : List Byte), s.blk.mctpUp via = false →
    exec (.challenge via a b n d) s = .next s) ∧
  (∀ (s : State) (via : Binding) (a b : Nat) (o : Bool) (n : List Byte), s.blk.mctpUp via = false →
    exec (.getMeasurements via a b o n) s = .next s)

/-- The TAP instructions, the MCTP pipe and the I2C bus time-out. EXTEST, EXTEST_PULSE, EXTEST_TRAIN, HIGHZ and CLAMP are
loaded and drive or float the pins while PERST# is low or the package halts; at any other time BYPASS is loaded in their
place and nothing else changes. SAMPLE/PRELOAD, IDCODE, BYPASS and a reset of the TAP load at any time that main power
is up; every opcode outside the table acts as BYPASS. A scan of the instruction register captures 0b000001. A scan of
MCTP_PIPE gives the next response byte (none while the package is held in reset), adds a byte to the inbound packet,
which START begins anew, and hands a whole packet over. A bus time-out releases the I2C lines and drops the partial
packet. (R855, R856, R859, R861, R862, R864) -/
def Obligations.TapAndManagementPort : Prop :=
  (∀ (s : State) (v : Nat), s.blk.pwr.mainUp = true → (s.blk.pwr.perst = false ∨ s.blk.cfg.phase = .halted) → 
    ∃ t, exec (.extest v) s = .next t ∧ t.blk.cfg = { s.blk.cfg with tap := 0x00 } ∧ t.blk.out = s.blk.out ++ (if s.blk.cfg.tap = 0x00 then [] else [.tdo 6 1]) ++ [.pins (some v)] ∧
    t.blk.mgmt = { s.blk.mgmt with boundary := v } ∧ t.blk.mem = s.blk.mem ∧ t.blk.regs = s.blk.regs ∧ t.blk.pwr = s.blk.pwr) ∧
  (∀ (s : State) (v : Nat), s.blk.pwr.mainUp = true → s.blk.pwr.perst = true → s.blk.cfg.phase ≠ .halted → 
    ∃ t, exec (.extest v) s = .next t ∧ t.blk = { s.blk with cfg := { s.blk.cfg with tap := 0x3F }, out := s.blk.out ++ (if s.blk.cfg.tap = 0x00 then [] else [.tdo 6 1]) }) ∧
  (∀ (s : State) (v : Nat), s.blk.pwr.mainUp = true → (s.blk.pwr.perst = false ∨ s.blk.cfg.phase = .halted) → 
    ∃ t, exec (.extestPulse v) s = .next t ∧ t.blk.cfg = { s.blk.cfg with tap := 0x03 } ∧ t.blk.out = s.blk.out ++ (if s.blk.cfg.tap = 0x03 then [] else [.tdo 6 1]) ++ [.pins (some v)] ∧
    t.blk.mgmt = { s.blk.mgmt with boundary := v } ∧ t.blk.mem = s.blk.mem ∧ t.blk.regs = s.blk.regs ∧ t.blk.pwr = s.blk.pwr) ∧
  (∀ (s : State) (v : Nat), s.blk.pwr.mainUp = true → s.blk.pwr.perst = true → s.blk.cfg.phase ≠ .halted → 
    ∃ t, exec (.extestPulse v) s = .next t ∧ t.blk = { s.blk with cfg := { s.blk.cfg with tap := 0x3F }, out := s.blk.out ++ (if s.blk.cfg.tap = 0x03 then [] else [.tdo 6 1]) }) ∧
  (∀ (s : State) (v : Nat), s.blk.pwr.mainUp = true → (s.blk.pwr.perst = false ∨ s.blk.cfg.phase = .halted) → 
    ∃ t, exec (.extestTrain v) s = .next t ∧ t.blk.cfg = { s.blk.cfg with tap := 0x04 } ∧ t.blk.out = s.blk.out ++ (if s.blk.cfg.tap = 0x04 then [] else [.tdo 6 1]) ++ [.pins (some v)] ∧
    t.blk.mgmt = { s.blk.mgmt with boundary := v } ∧ t.blk.mem = s.blk.mem ∧ t.blk.regs = s.blk.regs ∧ t.blk.pwr = s.blk.pwr) ∧
  (∀ (s : State) (v : Nat), s.blk.pwr.mainUp = true → s.blk.pwr.perst = true → s.blk.cfg.phase ≠ .halted → 
    ∃ t, exec (.extestTrain v) s = .next t ∧ t.blk = { s.blk with cfg := { s.blk.cfg with tap := 0x3F }, out := s.blk.out ++ (if s.blk.cfg.tap = 0x04 then [] else [.tdo 6 1]) }) ∧
  (∀ (s : State), s.blk.pwr.mainUp = true → (s.blk.pwr.perst = false ∨ s.blk.cfg.phase = .halted) → 
    ∃ t, exec .highz s = .next t ∧ t.blk.cfg = { s.blk.cfg with tap := 0x05 } ∧ t.blk.out = s.blk.out ++ (if s.blk.cfg.tap = 0x05 then [] else [.tdo 6 1]) ++ [.pins none] ∧
    t.blk.mgmt = { s.blk.mgmt with boundary := s.blk.mgmt.boundary } ∧ t.blk.mem = s.blk.mem ∧ t.blk.regs = s.blk.regs ∧ t.blk.pwr = s.blk.pwr) ∧
  (∀ (s : State), s.blk.pwr.mainUp = true → s.blk.pwr.perst = true → s.blk.cfg.phase ≠ .halted → 
    ∃ t, exec .highz s = .next t ∧ t.blk = { s.blk with cfg := { s.blk.cfg with tap := 0x3F }, out := s.blk.out ++ (if s.blk.cfg.tap = 0x05 then [] else [.tdo 6 1]) }) ∧
  (∀ (s : State), s.blk.pwr.mainUp = true → (s.blk.pwr.perst = false ∨ s.blk.cfg.phase = .halted) → 
    ∃ t, exec .clamp s = .next t ∧ t.blk.cfg = { s.blk.cfg with tap := 0x06 } ∧ t.blk.out = s.blk.out ++ (if s.blk.cfg.tap = 0x06 then [] else [.tdo 6 1]) ++ [.pins (some s.blk.mgmt.boundary)] ∧
    t.blk.mgmt = { s.blk.mgmt with boundary := s.blk.mgmt.boundary } ∧ t.blk.mem = s.blk.mem ∧ t.blk.regs = s.blk.regs ∧ t.blk.pwr = s.blk.pwr) ∧
  (∀ (s : State), s.blk.pwr.mainUp = true → s.blk.pwr.perst = true → s.blk.cfg.phase ≠ .halted → 
    ∃ t, exec .clamp s = .next t ∧ t.blk = { s.blk with cfg := { s.blk.cfg with tap := 0x3F }, out := s.blk.out ++ (if s.blk.cfg.tap = 0x06 then [] else [.tdo 6 1]) }) ∧
  (∀ (s : State) (pins value : Nat), s.blk.pwr.mainUp = true → 
    ∃ t, exec (.samplePreload pins value) s = .next t ∧ t.blk.cfg = { s.blk.cfg with tap := 0x01 } ∧ t.blk.mgmt = { s.blk.mgmt with boundary := value } ∧ t.blk.out = s.blk.out ++ (if s.blk.cfg.tap = 0x01 then [] else [.tdo 6 1]) ++ [.tdo 0 pins] ∧ t.blk.mem = s.blk.mem ∧ t.blk.regs = s.blk.regs ∧ t.blk.pwr = s.blk.pwr) ∧
  (∀ (s : State), s.blk.pwr.mainUp = true → 
    ∃ t, exec .idcode s = .next t ∧ t.blk.cfg = { s.blk.cfg with tap := 0x02 } ∧ t.blk.out = s.blk.out ++ (if s.blk.cfg.tap = 0x02 then [] else [.tdo 6 1]) ++ [.tdo 32 (s.blk.get .IDENT_STEPPING * 2 ^ 28 + 0x04400A3B)] ∧ t.blk.mgmt = s.blk.mgmt ∧ t.blk.mem = s.blk.mem ∧ t.blk.regs = s.blk.regs ∧ t.blk.pwr = s.blk.pwr) ∧
  (∀ (s : State) (opcode : Nat), s.blk.pwr.mainUp = true → opcode % 64 ∉ ([0x00, 0x01, 0x02, 0x03, 0x04, 0x05, 0x06, 0x20] : List Nat) → 
    ∃ t, exec (.bypass opcode) s = .next t ∧ t.blk = { s.blk with cfg := { s.blk.cfg with tap := 0x3F }, out := s.blk.out ++ (if s.blk.cfg.tap = opcode % 64 then [] else [.tdo 6 1]) }) ∧
  (∀ (s : State) (opcode : Nat), opcode % 64 ∈ ([0x00, 0x01, 0x02, 0x03, 0x04, 0x05, 0x06, 0x20] : List Nat) → 
    ∃ t, exec (.bypass opcode) s = .next t ∧ t = s) ∧
  (∀ (s : State), s.blk.pwr.mainUp = true → 
    ∃ t, exec .tapReset s = .next t ∧ t.blk = { s.blk with cfg := { s.blk.cfg with tap := 0x02 } }) ∧
  (∀ (s : State) (start : Bool), s.blk.inReset = false → 
    ∃ t, exec (.mctpPipe start none) s = .next t ∧ t.blk.out = s.blk.out ++ (if s.blk.cfg.tap = 0x20 then [] else [.tdo 6 1]) ++ [.tdo 10 (s.blk.mgmt.tapOut.headD 0)] ∧ t.blk.cfg = { s.blk.cfg with tap := 0x20 } ∧ t.blk.mgmt = { s.blk.mgmt with tapOut := s.blk.mgmt.tapOut.tail } ∧ t.blk.mem = s.blk.mem ∧ t.blk.regs = s.blk.regs ∧ t.blk.pwr = s.blk.pwr) ∧
  (∀ (s : State) (start : Bool) (x : Byte) (l : List Byte), s.blk.inReset = false → l = (if start then [x] else if s.blk.mgmt.tapPart = [] then [] else s.blk.mgmt.tapPart ++ [x]) → (l.length < 3 ∨ l.length < (l.getD 2 0).toNat + 4) → 
    ∃ t, exec (.mctpPipe start (some x)) s = .next t ∧ t.blk.out = s.blk.out ++ (if s.blk.cfg.tap = 0x20 then [] else [.tdo 6 1]) ++ [.tdo 10 (s.blk.mgmt.tapOut.headD 0)] ∧ t.blk.cfg = { s.blk.cfg with tap := 0x20 } ∧ t.blk.mgmt = { s.blk.mgmt with tapOut := s.blk.mgmt.tapOut.tail, tapPart := l } ∧ t.blk.mem = s.blk.mem ∧ t.blk.regs = s.blk.regs ∧ t.blk.pwr = s.blk.pwr) ∧
  (∀ (s : State) (x : Byte) (l : List Byte) (b : Block), s.blk.inReset = false → s.blk.mgmt.tapPart ≠ [] → l = s.blk.mgmt.tapPart ++ [x] → 3 ≤ l.length → (l.getD 2 0).toNat + 4 ≤ l.length → b = { s.blk with cfg := { s.blk.cfg with tap := 0x20 }, mgmt := { s.blk.mgmt with tapOut := s.blk.mgmt.tapOut.tail, tapPart := [] }, out := s.blk.out ++ (if s.blk.cfg.tap = 0x20 then [] else [.tdo 6 1]) ++ [.tdo 10 (s.blk.mgmt.tapOut.headD 0)] } → 
    ∃ t, exec (.mctpPipe false (some x)) s = .next t ∧ t.blk = b.pipePacket l) ∧
  (∀ (s : State) (start : Bool) (byte : Option Byte), s.blk.pwr.mainUp = true → s.blk.inReset = true → 
    ∃ t, exec (.mctpPipe start byte) s = .next t ∧ t.blk.out = s.blk.out ++ (if s.blk.cfg.tap = 0x20 then [] else [.tdo 6 1]) ++ [.tdo 10 0] ∧ t.blk.cfg = { s.blk.cfg with tap := 0x20 } ∧ t.blk.mgmt = s.blk.mgmt ∧ t.blk.mem = s.blk.mem ∧ t.blk.regs = s.blk.regs ∧ t.blk.pwr = s.blk.pwr) ∧
  (∀ (s : State), s.blk.pwr.mainUp = true → 
    s.blk.inReset = false → ∃ t, exec .i2cBusTimeout s = .next t ∧ t.blk.mgmt = { s.blk.mgmt with i2cPart := [] } ∧ t.blk.out = s.blk.out ++ [.i2cRelease] ∧ t.blk.cfg = s.blk.cfg ∧ t.blk.mem = s.blk.mem ∧ t.blk.regs = s.blk.regs ∧ t.blk.pwr = s.blk.pwr) ∧
  (∀ (s : State) (v : Nat), s.blk.pwr.mainUp = false →
    exec (.extest v) s = .next s) ∧
  (∀ (s : State) (v : Nat), s.blk.pwr.mainUp = false →
    exec (.extestPulse v) s = .next s) ∧
  (∀ (s : State) (v : Nat), s.blk.pwr.mainUp = false →
    exec (.extestTrain v) s = .next s) ∧
  (∀ (s : State) , s.blk.pwr.mainUp = false →
    exec .highz s = .next s) ∧
  (∀ (s : State) , s.blk.pwr.mainUp = false →
    exec .clamp s = .next s) ∧
  (∀ (s : State) (a b : Nat), s.blk.pwr.mainUp = false →
    exec (.samplePreload a b) s = .next s) ∧
  (∀ (s : State) , s.blk.pwr.mainUp = false →
    exec .idcode s = .next s) ∧
  (∀ (s : State) (a : Bool) (b : Option Byte), s.blk.pwr.mainUp = false →
    exec (.mctpPipe a b) s = .next s) ∧
  (∀ (s : State) (a : Nat), s.blk.pwr.mainUp = false →
    exec (.bypass a) s = .next s) ∧
  (∀ (s : State) , s.blk.pwr.mainUp = false →
    exec .tapReset s = .next s) ∧
  (∀ (s : State), s.blk.pwr.mainUp = false → exec .i2cBusTimeout s = .next s)

/-- A step runs the command at the front of the queue. With a command at the front of the queue of waiting commands, a step
is exec of that command on the state with the queue's rest. The queue is the model's own (log entry 1).
(95_what_each_step_holds.md: What each step holds) -/
def Obligations.StepTakesFrontCommand : Prop :=
  ∀ (s : State) (c : Instr) (rest : List Instr), s.pending = c :: rest → step s = exec c { s with pending := rest }

/-- A step on an empty queue lets one nanosecond pass. With no command waiting a step answers a next state: outside reset
that of one nanosecond, after which what waited for a memory is taken up again, and in reset that of one nanosecond
alone. In that nanosecond memory, the loader, what was sent and every register but AON_COUNT, PERF_CNT and, where a
USER_RESET ends, its bit stay as before, and so does a PERF_CNT of a tile that is not BUSY; the model's time goes up by
one, the PHC advances by 1 + ADJ × 2^-32 ns while the package is not in reset, the GMC by one from the release edge on
outside a slew, and neither otherwise. Where no MK_ABSORB, frame or collective waits, that is the whole step. That time
passes on an empty queue is the model's choice (log entry 1). (R533, R796) -/
def Obligations.IdleStepIsOneNanosecond : Prop :=
  (∀ (s : State), s.pending = [] →
    step s = .next { s with blk := if s.blk.inReset then s.blk.nanosecond else s.blk.nanosecond.resume }) ∧
  (∀ (s : State), s.pending = [] → s.blk.hop.absorbs = [] → s.blk.svc.heldFrames = [] → s.blk.fab.colls = [] →
    step s = .next { s with blk := s.blk.nanosecond }) ∧
  (∀ (b : Block),
    b.nanosecond.pwr.now = b.pwr.now + 1 ∧ b.nanosecond.mem = b.mem ∧ b.nanosecond.cfg = b.cfg ∧ b.nanosecond.out = b.out ∧
    (∀ f i, f ≠ .AON_COUNT_LO_COUNT → f ≠ .AON_COUNT_HI_COUNT → f ≠ .PERF_CNT_COUNT →
      (b.svc.userHold = 1 → f ≠ .TENT_CTRL_USER_RESET) → b.nanosecond.get f i = b.get f i) ∧
    (b.inReset = false → b.svc.userHold = 1 → b.nanosecond.get .TENT_CTRL_USER_RESET = 0) ∧
    (∀ k c, b.tileState k ≠ tBusy → c < 4 → k < 32 → b.nanosecond.get .PERF_CNT_COUNT (4 * k + c) = b.get .PERF_CNT_COUNT (4 * k + c)) ∧
    (b.pwr.mainUp = true → b.pwr.perst = true →
      b.nanosecond.svc.phc = toW 96 ((b.svc.phc : Int) + 2 ^ 32 + min 2147483 (max (-2147483) (sext 32 (b.get .PHC_ADJ_ADJ))))) ∧
    (b.pwr.mainUp = false ∨ b.pwr.perst = false → b.nanosecond.svc.phc = b.svc.phc) ∧
    (b.pwr.mainUp = true → b.pwr.perst = true → b.pwr.released = true → b.gs.slew = 0 → b.nanosecond.gmc = (b.gmc + 1) % 2 ^ 64) ∧
    (b.pwr.mainUp = false ∨ b.pwr.perst = false ∨ b.pwr.released = false → b.nanosecond.gmc = b.gmc))

/-- The state after reset is sound. After reset no command waits, memory and the register file are in canonical form, and
with that the three invariants that every step keeps hold. The canonical forms are the model's own.
(95_what_each_step_holds.md: What each step holds) -/
def Obligations.ResetIsSound : Prop :=
  State.reset.pending = [] ∧ State.reset.queueWf = true ∧ State.reset.blk.memWf = true ∧ State.reset.blk.regsWf = true ∧ core.reset = State.reset

/-- A run takes the waiting commands in order and nothing stops it. From every state, after any number n of steps the
machine has answered a next state, and the first n commands have left the queue: no command of the table ends in a fault
or a refusal. (95_what_each_step_holds.md: What each step holds) -/
def Obligations.RunTakesCommandsInOrder : Prop :=
  ∀ (n : Nat) (s : State), ∃ t : State, Host.Core.run core n s = .next t ∧ t.pending = s.pending.drop n

/-- A step keeps the waiting commands well formed, and adds none. When every waiting command is well formed, a step answers
a next state in which every waiting command is well formed, and each was waiting before. (95_what_each_step_holds.md:
What each step holds) -/
def Obligations.StepKeepsQueueWellFormed : Prop :=
  ∀ (s : State), s.queueWf = true → ∃ t, step s = .next t ∧ t.queueWf = true ∧ ∀ c ∈ t.pending, c ∈ s.pending

/-- Every step keeps local memory and the NVM die in canonical form. When local memory and the NVM die list addresses
strictly rising, each once and none that holds what an unlisted address reads as, the state a step answers has them in
that form too, whichever command it runs. So equal memories stay equal data. (R124) -/
def Obligations.StepKeepsMemoryForm : Prop :=
  ∀ (s t : State), s.blk.memWf = true → step s = .next t → t.blk.memWf = true

/-- Every step keeps every register within its width. When the register file is in canonical form, so that each register
holds a value of its width and one at its reset value is not listed, the state a step answers has it in that form, and
every register reads as a value below 2 to its width. (R9) -/
def Obligations.StepKeepsRegisterForm : Prop :=
  ∀ (s t : State), s.blk.regsWf = true → step s = .next t → t.blk.regsWf = true ∧ ∀ f i, t.blk.get f i < 2 ^ f.desc.width

/-- ARB_SET is accepted only above the counter and not above the loaded version. ARB_SET_GO with a value above the counter
and not above the loaded SECURITY_VERSION is accepted, and written with the counter's event; with any other value the
counter is unchanged and ARB_REFUSED is set. (R155) -/
def Obligations.AntiRollbackCounterSetOnlyInRange : Prop :=
  (∀ (s : State), s.blk.arbValue < s.blk.get .ARB_SET_VALUE → s.blk.get .ARB_SET_VALUE ≤ s.blk.get .LOADED_VERSION_VERSION → 
    s.blk.inReset = false → ∃ t, exec .arbSetGo s = .next t ∧ t.blk = s.blk.arbWrite (s.blk.get .ARB_SET_VALUE) ∧ t.blk.get .ARB_CTRL_ARB_REFUSED = s.blk.get .ARB_CTRL_ARB_REFUSED) ∧
  (∀ (s : State), (s.blk.get .ARB_SET_VALUE ≤ s.blk.arbValue ∨ s.blk.get .LOADED_VERSION_VERSION < s.blk.get .ARB_SET_VALUE) → 
    s.blk.inReset = false → ∃ t, exec .arbSetGo s = .next t ∧ t.blk.arbValue = s.blk.arbValue ∧ t.blk.get .ARB_CTRL_ARB_REFUSED = 1 ∧ t.blk.cfg = s.blk.cfg ∧
    ∀ f i, f ≠ .ARB_CTRL_ARB_REFUSED → t.blk.get f i = s.blk.get f i)

/-- PKG_RESET resets the package only with KEY 0x7A11 in the same write. A write of RST_CTRL that sets PKG_RESET with KEY
0x7A11 resets the package; with any other KEY it leaves the package running and sets BADKEY. (R68) -/
def Obligations.RegisterResetNeedsItsKey : Prop :=
  (∀ (s : State) (val : Nat), val.testBit 0 = true → bits val 16 16 = 0x7A11 → 
    s.blk.inReset = false → ∃ t, exec (.pkgReset val) s = .next t ∧ t.blk = s.blk.registerReset (val.testBit 1) ∧ t.blk.pwr.released = false) ∧
  (∀ (s : State) (val : Nat), val.testBit 0 = true → bits val 16 16 ≠ 0x7A11 → 
    s.blk.inReset = false → ∃ t, exec (.pkgReset val) s = .next t ∧ t.blk.get .RST_CTRL_BADKEY = 1 ∧ t.blk.pwr = s.blk.pwr ∧ t.blk.cfg = s.blk.cfg ∧ t.blk.hop = s.blk.hop ∧ t.blk.dies = s.blk.dies ∧ t.blk.gmc = s.blk.gmc ∧ t.blk.mem = s.blk.mem ∧
    ∀ f i, f ≠ .RST_CTRL_BADKEY → f ≠ .RST_CTRL_KEEP_MEM → t.blk.get f i = s.blk.get f i)

/-- EXTEST, EXTEST_PULSE, EXTEST_TRAIN, HIGHZ and CLAMP are accepted only while PERST# is low or the package halts. While
PERST# is low or the package halts, each of the five is loaded into a powered TAP with its own opcode; at any other time
BYPASS is loaded in its place, and the pins and everything else are as before. (R859) -/
def Obligations.BoundaryInstructionsOnlyAtRest : Prop :=
  (∀ (s : State) (c : Instr) (op : Nat), s.blk.pwr.mainUp = true → (s.blk.pwr.perst = false ∨ s.blk.cfg.phase = .halted) → ((∃ v, c = .extest v ∧ op = 0x00) ∨ (∃ v, c = .extestPulse v ∧ op = 0x03) ∨ (∃ v, c = .extestTrain v ∧ op = 0x04) ∨ (c = .highz ∧ op = 0x05) ∨ (c = .clamp ∧ op = 0x06)) → 
    ∃ t, exec c s = .next t ∧ t.blk.cfg.tap = op) ∧
  (∀ (s : State) (c : Instr) (op : Nat), s.blk.pwr.mainUp = true → s.blk.pwr.perst = true → s.blk.cfg.phase ≠ .halted → ((∃ v, c = .extest v ∧ op = 0x00) ∨ (∃ v, c = .extestPulse v ∧ op = 0x03) ∨ (∃ v, c = .extestTrain v ∧ op = 0x04) ∨ (c = .highz ∧ op = 0x05) ∨ (c = .clamp ∧ op = 0x06)) → 
    ∃ t, exec c s = .next t ∧ t.blk = { s.blk with cfg := { s.blk.cfg with tap := 0x3F }, out := t.blk.out } ∧ t.pending = s.pending ∧
    (t.blk.out = s.blk.out ∨ ∃ n v, t.blk.out = s.blk.out ++ [.tdo n v]))

/-- Each binding keeps its own SPDM connection state. An SPDM request leaves the connection state of every other binding as
it was, and a GET_VERSION on a binding that takes messages starts over the state of that binding alone. (R235) -/
def Obligations.SpdmStatesApart : Prop :=
  (∀ (s : State) (via w : Binding) (c : Instr), w ≠ via → (c = .getVersion via ∨ (∃ a, c = .getCapabilities via a) ∨ (∃ a b d e, c = .negotiateAlgorithms via a b d e) ∨ (∃ a, c = .getDigests via a) ∨
      (∃ a b d e, c = .getCertificate via a b d e) ∨ (∃ a b d e, c = .challenge via a b d e) ∨ ∃ a b d e, c = .getMeasurements via a b d e) → 
    s.blk.inReset = false → ∃ t, exec c s = .next t ∧ Tab.get t.blk.mgmt.spdm (bindingNo w) 0 = Tab.get s.blk.mgmt.spdm (bindingNo w) 0) ∧
  (∀ (s : State) (via : Binding), s.blk.mctpUp via = true → 
    s.blk.inReset = false → ∃ t, exec (.getVersion via) s = .next t ∧ Tab.get t.blk.mgmt.spdm (bindingNo via) 0 = 1)

/-- While main power or PERST# holds the package in reset, only power, always-on and TAP commands act. While a main rail is
out of limits or PERST# is low, every command but those of power, PERST#, VBAT, ZERO#, the always-on domain and the TAP
answers the state it was given. That the TAP works then is the model's choice (log entry 145). (R60, R859) -/
def Obligations.ResetHoldsEveryOtherBlock : Prop :=
  (∀ (s : State) (c : Instr), s.blk.inReset = true →
    match c with
    | .coldStart | .mainPowerLoss | .railDroop .. | .perstAssert | .perstDeassert .. | .vbatLow _ | .vbatRemoved .. | .vbatApplied _ | .zeroAssert _ |
      .aonWriteApplied | .extest _ | .extestPulse _ | .extestTrain _ | .samplePreload .. | .idcode | .highz | .clamp | .mctpPipe .. | .bypass _ | .tapReset => True
    | _ => exec c s = .next s) ∧
  (∀ (b : Block), b.inReset = true ↔ (b.pwr.mainUp = false ∨ b.pwr.perst = false))
end

