-- ==== Sys2Proof/Laws/Memory.lean ====
section
/-! SUPPORT. Memory: a byte reads as what was last written to it, a write leaves every other byte alone, and every operation keeps the
canonical form. -/

namespace Sys2Proof.Machine

/-- The order and the content of a canonical memory, said of all its cells at once. -/
def Mem.Canon (d : Byte) (m : Mem) : Prop := (∀ c ∈ m, c.2 ≠ d) ∧ m.Pairwise (fun x y => x.1 < y.1)

theorem Mem.wf_iff (d : Byte) (m : Mem) : m.wf d = true ↔ Mem.Canon d m := by
  unfold Mem.Canon
  induction m with
  | nil => simp [Mem.wf]
  | cons c m ih =>
    obtain ⟨a, v⟩ := c
    cases m with
    | nil => simp [Mem.wf]
    | cons e m =>
      obtain ⟨k, w⟩ := e
      simp only [Mem.wf, Bool.and_eq_true, ih, bne_iff_ne, decide_eq_true_eq, List.mem_cons, forall_eq_or_imp, List.pairwise_cons]
      constructor
      · rintro ⟨⟨hv, hl⟩, ⟨hw, hm⟩, hs, hp⟩
        exact ⟨⟨hv, hw, hm⟩, ⟨hl, fun x hx => Nat.lt_trans hl (hs x hx)⟩, hs, hp⟩
      · rintro ⟨⟨hv, hw, hm⟩, ⟨hl, -⟩, hs, hp⟩
        exact ⟨⟨hv, hl⟩, ⟨hw, hm⟩, hs, hp⟩

theorem Mem.wf_filter (d : Byte) (m : Mem) (p : Host.Cell → Bool) (h : m.wf d = true) : Mem.wf d (m.filter p) = true := by
  rw [Mem.wf_iff] at *
  exact ⟨fun c hc => h.1 c (List.mem_filter.1 hc).1, List.Pairwise.filter p h.2⟩

theorem Mem.mem_insert (m : Mem) (a : Nat) (v : Byte) (c : Host.Cell) : c ∈ m.insert a v ↔ c = (a, v) ∨ c ∈ m := by
  induction m with
  | nil => simp [Mem.insert]
  | cons e m ih =>
    obtain ⟨k, w⟩ := e
    unfold Mem.insert
    split
    · simp
    · simp only [List.mem_cons, ih]
      exact or_left_comm

theorem Mem.sorted_insert (m : Mem) (a : Nat) (v : Byte) (hs : m.Pairwise (fun x y => x.1 < y.1)) (hn : ∀ c ∈ m, c.1 ≠ a) :
    (m.insert a v).Pairwise (fun x y => x.1 < y.1) := by
  induction m with
  | nil => simp [Mem.insert]
  | cons e m ih =>
    obtain ⟨k, w⟩ := e
    have hs' := List.pairwise_cons.1 hs
    have hk := hn (k, w) (by simp)
    unfold Mem.insert
    split
    · next hl =>
      refine List.pairwise_cons.2 ⟨?_, hs⟩
      intro c hc
      rcases List.mem_cons.1 hc with rfl | hc
      · exact hl
      · exact Nat.lt_trans hl (hs'.1 c hc)
    · next hl =>
      refine List.pairwise_cons.2 ⟨?_, ih hs'.2 (fun c hc => hn c (by simp [hc]))⟩
      intro c hc
      rcases (Mem.mem_insert _ _ _ _).1 hc with rfl | hc
      · simp only at hk ⊢
        omega
      · exact hs'.1 c hc

theorem Mem.wf_put (d : Byte) (m : Mem) (a : Nat) (v : Byte) (h : m.wf d = true) : Mem.wf d (m.put d a v) = true := by
  have hd : Mem.wf d (m.drop a) = true := Mem.wf_filter d m _ h
  unfold Mem.put
  split
  · exact hd
  · next hne =>
    have hd' := (Mem.wf_iff d _).1 hd
    refine (Mem.wf_iff d _).2 ⟨?_, ?_⟩
    · intro c hc
      rcases (Mem.mem_insert _ _ _ _).1 hc with rfl | hc
      · exact hne
      · exact hd'.1 c hc
    · refine Mem.sorted_insert _ a v hd'.2 ?_
      intro c hc
      exact of_decide_eq_true (List.mem_filter.1 hc).2

theorem Mem.wf_write (d : Byte) (l : List Byte) (m : Mem) (a : Nat) (h : m.wf d = true) : Mem.wf d (m.write d a l) = true := by
  induction l generalizing m a with
  | nil => exact h
  | cons v l ih => exact ih _ _ (Mem.wf_put d m a v h)

theorem Mem.wf_wipe (d : Byte) (m : Mem) (a n : Nat) (h : m.wf d = true) : Mem.wf d (m.wipe a n) = true := Mem.wf_filter d m _ h

theorem Mem.byte_filter (d : Byte) (m : Mem) (p : Host.Cell → Bool) (a : Nat) (h : ∀ v, p (a, v) = true) :
    Mem.byte d (m.filter p) a = Mem.byte d m a := by
  induction m with
  | nil => rfl
  | cons c m ih =>
    obtain ⟨k, v⟩ := c
    by_cases hk : k = a
    · subst hk
      rw [List.filter_cons_of_pos (h v), Mem.byte, Mem.byte, if_pos rfl, if_pos rfl]
    · by_cases hp : p (k, v) = true
      · rw [List.filter_cons_of_pos hp, Mem.byte, Mem.byte, if_neg hk, if_neg hk, ih]
      · rw [List.filter_cons_of_neg hp, ih, Mem.byte, if_neg hk]

theorem Mem.byte_unlisted (d : Byte) (m : Mem) (a : Nat) (h : ∀ c ∈ m, c.1 ≠ a) : Mem.byte d m a = d := by
  induction m with
  | nil => rfl
  | cons c m ih =>
    obtain ⟨k, v⟩ := c
    rw [Mem.byte, if_neg (h (k, v) (by simp)), ih (fun c hc => h c (by simp [hc]))]

theorem Mem.byte_drop_same (d : Byte) (m : Mem) (a : Nat) : Mem.byte d (m.drop a) a = d :=
  Mem.byte_unlisted d _ a (fun _ hc => of_decide_eq_true (List.mem_filter.1 hc).2)

theorem Mem.byte_insert (d : Byte) (m : Mem) (a x : Nat) (v : Byte) (h : ∀ c ∈ m, c.1 ≠ a) :
    Mem.byte d (m.insert a v) x = if a = x then v else Mem.byte d m x := by
  induction m with
  | nil => rfl
  | cons c m ih =>
    obtain ⟨k, w⟩ := c
    have hk : k ≠ a := h (k, w) (by simp)
    unfold Mem.insert
    split
    · rfl
    · rw [Mem.byte, Mem.byte, ih (fun c hc => h c (by simp [hc]))]
      by_cases hx : a = x
      · subst hx
        simp [hk]
      · simp [hx]

/-- One byte written: it reads as written, every other byte as before. -/
theorem Mem.byte_put (d : Byte) (m : Mem) (a x : Nat) (v : Byte) :
    Mem.byte d (m.put d a v) x = if a = x then v else Mem.byte d m x := by
  have ho : a ≠ x → Mem.byte d (m.drop a) x = Mem.byte d m x := fun e =>
    Mem.byte_filter d m _ x (fun _ => decide_eq_true (Ne.symm e))
  unfold Mem.put
  split
  · next hv =>
    by_cases e : a = x
    · subst e
      simp [Mem.byte_drop_same, hv]
    · simp [e, ho e]
  · have hd : ∀ c ∈ m.drop a, c.1 ≠ a := fun _ hc => of_decide_eq_true (List.mem_filter.1 hc).2
    rw [Mem.byte_insert d _ a x v hd]
    by_cases e : a = x
    · simp [e]
    · simp [e, ho e]

/-- Bytes written from `a`: inside, the byte written; outside, the byte before. -/
theorem Mem.byte_write (d : Byte) (l : List Byte) (m : Mem) (a x : Nat) :
    Mem.byte d (m.write d a l) x = if a ≤ x ∧ x < a + l.length then l.getD (x - a) d else Mem.byte d m x := by
  induction l generalizing m a with
  | nil =>
    have h : ¬(a ≤ x ∧ x < a + ([] : List Byte).length) := by simp only [List.length_nil]; omega
    rw [if_neg h, Mem.write]
  | cons v l ih =>
    rw [Mem.write, ih, Mem.byte_put]
    by_cases h1 : a = x
    · subst h1
      have h2 : ¬(a + 1 ≤ a ∧ a < a + 1 + l.length) := by omega
      have h3 : a ≤ a ∧ a < a + (v :: l).length := by simp only [List.length_cons]; omega
      rw [if_neg h2, if_pos rfl, if_pos h3, Nat.sub_self, List.getD_cons_zero]
    · by_cases h2 : a + 1 ≤ x ∧ x < a + 1 + l.length
      · have h3 : a ≤ x ∧ x < a + (v :: l).length := by simp only [List.length_cons]; omega
        have h4 : x - a = (x - (a + 1)) + 1 := by omega
        rw [if_pos h2, if_pos h3, h4, List.getD_cons_succ]
      · have h3 : ¬(a ≤ x ∧ x < a + (v :: l).length) := by simp only [List.length_cons]; omega
        rw [if_neg h2, if_neg h3, if_neg h1]

/-- Bytes wiped read as an unlisted byte; every other byte reads as before. -/
theorem Mem.byte_wipe (d : Byte) (m : Mem) (a n x : Nat) :
    Mem.byte d (m.wipe a n) x = if a ≤ x ∧ x < a + n then d else Mem.byte d m x := by
  split
  · next h =>
    refine Mem.byte_unlisted d _ x ?_
    intro c hc e
    have := of_decide_eq_true (List.mem_filter.1 hc).2
    rw [e] at this
    exact this h
  · next h => exact Mem.byte_filter d m _ x (fun _ => decide_eq_true h)

-- The package's memory ------------------------------------------------------------------------------------------------

theorem Block.byte_writeMem (b : Block) (a x : Nat) (l : List Byte) :
    (b.writeMem a l).byte x = if a ≤ x ∧ x < a + l.length then l.getD (x - a) 0 else b.byte x := Mem.byte_write 0 l b.mem a x

theorem Block.byte_zeroMem (b : Block) (a n x : Nat) :
    (b.zeroMem a n).byte x = if a ≤ x ∧ x < a + n then 0 else b.byte x := Mem.byte_wipe 0 b.mem a n x

theorem Block.memWf_writeMem (b : Block) (a : Nat) (l : List Byte) (h : b.memWf = true) : (b.writeMem a l).memWf = true := by
  simp only [Block.memWf, Bool.and_eq_true] at *
  exact ⟨Mem.wf_write 0 l b.mem a h.1, h.2⟩

theorem Block.memWf_zeroMem (b : Block) (a n : Nat) (h : b.memWf = true) : (b.zeroMem a n).memWf = true := by
  simp only [Block.memWf, Bool.and_eq_true] at *
  exact ⟨Mem.wf_wipe 0 b.mem a n h.1, h.2⟩

theorem Block.memWf_eraseNvm (b : Block) (a n : Nat) (h : b.memWf = true) : (b.eraseNvm a n).memWf = true := by
  simp only [Block.memWf, Bool.and_eq_true] at *
  exact ⟨h.1, Mem.wf_wipe 0xFF b.cfg.nvm a n h.2⟩

theorem Block.memWf_programNvm (l : List Byte) (b : Block) (a : Nat) (h : b.memWf = true) : (b.programNvm a l).memWf = true := by
  induction l generalizing b a with
  | nil => exact h
  | cons v l ih =>
    refine ih _ _ ?_
    simp only [Block.memWf, Bool.and_eq_true] at *
    exact ⟨h.1, Mem.wf_put 0xFF b.cfg.nvm a _ h.2⟩

end Sys2Proof.Machine
end

