-- ==== Sys2Proof/Laws/Registers.lean ====
section
/-! SUPPORT. The register file: what a field reads as after a write, and that writing and resetting keep its canonical form. -/

namespace Sys2Proof.Machine

theorem RegFile.find_drop_same (r : RegFile) (f : Fld) (i : Nat) : RegFile.find (r.drop f i) f i = none := by
  induction r with
  | nil => rfl
  | cons c r ih =>
    obtain ⟨g, j, w⟩ := c
    by_cases h : g = f ∧ j = i
    · simpa [RegFile.drop, h] using ih
    · have : RegFile.drop ((g, j, w) :: r) f i = (g, j, w) :: RegFile.drop r f i :=
        List.filter_cons_of_pos (decide_eq_true h)
      rw [this, RegFile.find, if_neg h, ih]

theorem RegFile.find_drop_ne (r : RegFile) (f g : Fld) (i j : Nat) (h : ¬(g = f ∧ j = i)) :
    RegFile.find (r.drop f i) g j = RegFile.find r g j := by
  induction r with
  | nil => rfl
  | cons c r ih =>
    obtain ⟨k, m, w⟩ := c
    by_cases hk : k = f ∧ m = i
    · have hd : RegFile.drop ((k, m, w) :: r) f i = RegFile.drop r f i := by simp [RegFile.drop, hk]
      have hn : ¬(k = g ∧ m = j) := fun e => h ⟨e.1 ▸ hk.1, e.2 ▸ hk.2⟩
      rw [hd, ih, RegFile.find, if_neg hn]
    · have hd : RegFile.drop ((k, m, w) :: r) f i = (k, m, w) :: RegFile.drop r f i :=
        List.filter_cons_of_pos (decide_eq_true hk)
      rw [hd, RegFile.find, RegFile.find, ih]

theorem RegFile.find_insert_same (r : RegFile) (f : Fld) (i v : Nat) (h : RegFile.find r f i = none) :
    RegFile.find (r.insert f i v) f i = some v := by
  induction r with
  | nil => simp [RegFile.insert, RegFile.find]
  | cons c r ih =>
    obtain ⟨g, j, w⟩ := c
    unfold RegFile.find at h
    split at h
    · cases h
    · next hn =>
      unfold RegFile.insert
      split
      · simp [RegFile.find]
      · rw [RegFile.find, if_neg hn, ih h]

theorem RegFile.find_insert_ne (r : RegFile) (f g : Fld) (i j v : Nat) (h : ¬(f = g ∧ i = j)) :
    RegFile.find (r.insert f i v) g j = RegFile.find r g j := by
  induction r with
  | nil => simp [RegFile.insert, RegFile.find, h]
  | cons c r ih =>
    obtain ⟨k, m, w⟩ := c
    unfold RegFile.insert
    split
    · rw [RegFile.find, if_neg h]
    · rw [RegFile.find, RegFile.find, ih]

/-- A field reads as what was last written to it, cut to its width; other fields and instances are untouched. -/
theorem Block.get_set (b : Block) (f g : Fld) (i j v : Nat) :
    (b.set f i v).get g j = if f = g ∧ i = j then v % 2 ^ f.desc.width else b.get g j := by
  unfold Block.get Block.set RegFile.put
  by_cases hr : v % 2 ^ f.desc.width = f.resetVal i <;> by_cases h : f = g ∧ i = j
  · obtain ⟨rfl, rfl⟩ := h
    simp [hr, RegFile.find_drop_same]
  · have h' : ¬(g = f ∧ j = i) := fun e => h ⟨e.1.symm, e.2.symm⟩
    simp [hr, h, RegFile.find_drop_ne _ _ _ _ _ h']
  · obtain ⟨rfl, rfl⟩ := h
    simp [hr, RegFile.find_insert_same _ _ _ _ (RegFile.find_drop_same b.regs f i)]
  · have h' : ¬(g = f ∧ j = i) := fun e => h ⟨e.1.symm, e.2.symm⟩
    simp [hr, h, RegFile.find_insert_ne _ _ _ _ _ _ h, RegFile.find_drop_ne _ _ _ _ _ h']

/-- The written field. -/
@[simp] theorem Block.get_set_same (b : Block) (f : Fld) (i v : Nat) : (b.set f i v).get f i = v % 2 ^ f.desc.width := by
  simp [Block.get_set]

/-- Another field. -/
@[simp] theorem Block.get_set_other (b : Block) (f g : Fld) (i j v : Nat) (h : f ≠ g) : (b.set f i v).get g j = b.get g j := by
  simp [Block.get_set, h]

/-- Another instance of the same field. -/
theorem Block.get_set_instance (b : Block) (f : Fld) (i j v : Nat) (h : i ≠ j) : (b.set f i v).get f j = b.get f j := by
  simp [Block.get_set, h]

/-- A register that no rule has written reads as its reset value. -/
theorem Block.get_reset (f : Fld) (i : Nat) : Block.reset.get f i = f.resetVal i := rfl

theorem RegFile.find_filter (r : RegFile) (p : RegCell → Bool) (f : Fld) (i : Nat) (keep : Fld → Nat → Bool)
    (h : ∀ c, p c = keep c.1 c.2.1) :
    RegFile.find (r.filter p) f i = if keep f i then RegFile.find r f i else none := by
  induction r with
  | nil => simp [RegFile.find]
  | cons c r ih =>
    obtain ⟨g, j, w⟩ := c
    by_cases hp : p (g, j, w) = true
    · rw [List.filter_cons_of_pos hp, RegFile.find, RegFile.find, ih]
      by_cases e : g = f ∧ j = i
      · obtain ⟨rfl, rfl⟩ := e
        rw [h] at hp
        simp [hp]
      · rw [if_neg e, if_neg e]
    · rw [List.filter_cons_of_neg hp, ih, RegFile.find]
      by_cases e : g = f ∧ j = i
      · obtain ⟨rfl, rfl⟩ := e
        rw [h] at hp
        simp [hp]
      · rw [if_neg e]

/-- After a reset of part of the register file, a field that is kept reads as before and any other at its reset value. -/
theorem Block.get_resetRegs (b : Block) (keep : Fld → Nat → Bool) (f : Fld) (i : Nat) :
    (b.resetRegs keep).get f i = if keep f i then b.get f i else f.resetVal i := by
  unfold Block.get Block.resetRegs
  rw [RegFile.find_filter b.regs _ f i keep (fun _ => rfl)]
  split <;> rfl

-- The canonical form --------------------------------------------------------------------------------------------------

theorem Fld.ctorIdx_inj {f g : Fld} (h : f.ctorIdx = g.ctorIdx) : f = g := by
  rw [← Fld.ofNat_ctorIdx f, h, Fld.ofNat_ctorIdx]

theorem cellLt_trans {f g k : Fld} {i j m : Nat} (h : cellLt f i g j = true) (h' : cellLt g j k m = true) : cellLt f i k m = true := by
  simp only [cellLt, Bool.or_eq_true, decide_eq_true_eq, Bool.and_eq_true, beq_iff_eq] at *
  omega

theorem cellLt_total {f g : Fld} {i j : Nat} (h : ¬(g = f ∧ j = i)) (h' : cellLt f i g j = false) : cellLt g j f i = true := by
  by_cases e : f.ctorIdx = g.ctorIdx
  · have := Fld.ctorIdx_inj e
    subst this
    simp [cellLt] at h h' ⊢
    omega
  · simp [cellLt] at h' ⊢
    omega

/-- The order alone: every cell before each that follows it. -/
def RegFile.Sorted (r : RegFile) : Prop := r.Pairwise (fun c d => cellLt c.1 c.2.1 d.1 d.2.1 = true)

theorem RegFile.wf_iff (r : RegFile) : r.wf = true ↔ (∀ c ∈ r, c.ok = true) ∧ RegFile.Sorted r := by
  induction r with
  | nil => simp [RegFile.wf, RegFile.Sorted]
  | cons c r ih =>
    cases r with
    | nil => simp [RegFile.wf, RegFile.Sorted]
    | cons d r =>
      simp only [RegFile.wf, Bool.and_eq_true, ih, RegFile.Sorted, List.pairwise_cons, List.mem_cons, forall_eq_or_imp]
      constructor
      · rintro ⟨⟨hc, hl⟩, ⟨hd, hr⟩, hs, hp⟩
        exact ⟨⟨hc, hd, hr⟩, ⟨hl, fun x hx => cellLt_trans hl (hs x hx)⟩, hs, hp⟩
      · rintro ⟨⟨hc, hd, hr⟩, ⟨hl, -⟩, hs, hp⟩
        exact ⟨⟨hc, hl⟩, ⟨hd, hr⟩, hs, hp⟩

theorem RegFile.wf_filter (r : RegFile) (p : RegCell → Bool) (h : r.wf = true) : RegFile.wf (r.filter p) = true := by
  rw [RegFile.wf_iff] at *
  exact ⟨fun c hc => h.1 c (List.mem_filter.1 hc).1, List.Pairwise.filter p h.2⟩

theorem RegFile.mem_insert (r : RegFile) (f : Fld) (i v : Nat) (c : RegCell) :
    c ∈ r.insert f i v ↔ c = (f, i, v) ∨ c ∈ r := by
  induction r with
  | nil => simp [RegFile.insert]
  | cons d r ih =>
    obtain ⟨g, j, w⟩ := d
    unfold RegFile.insert
    split
    · simp
    · simp only [List.mem_cons, ih]
      exact or_left_comm

theorem RegFile.sorted_insert (r : RegFile) (f : Fld) (i v : Nat) (hs : RegFile.Sorted r)
    (hn : ∀ c ∈ r, ¬(c.1 = f ∧ c.2.1 = i)) : RegFile.Sorted (r.insert f i v) := by
  induction r with
  | nil => simp [RegFile.insert, RegFile.Sorted]
  | cons d r ih =>
    obtain ⟨g, j, w⟩ := d
    have hs' := List.pairwise_cons.1 hs
    have hd := hn (g, j, w) (by simp)
    unfold RegFile.insert
    split
    · next hl =>
      refine List.pairwise_cons.2 ⟨?_, hs⟩
      intro c hc
      rcases List.mem_cons.1 hc with rfl | hc
      · exact hl
      · exact cellLt_trans hl (hs'.1 c hc)
    · next hl =>
      refine List.pairwise_cons.2 ⟨?_, ih hs'.2 (fun c hc => hn c (by simp [hc]))⟩
      intro c hc
      rcases (RegFile.mem_insert _ _ _ _ _).1 hc with rfl | hc
      · exact cellLt_total hd (by simpa using hl)
      · exact hs'.1 c hc

theorem RegFile.wf_put (r : RegFile) (f : Fld) (i v : Nat) (h : r.wf = true) : RegFile.wf (r.put f i v) = true := by
  have hd : RegFile.wf (r.drop f i) = true := RegFile.wf_filter r _ h
  simp only [RegFile.put]
  split
  · exact hd
  · next hne =>
    have hd' := (RegFile.wf_iff _).1 hd
    refine (RegFile.wf_iff _).2 ⟨?_, ?_⟩
    · intro c hc
      rcases (RegFile.mem_insert _ _ _ _ _).1 hc with rfl | hc
      · simp only [RegCell.ok, Bool.and_eq_true, decide_eq_true_eq]
        exact ⟨Nat.mod_lt _ (Nat.two_pow_pos _), hne⟩
      · exact hd'.1 c hc
    · refine RegFile.sorted_insert _ f i _ hd'.2 ?_
      intro c hc
      simpa using of_decide_eq_true (List.mem_filter.1 hc).2

theorem RegFile.find_lt (r : RegFile) (f : Fld) (i v : Nat) (h : ∀ c ∈ r, RegCell.ok c = true) (hf : r.find f i = some v) :
    v < 2 ^ f.desc.width := by
  induction r with
  | nil => cases hf
  | cons d r ih =>
    obtain ⟨g, j, w⟩ := d
    unfold RegFile.find at hf
    split at hf
    · next e =>
      cases hf
      have := h (g, j, v) List.mem_cons_self
      simp only [RegCell.ok, Bool.and_eq_true, decide_eq_true_eq, e.1] at this
      exact this.1
    · exact ih (fun c hc => h c (by simp [hc])) hf

/-- In a canonical register file every register reads as a value of its width. -/
theorem Block.get_lt (b : Block) (f : Fld) (i : Nat) (h : b.regsWf = true) : b.get f i < 2 ^ f.desc.width := by
  unfold Block.get
  cases e : RegFile.find b.regs f i with
  | none => exact Nat.mod_lt _ (Nat.two_pow_pos _)
  | some v => exact RegFile.find_lt _ _ _ _ ((RegFile.wf_iff _).1 h).1 e

end Sys2Proof.Machine
end

