-- ==== Sys2Proof/Laws/State.lean ====
section
/-! SUPPORT. What each update of the package leaves alone: one lemma for each field of the package and each update, and what registers,
flags and bytes read as through an update of anything else. -/

namespace Sys2Proof.Machine

-- set
@[simp] theorem Block.set_mem (b : Block) (f : Fld) (i v : Nat) : (b.set f i v).mem = b.mem := rfl
@[simp] theorem Block.set_gmc (b : Block) (f : Fld) (i v : Nat) : (b.set f i v).gmc = b.gmc := rfl
@[simp] theorem Block.set_pwr (b : Block) (f : Fld) (i v : Nat) : (b.set f i v).pwr = b.pwr := rfl
@[simp] theorem Block.set_dies (b : Block) (f : Fld) (i v : Nat) : (b.set f i v).dies = b.dies := rfl
@[simp] theorem Block.set_cfg (b : Block) (f : Fld) (i v : Nat) : (b.set f i v).cfg = b.cfg := rfl
@[simp] theorem Block.set_mgmt (b : Block) (f : Fld) (i v : Nat) : (b.set f i v).mgmt = b.mgmt := rfl
@[simp] theorem Block.set_link (b : Block) (f : Fld) (i v : Nat) : (b.set f i v).link = b.link := rfl
@[simp] theorem Block.set_sqs (b : Block) (f : Fld) (i v : Nat) : (b.set f i v).sqs = b.sqs := rfl
@[simp] theorem Block.set_cqs (b : Block) (f : Fld) (i v : Nat) : (b.set f i v).cqs = b.cqs := rfl
@[simp] theorem Block.set_hop (b : Block) (f : Fld) (i v : Nat) : (b.set f i v).hop = b.hop := rfl
@[simp] theorem Block.set_ms (b : Block) (f : Fld) (i v : Nat) : (b.set f i v).ms = b.ms := rfl
@[simp] theorem Block.set_fab (b : Block) (f : Fld) (i v : Nat) : (b.set f i v).fab = b.fab := rfl
@[simp] theorem Block.set_gs (b : Block) (f : Fld) (i v : Nat) : (b.set f i v).gs = b.gs := rfl
@[simp] theorem Block.set_gov (b : Block) (f : Fld) (i v : Nat) : (b.set f i v).gov = b.gov := rfl
@[simp] theorem Block.set_svc (b : Block) (f : Fld) (i v : Nat) : (b.set f i v).svc = b.svc := rfl
@[simp] theorem Block.set_tiles (b : Block) (f : Fld) (i v : Nat) : (b.set f i v).tiles = b.tiles := rfl
@[simp] theorem Block.set_evt (b : Block) (f : Fld) (i v : Nat) : (b.set f i v).evt = b.evt := rfl
@[simp] theorem Block.set_vio (b : Block) (f : Fld) (i v : Nat) : (b.set f i v).vio = b.vio := rfl
@[simp] theorem Block.set_out (b : Block) (f : Fld) (i v : Nat) : (b.set f i v).out = b.out := rfl
@[simp] theorem Block.set_free (b : Block) (f : Fld) (i v : Nat) : (b.set f i v).free = b.free := rfl

-- bump
@[simp] theorem Block.bump_mem (b : Block) (f : Fld) (i k : Nat) : (b.bump f i k).mem = b.mem := rfl
@[simp] theorem Block.bump_gmc (b : Block) (f : Fld) (i k : Nat) : (b.bump f i k).gmc = b.gmc := rfl
@[simp] theorem Block.bump_pwr (b : Block) (f : Fld) (i k : Nat) : (b.bump f i k).pwr = b.pwr := rfl
@[simp] theorem Block.bump_dies (b : Block) (f : Fld) (i k : Nat) : (b.bump f i k).dies = b.dies := rfl
@[simp] theorem Block.bump_cfg (b : Block) (f : Fld) (i k : Nat) : (b.bump f i k).cfg = b.cfg := rfl
@[simp] theorem Block.bump_mgmt (b : Block) (f : Fld) (i k : Nat) : (b.bump f i k).mgmt = b.mgmt := rfl
@[simp] theorem Block.bump_link (b : Block) (f : Fld) (i k : Nat) : (b.bump f i k).link = b.link := rfl
@[simp] theorem Block.bump_sqs (b : Block) (f : Fld) (i k : Nat) : (b.bump f i k).sqs = b.sqs := rfl
@[simp] theorem Block.bump_cqs (b : Block) (f : Fld) (i k : Nat) : (b.bump f i k).cqs = b.cqs := rfl
@[simp] theorem Block.bump_hop (b : Block) (f : Fld) (i k : Nat) : (b.bump f i k).hop = b.hop := rfl
@[simp] theorem Block.bump_ms (b : Block) (f : Fld) (i k : Nat) : (b.bump f i k).ms = b.ms := rfl
@[simp] theorem Block.bump_fab (b : Block) (f : Fld) (i k : Nat) : (b.bump f i k).fab = b.fab := rfl
@[simp] theorem Block.bump_gs (b : Block) (f : Fld) (i k : Nat) : (b.bump f i k).gs = b.gs := rfl
@[simp] theorem Block.bump_gov (b : Block) (f : Fld) (i k : Nat) : (b.bump f i k).gov = b.gov := rfl
@[simp] theorem Block.bump_svc (b : Block) (f : Fld) (i k : Nat) : (b.bump f i k).svc = b.svc := rfl
@[simp] theorem Block.bump_tiles (b : Block) (f : Fld) (i k : Nat) : (b.bump f i k).tiles = b.tiles := rfl
@[simp] theorem Block.bump_evt (b : Block) (f : Fld) (i k : Nat) : (b.bump f i k).evt = b.evt := rfl
@[simp] theorem Block.bump_vio (b : Block) (f : Fld) (i k : Nat) : (b.bump f i k).vio = b.vio := rfl
@[simp] theorem Block.bump_out (b : Block) (f : Fld) (i k : Nat) : (b.bump f i k).out = b.out := rfl
@[simp] theorem Block.bump_free (b : Block) (f : Fld) (i k : Nat) : (b.bump f i k).free = b.free := rfl

-- bumpSat
@[simp] theorem Block.bumpSat_mem (b : Block) (f : Fld) (i k : Nat) : (b.bumpSat f i k).mem = b.mem := rfl
@[simp] theorem Block.bumpSat_gmc (b : Block) (f : Fld) (i k : Nat) : (b.bumpSat f i k).gmc = b.gmc := rfl
@[simp] theorem Block.bumpSat_pwr (b : Block) (f : Fld) (i k : Nat) : (b.bumpSat f i k).pwr = b.pwr := rfl
@[simp] theorem Block.bumpSat_dies (b : Block) (f : Fld) (i k : Nat) : (b.bumpSat f i k).dies = b.dies := rfl
@[simp] theorem Block.bumpSat_cfg (b : Block) (f : Fld) (i k : Nat) : (b.bumpSat f i k).cfg = b.cfg := rfl
@[simp] theorem Block.bumpSat_mgmt (b : Block) (f : Fld) (i k : Nat) : (b.bumpSat f i k).mgmt = b.mgmt := rfl
@[simp] theorem Block.bumpSat_link (b : Block) (f : Fld) (i k : Nat) : (b.bumpSat f i k).link = b.link := rfl
@[simp] theorem Block.bumpSat_sqs (b : Block) (f : Fld) (i k : Nat) : (b.bumpSat f i k).sqs = b.sqs := rfl
@[simp] theorem Block.bumpSat_cqs (b : Block) (f : Fld) (i k : Nat) : (b.bumpSat f i k).cqs = b.cqs := rfl
@[simp] theorem Block.bumpSat_hop (b : Block) (f : Fld) (i k : Nat) : (b.bumpSat f i k).hop = b.hop := rfl
@[simp] theorem Block.bumpSat_ms (b : Block) (f : Fld) (i k : Nat) : (b.bumpSat f i k).ms = b.ms := rfl
@[simp] theorem Block.bumpSat_fab (b : Block) (f : Fld) (i k : Nat) : (b.bumpSat f i k).fab = b.fab := rfl
@[simp] theorem Block.bumpSat_gs (b : Block) (f : Fld) (i k : Nat) : (b.bumpSat f i k).gs = b.gs := rfl
@[simp] theorem Block.bumpSat_gov (b : Block) (f : Fld) (i k : Nat) : (b.bumpSat f i k).gov = b.gov := rfl
@[simp] theorem Block.bumpSat_svc (b : Block) (f : Fld) (i k : Nat) : (b.bumpSat f i k).svc = b.svc := rfl
@[simp] theorem Block.bumpSat_tiles (b : Block) (f : Fld) (i k : Nat) : (b.bumpSat f i k).tiles = b.tiles := rfl
@[simp] theorem Block.bumpSat_evt (b : Block) (f : Fld) (i k : Nat) : (b.bumpSat f i k).evt = b.evt := rfl
@[simp] theorem Block.bumpSat_vio (b : Block) (f : Fld) (i k : Nat) : (b.bumpSat f i k).vio = b.vio := rfl
@[simp] theorem Block.bumpSat_out (b : Block) (f : Fld) (i k : Nat) : (b.bumpSat f i k).out = b.out := rfl
@[simp] theorem Block.bumpSat_free (b : Block) (f : Fld) (i k : Nat) : (b.bumpSat f i k).free = b.free := rfl

-- setB
@[simp] theorem Block.setB_mem (b : Block) (f : Fld) (i n : Nat) : (b.setB f i n).mem = b.mem := rfl
@[simp] theorem Block.setB_gmc (b : Block) (f : Fld) (i n : Nat) : (b.setB f i n).gmc = b.gmc := rfl
@[simp] theorem Block.setB_pwr (b : Block) (f : Fld) (i n : Nat) : (b.setB f i n).pwr = b.pwr := rfl
@[simp] theorem Block.setB_dies (b : Block) (f : Fld) (i n : Nat) : (b.setB f i n).dies = b.dies := rfl
@[simp] theorem Block.setB_cfg (b : Block) (f : Fld) (i n : Nat) : (b.setB f i n).cfg = b.cfg := rfl
@[simp] theorem Block.setB_mgmt (b : Block) (f : Fld) (i n : Nat) : (b.setB f i n).mgmt = b.mgmt := rfl
@[simp] theorem Block.setB_link (b : Block) (f : Fld) (i n : Nat) : (b.setB f i n).link = b.link := rfl
@[simp] theorem Block.setB_sqs (b : Block) (f : Fld) (i n : Nat) : (b.setB f i n).sqs = b.sqs := rfl
@[simp] theorem Block.setB_cqs (b : Block) (f : Fld) (i n : Nat) : (b.setB f i n).cqs = b.cqs := rfl
@[simp] theorem Block.setB_hop (b : Block) (f : Fld) (i n : Nat) : (b.setB f i n).hop = b.hop := rfl
@[simp] theorem Block.setB_ms (b : Block) (f : Fld) (i n : Nat) : (b.setB f i n).ms = b.ms := rfl
@[simp] theorem Block.setB_fab (b : Block) (f : Fld) (i n : Nat) : (b.setB f i n).fab = b.fab := rfl
@[simp] theorem Block.setB_gs (b : Block) (f : Fld) (i n : Nat) : (b.setB f i n).gs = b.gs := rfl
@[simp] theorem Block.setB_gov (b : Block) (f : Fld) (i n : Nat) : (b.setB f i n).gov = b.gov := rfl
@[simp] theorem Block.setB_svc (b : Block) (f : Fld) (i n : Nat) : (b.setB f i n).svc = b.svc := rfl
@[simp] theorem Block.setB_tiles (b : Block) (f : Fld) (i n : Nat) : (b.setB f i n).tiles = b.tiles := rfl
@[simp] theorem Block.setB_evt (b : Block) (f : Fld) (i n : Nat) : (b.setB f i n).evt = b.evt := rfl
@[simp] theorem Block.setB_vio (b : Block) (f : Fld) (i n : Nat) : (b.setB f i n).vio = b.vio := rfl
@[simp] theorem Block.setB_out (b : Block) (f : Fld) (i n : Nat) : (b.setB f i n).out = b.out := rfl
@[simp] theorem Block.setB_free (b : Block) (f : Fld) (i n : Nat) : (b.setB f i n).free = b.free := rfl

-- clrB
@[simp] theorem Block.clrB_mem (b : Block) (f : Fld) (i n : Nat) : (b.clrB f i n).mem = b.mem := rfl
@[simp] theorem Block.clrB_gmc (b : Block) (f : Fld) (i n : Nat) : (b.clrB f i n).gmc = b.gmc := rfl
@[simp] theorem Block.clrB_pwr (b : Block) (f : Fld) (i n : Nat) : (b.clrB f i n).pwr = b.pwr := rfl
@[simp] theorem Block.clrB_dies (b : Block) (f : Fld) (i n : Nat) : (b.clrB f i n).dies = b.dies := rfl
@[simp] theorem Block.clrB_cfg (b : Block) (f : Fld) (i n : Nat) : (b.clrB f i n).cfg = b.cfg := rfl
@[simp] theorem Block.clrB_mgmt (b : Block) (f : Fld) (i n : Nat) : (b.clrB f i n).mgmt = b.mgmt := rfl
@[simp] theorem Block.clrB_link (b : Block) (f : Fld) (i n : Nat) : (b.clrB f i n).link = b.link := rfl
@[simp] theorem Block.clrB_sqs (b : Block) (f : Fld) (i n : Nat) : (b.clrB f i n).sqs = b.sqs := rfl
@[simp] theorem Block.clrB_cqs (b : Block) (f : Fld) (i n : Nat) : (b.clrB f i n).cqs = b.cqs := rfl
@[simp] theorem Block.clrB_hop (b : Block) (f : Fld) (i n : Nat) : (b.clrB f i n).hop = b.hop := rfl
@[simp] theorem Block.clrB_ms (b : Block) (f : Fld) (i n : Nat) : (b.clrB f i n).ms = b.ms := rfl
@[simp] theorem Block.clrB_fab (b : Block) (f : Fld) (i n : Nat) : (b.clrB f i n).fab = b.fab := rfl
@[simp] theorem Block.clrB_gs (b : Block) (f : Fld) (i n : Nat) : (b.clrB f i n).gs = b.gs := rfl
@[simp] theorem Block.clrB_gov (b : Block) (f : Fld) (i n : Nat) : (b.clrB f i n).gov = b.gov := rfl
@[simp] theorem Block.clrB_svc (b : Block) (f : Fld) (i n : Nat) : (b.clrB f i n).svc = b.svc := rfl
@[simp] theorem Block.clrB_tiles (b : Block) (f : Fld) (i n : Nat) : (b.clrB f i n).tiles = b.tiles := rfl
@[simp] theorem Block.clrB_evt (b : Block) (f : Fld) (i n : Nat) : (b.clrB f i n).evt = b.evt := rfl
@[simp] theorem Block.clrB_vio (b : Block) (f : Fld) (i n : Nat) : (b.clrB f i n).vio = b.vio := rfl
@[simp] theorem Block.clrB_out (b : Block) (f : Fld) (i n : Nat) : (b.clrB f i n).out = b.out := rfl
@[simp] theorem Block.clrB_free (b : Block) (f : Fld) (i n : Nat) : (b.clrB f i n).free = b.free := rfl

-- resetRegs
@[simp] theorem Block.resetRegs_mem (b : Block) (keep : Fld → Nat → Bool) : (b.resetRegs keep).mem = b.mem := rfl
@[simp] theorem Block.resetRegs_gmc (b : Block) (keep : Fld → Nat → Bool) : (b.resetRegs keep).gmc = b.gmc := rfl
@[simp] theorem Block.resetRegs_pwr (b : Block) (keep : Fld → Nat → Bool) : (b.resetRegs keep).pwr = b.pwr := rfl
@[simp] theorem Block.resetRegs_dies (b : Block) (keep : Fld → Nat → Bool) : (b.resetRegs keep).dies = b.dies := rfl
@[simp] theorem Block.resetRegs_cfg (b : Block) (keep : Fld → Nat → Bool) : (b.resetRegs keep).cfg = b.cfg := rfl
@[simp] theorem Block.resetRegs_mgmt (b : Block) (keep : Fld → Nat → Bool) : (b.resetRegs keep).mgmt = b.mgmt := rfl
@[simp] theorem Block.resetRegs_link (b : Block) (keep : Fld → Nat → Bool) : (b.resetRegs keep).link = b.link := rfl
@[simp] theorem Block.resetRegs_sqs (b : Block) (keep : Fld → Nat → Bool) : (b.resetRegs keep).sqs = b.sqs := rfl
@[simp] theorem Block.resetRegs_cqs (b : Block) (keep : Fld → Nat → Bool) : (b.resetRegs keep).cqs = b.cqs := rfl
@[simp] theorem Block.resetRegs_hop (b : Block) (keep : Fld → Nat → Bool) : (b.resetRegs keep).hop = b.hop := rfl
@[simp] theorem Block.resetRegs_ms (b : Block) (keep : Fld → Nat → Bool) : (b.resetRegs keep).ms = b.ms := rfl
@[simp] theorem Block.resetRegs_fab (b : Block) (keep : Fld → Nat → Bool) : (b.resetRegs keep).fab = b.fab := rfl
@[simp] theorem Block.resetRegs_gs (b : Block) (keep : Fld → Nat → Bool) : (b.resetRegs keep).gs = b.gs := rfl
@[simp] theorem Block.resetRegs_gov (b : Block) (keep : Fld → Nat → Bool) : (b.resetRegs keep).gov = b.gov := rfl
@[simp] theorem Block.resetRegs_svc (b : Block) (keep : Fld → Nat → Bool) : (b.resetRegs keep).svc = b.svc := rfl
@[simp] theorem Block.resetRegs_tiles (b : Block) (keep : Fld → Nat → Bool) : (b.resetRegs keep).tiles = b.tiles := rfl
@[simp] theorem Block.resetRegs_evt (b : Block) (keep : Fld → Nat → Bool) : (b.resetRegs keep).evt = b.evt := rfl
@[simp] theorem Block.resetRegs_vio (b : Block) (keep : Fld → Nat → Bool) : (b.resetRegs keep).vio = b.vio := rfl
@[simp] theorem Block.resetRegs_out (b : Block) (keep : Fld → Nat → Bool) : (b.resetRegs keep).out = b.out := rfl
@[simp] theorem Block.resetRegs_free (b : Block) (keep : Fld → Nat → Bool) : (b.resetRegs keep).free = b.free := rfl

-- writeMem
@[simp] theorem Block.writeMem_regs (b : Block) (a : Nat) (l : List Byte) : (b.writeMem a l).regs = b.regs := rfl
@[simp] theorem Block.writeMem_gmc (b : Block) (a : Nat) (l : List Byte) : (b.writeMem a l).gmc = b.gmc := rfl
@[simp] theorem Block.writeMem_pwr (b : Block) (a : Nat) (l : List Byte) : (b.writeMem a l).pwr = b.pwr := rfl
@[simp] theorem Block.writeMem_dies (b : Block) (a : Nat) (l : List Byte) : (b.writeMem a l).dies = b.dies := rfl
@[simp] theorem Block.writeMem_cfg (b : Block) (a : Nat) (l : List Byte) : (b.writeMem a l).cfg = b.cfg := rfl
@[simp] theorem Block.writeMem_mgmt (b : Block) (a : Nat) (l : List Byte) : (b.writeMem a l).mgmt = b.mgmt := rfl
@[simp] theorem Block.writeMem_link (b : Block) (a : Nat) (l : List Byte) : (b.writeMem a l).link = b.link := rfl
@[simp] theorem Block.writeMem_sqs (b : Block) (a : Nat) (l : List Byte) : (b.writeMem a l).sqs = b.sqs := rfl
@[simp] theorem Block.writeMem_cqs (b : Block) (a : Nat) (l : List Byte) : (b.writeMem a l).cqs = b.cqs := rfl
@[simp] theorem Block.writeMem_hop (b : Block) (a : Nat) (l : List Byte) : (b.writeMem a l).hop = b.hop := rfl
@[simp] theorem Block.writeMem_ms (b : Block) (a : Nat) (l : List Byte) : (b.writeMem a l).ms = b.ms := rfl
@[simp] theorem Block.writeMem_fab (b : Block) (a : Nat) (l : List Byte) : (b.writeMem a l).fab = b.fab := rfl
@[simp] theorem Block.writeMem_gs (b : Block) (a : Nat) (l : List Byte) : (b.writeMem a l).gs = b.gs := rfl
@[simp] theorem Block.writeMem_gov (b : Block) (a : Nat) (l : List Byte) : (b.writeMem a l).gov = b.gov := rfl
@[simp] theorem Block.writeMem_svc (b : Block) (a : Nat) (l : List Byte) : (b.writeMem a l).svc = b.svc := rfl
@[simp] theorem Block.writeMem_tiles (b : Block) (a : Nat) (l : List Byte) : (b.writeMem a l).tiles = b.tiles := rfl
@[simp] theorem Block.writeMem_evt (b : Block) (a : Nat) (l : List Byte) : (b.writeMem a l).evt = b.evt := rfl
@[simp] theorem Block.writeMem_vio (b : Block) (a : Nat) (l : List Byte) : (b.writeMem a l).vio = b.vio := rfl
@[simp] theorem Block.writeMem_out (b : Block) (a : Nat) (l : List Byte) : (b.writeMem a l).out = b.out := rfl
@[simp] theorem Block.writeMem_free (b : Block) (a : Nat) (l : List Byte) : (b.writeMem a l).free = b.free := rfl

-- zeroMem
@[simp] theorem Block.zeroMem_regs (b : Block) (a n : Nat) : (b.zeroMem a n).regs = b.regs := rfl
@[simp] theorem Block.zeroMem_gmc (b : Block) (a n : Nat) : (b.zeroMem a n).gmc = b.gmc := rfl
@[simp] theorem Block.zeroMem_pwr (b : Block) (a n : Nat) : (b.zeroMem a n).pwr = b.pwr := rfl
@[simp] theorem Block.zeroMem_dies (b : Block) (a n : Nat) : (b.zeroMem a n).dies = b.dies := rfl
@[simp] theorem Block.zeroMem_cfg (b : Block) (a n : Nat) : (b.zeroMem a n).cfg = b.cfg := rfl
@[simp] theorem Block.zeroMem_mgmt (b : Block) (a n : Nat) : (b.zeroMem a n).mgmt = b.mgmt := rfl
@[simp] theorem Block.zeroMem_link (b : Block) (a n : Nat) : (b.zeroMem a n).link = b.link := rfl
@[simp] theorem Block.zeroMem_sqs (b : Block) (a n : Nat) : (b.zeroMem a n).sqs = b.sqs := rfl
@[simp] theorem Block.zeroMem_cqs (b : Block) (a n : Nat) : (b.zeroMem a n).cqs = b.cqs := rfl
@[simp] theorem Block.zeroMem_hop (b : Block) (a n : Nat) : (b.zeroMem a n).hop = b.hop := rfl
@[simp] theorem Block.zeroMem_ms (b : Block) (a n : Nat) : (b.zeroMem a n).ms = b.ms := rfl
@[simp] theorem Block.zeroMem_fab (b : Block) (a n : Nat) : (b.zeroMem a n).fab = b.fab := rfl
@[simp] theorem Block.zeroMem_gs (b : Block) (a n : Nat) : (b.zeroMem a n).gs = b.gs := rfl
@[simp] theorem Block.zeroMem_gov (b : Block) (a n : Nat) : (b.zeroMem a n).gov = b.gov := rfl
@[simp] theorem Block.zeroMem_svc (b : Block) (a n : Nat) : (b.zeroMem a n).svc = b.svc := rfl
@[simp] theorem Block.zeroMem_tiles (b : Block) (a n : Nat) : (b.zeroMem a n).tiles = b.tiles := rfl
@[simp] theorem Block.zeroMem_evt (b : Block) (a n : Nat) : (b.zeroMem a n).evt = b.evt := rfl
@[simp] theorem Block.zeroMem_vio (b : Block) (a n : Nat) : (b.zeroMem a n).vio = b.vio := rfl
@[simp] theorem Block.zeroMem_out (b : Block) (a n : Nat) : (b.zeroMem a n).out = b.out := rfl
@[simp] theorem Block.zeroMem_free (b : Block) (a n : Nat) : (b.zeroMem a n).free = b.free := rfl

-- eraseNvm
@[simp] theorem Block.eraseNvm_regs (b : Block) (a n : Nat) : (b.eraseNvm a n).regs = b.regs := rfl
@[simp] theorem Block.eraseNvm_mem (b : Block) (a n : Nat) : (b.eraseNvm a n).mem = b.mem := rfl
@[simp] theorem Block.eraseNvm_gmc (b : Block) (a n : Nat) : (b.eraseNvm a n).gmc = b.gmc := rfl
@[simp] theorem Block.eraseNvm_pwr (b : Block) (a n : Nat) : (b.eraseNvm a n).pwr = b.pwr := rfl
@[simp] theorem Block.eraseNvm_dies (b : Block) (a n : Nat) : (b.eraseNvm a n).dies = b.dies := rfl
@[simp] theorem Block.eraseNvm_mgmt (b : Block) (a n : Nat) : (b.eraseNvm a n).mgmt = b.mgmt := rfl
@[simp] theorem Block.eraseNvm_link (b : Block) (a n : Nat) : (b.eraseNvm a n).link = b.link := rfl
@[simp] theorem Block.eraseNvm_sqs (b : Block) (a n : Nat) : (b.eraseNvm a n).sqs = b.sqs := rfl
@[simp] theorem Block.eraseNvm_cqs (b : Block) (a n : Nat) : (b.eraseNvm a n).cqs = b.cqs := rfl
@[simp] theorem Block.eraseNvm_hop (b : Block) (a n : Nat) : (b.eraseNvm a n).hop = b.hop := rfl
@[simp] theorem Block.eraseNvm_ms (b : Block) (a n : Nat) : (b.eraseNvm a n).ms = b.ms := rfl
@[simp] theorem Block.eraseNvm_fab (b : Block) (a n : Nat) : (b.eraseNvm a n).fab = b.fab := rfl
@[simp] theorem Block.eraseNvm_gs (b : Block) (a n : Nat) : (b.eraseNvm a n).gs = b.gs := rfl
@[simp] theorem Block.eraseNvm_gov (b : Block) (a n : Nat) : (b.eraseNvm a n).gov = b.gov := rfl
@[simp] theorem Block.eraseNvm_svc (b : Block) (a n : Nat) : (b.eraseNvm a n).svc = b.svc := rfl
@[simp] theorem Block.eraseNvm_tiles (b : Block) (a n : Nat) : (b.eraseNvm a n).tiles = b.tiles := rfl
@[simp] theorem Block.eraseNvm_evt (b : Block) (a n : Nat) : (b.eraseNvm a n).evt = b.evt := rfl
@[simp] theorem Block.eraseNvm_vio (b : Block) (a n : Nat) : (b.eraseNvm a n).vio = b.vio := rfl
@[simp] theorem Block.eraseNvm_out (b : Block) (a n : Nat) : (b.eraseNvm a n).out = b.out := rfl
@[simp] theorem Block.eraseNvm_free (b : Block) (a n : Nat) : (b.eraseNvm a n).free = b.free := rfl

-- setDie
@[simp] theorem Block.setDie_regs (b : Block) (d : Nat) (x : Die) : (b.setDie d x).regs = b.regs := rfl
@[simp] theorem Block.setDie_mem (b : Block) (d : Nat) (x : Die) : (b.setDie d x).mem = b.mem := rfl
@[simp] theorem Block.setDie_gmc (b : Block) (d : Nat) (x : Die) : (b.setDie d x).gmc = b.gmc := rfl
@[simp] theorem Block.setDie_pwr (b : Block) (d : Nat) (x : Die) : (b.setDie d x).pwr = b.pwr := rfl
@[simp] theorem Block.setDie_cfg (b : Block) (d : Nat) (x : Die) : (b.setDie d x).cfg = b.cfg := rfl
@[simp] theorem Block.setDie_mgmt (b : Block) (d : Nat) (x : Die) : (b.setDie d x).mgmt = b.mgmt := rfl
@[simp] theorem Block.setDie_link (b : Block) (d : Nat) (x : Die) : (b.setDie d x).link = b.link := rfl
@[simp] theorem Block.setDie_sqs (b : Block) (d : Nat) (x : Die) : (b.setDie d x).sqs = b.sqs := rfl
@[simp] theorem Block.setDie_cqs (b : Block) (d : Nat) (x : Die) : (b.setDie d x).cqs = b.cqs := rfl
@[simp] theorem Block.setDie_hop (b : Block) (d : Nat) (x : Die) : (b.setDie d x).hop = b.hop := rfl
@[simp] theorem Block.setDie_ms (b : Block) (d : Nat) (x : Die) : (b.setDie d x).ms = b.ms := rfl
@[simp] theorem Block.setDie_fab (b : Block) (d : Nat) (x : Die) : (b.setDie d x).fab = b.fab := rfl
@[simp] theorem Block.setDie_gs (b : Block) (d : Nat) (x : Die) : (b.setDie d x).gs = b.gs := rfl
@[simp] theorem Block.setDie_gov (b : Block) (d : Nat) (x : Die) : (b.setDie d x).gov = b.gov := rfl
@[simp] theorem Block.setDie_svc (b : Block) (d : Nat) (x : Die) : (b.setDie d x).svc = b.svc := rfl
@[simp] theorem Block.setDie_tiles (b : Block) (d : Nat) (x : Die) : (b.setDie d x).tiles = b.tiles := rfl
@[simp] theorem Block.setDie_evt (b : Block) (d : Nat) (x : Die) : (b.setDie d x).evt = b.evt := rfl
@[simp] theorem Block.setDie_vio (b : Block) (d : Nat) (x : Die) : (b.setDie d x).vio = b.vio := rfl
@[simp] theorem Block.setDie_out (b : Block) (d : Nat) (x : Die) : (b.setDie d x).out = b.out := rfl
@[simp] theorem Block.setDie_free (b : Block) (d : Nat) (x : Die) : (b.setDie d x).free = b.free := rfl

-- send
@[simp] theorem Block.send_regs (b : Block) (o : Out) : (b.send o).regs = b.regs := rfl
@[simp] theorem Block.send_mem (b : Block) (o : Out) : (b.send o).mem = b.mem := rfl
@[simp] theorem Block.send_gmc (b : Block) (o : Out) : (b.send o).gmc = b.gmc := rfl
@[simp] theorem Block.send_pwr (b : Block) (o : Out) : (b.send o).pwr = b.pwr := rfl
@[simp] theorem Block.send_dies (b : Block) (o : Out) : (b.send o).dies = b.dies := rfl
@[simp] theorem Block.send_cfg (b : Block) (o : Out) : (b.send o).cfg = b.cfg := rfl
@[simp] theorem Block.send_mgmt (b : Block) (o : Out) : (b.send o).mgmt = b.mgmt := rfl
@[simp] theorem Block.send_link (b : Block) (o : Out) : (b.send o).link = b.link := rfl
@[simp] theorem Block.send_sqs (b : Block) (o : Out) : (b.send o).sqs = b.sqs := rfl
@[simp] theorem Block.send_cqs (b : Block) (o : Out) : (b.send o).cqs = b.cqs := rfl
@[simp] theorem Block.send_hop (b : Block) (o : Out) : (b.send o).hop = b.hop := rfl
@[simp] theorem Block.send_ms (b : Block) (o : Out) : (b.send o).ms = b.ms := rfl
@[simp] theorem Block.send_fab (b : Block) (o : Out) : (b.send o).fab = b.fab := rfl
@[simp] theorem Block.send_gs (b : Block) (o : Out) : (b.send o).gs = b.gs := rfl
@[simp] theorem Block.send_gov (b : Block) (o : Out) : (b.send o).gov = b.gov := rfl
@[simp] theorem Block.send_svc (b : Block) (o : Out) : (b.send o).svc = b.svc := rfl
@[simp] theorem Block.send_tiles (b : Block) (o : Out) : (b.send o).tiles = b.tiles := rfl
@[simp] theorem Block.send_evt (b : Block) (o : Out) : (b.send o).evt = b.evt := rfl
@[simp] theorem Block.send_vio (b : Block) (o : Out) : (b.send o).vio = b.vio := rfl
@[simp] theorem Block.send_free (b : Block) (o : Out) : (b.send o).free = b.free := rfl

-- sendAll
@[simp] theorem Block.sendAll_regs (b : Block) (l : List Out) : (b.sendAll l).regs = b.regs := rfl
@[simp] theorem Block.sendAll_mem (b : Block) (l : List Out) : (b.sendAll l).mem = b.mem := rfl
@[simp] theorem Block.sendAll_gmc (b : Block) (l : List Out) : (b.sendAll l).gmc = b.gmc := rfl
@[simp] theorem Block.sendAll_pwr (b : Block) (l : List Out) : (b.sendAll l).pwr = b.pwr := rfl
@[simp] theorem Block.sendAll_dies (b : Block) (l : List Out) : (b.sendAll l).dies = b.dies := rfl
@[simp] theorem Block.sendAll_cfg (b : Block) (l : List Out) : (b.sendAll l).cfg = b.cfg := rfl
@[simp] theorem Block.sendAll_mgmt (b : Block) (l : List Out) : (b.sendAll l).mgmt = b.mgmt := rfl
@[simp] theorem Block.sendAll_link (b : Block) (l : List Out) : (b.sendAll l).link = b.link := rfl
@[simp] theorem Block.sendAll_sqs (b : Block) (l : List Out) : (b.sendAll l).sqs = b.sqs := rfl
@[simp] theorem Block.sendAll_cqs (b : Block) (l : List Out) : (b.sendAll l).cqs = b.cqs := rfl
@[simp] theorem Block.sendAll_hop (b : Block) (l : List Out) : (b.sendAll l).hop = b.hop := rfl
@[simp] theorem Block.sendAll_ms (b : Block) (l : List Out) : (b.sendAll l).ms = b.ms := rfl
@[simp] theorem Block.sendAll_fab (b : Block) (l : List Out) : (b.sendAll l).fab = b.fab := rfl
@[simp] theorem Block.sendAll_gs (b : Block) (l : List Out) : (b.sendAll l).gs = b.gs := rfl
@[simp] theorem Block.sendAll_gov (b : Block) (l : List Out) : (b.sendAll l).gov = b.gov := rfl
@[simp] theorem Block.sendAll_svc (b : Block) (l : List Out) : (b.sendAll l).svc = b.svc := rfl
@[simp] theorem Block.sendAll_tiles (b : Block) (l : List Out) : (b.sendAll l).tiles = b.tiles := rfl
@[simp] theorem Block.sendAll_evt (b : Block) (l : List Out) : (b.sendAll l).evt = b.evt := rfl
@[simp] theorem Block.sendAll_vio (b : Block) (l : List Out) : (b.sendAll l).vio = b.vio := rfl
@[simp] theorem Block.sendAll_free (b : Block) (l : List Out) : (b.sendAll l).free = b.free := rfl

-- took
@[simp] theorem Block.took_regs (b : Block) : (b.took).regs = b.regs := rfl
@[simp] theorem Block.took_mem (b : Block) : (b.took).mem = b.mem := rfl
@[simp] theorem Block.took_gmc (b : Block) : (b.took).gmc = b.gmc := rfl
@[simp] theorem Block.took_pwr (b : Block) : (b.took).pwr = b.pwr := rfl
@[simp] theorem Block.took_dies (b : Block) : (b.took).dies = b.dies := rfl
@[simp] theorem Block.took_cfg (b : Block) : (b.took).cfg = b.cfg := rfl
@[simp] theorem Block.took_mgmt (b : Block) : (b.took).mgmt = b.mgmt := rfl
@[simp] theorem Block.took_link (b : Block) : (b.took).link = b.link := rfl
@[simp] theorem Block.took_sqs (b : Block) : (b.took).sqs = b.sqs := rfl
@[simp] theorem Block.took_cqs (b : Block) : (b.took).cqs = b.cqs := rfl
@[simp] theorem Block.took_hop (b : Block) : (b.took).hop = b.hop := rfl
@[simp] theorem Block.took_ms (b : Block) : (b.took).ms = b.ms := rfl
@[simp] theorem Block.took_fab (b : Block) : (b.took).fab = b.fab := rfl
@[simp] theorem Block.took_gs (b : Block) : (b.took).gs = b.gs := rfl
@[simp] theorem Block.took_gov (b : Block) : (b.took).gov = b.gov := rfl
@[simp] theorem Block.took_svc (b : Block) : (b.took).svc = b.svc := rfl
@[simp] theorem Block.took_tiles (b : Block) : (b.took).tiles = b.tiles := rfl
@[simp] theorem Block.took_evt (b : Block) : (b.took).evt = b.evt := rfl
@[simp] theorem Block.took_vio (b : Block) : (b.took).vio = b.vio := rfl
@[simp] theorem Block.took_out (b : Block) : (b.took).out = b.out := rfl

-- Reading a register through an update of anything but the register file
@[simp] theorem Block.get_mk (b : Block) (x1 : Mem) (x2 : Nat) (x3 : Power) (x4 : List Die) (x5 : Loader) (x6 : Mgmt) (x7 : HostLink) (x8 : Tab SqAux) (x9 : Tab CqAux) (x10 : Hopper) (x11 : MemSys) (x12 : Fabric) (x13 : GmcSync) (x14 : Gov) (x15 : Svc) (x16 : Tab Tile) (x17 : Log) (x18 : Log) (x19 : List Out) (x20 : Nat) (f : Fld) (i : Nat) :
    (Block.mk b.regs x1 x2 x3 x4 x5 x6 x7 x8 x9 x10 x11 x12 x13 x14 x15 x16 x17 x18 x19 x20).get f i = b.get f i := rfl
@[simp] theorem Block.on_mk (b : Block) (x1 : Mem) (x2 : Nat) (x3 : Power) (x4 : List Die) (x5 : Loader) (x6 : Mgmt) (x7 : HostLink) (x8 : Tab SqAux) (x9 : Tab CqAux) (x10 : Hopper) (x11 : MemSys) (x12 : Fabric) (x13 : GmcSync) (x14 : Gov) (x15 : Svc) (x16 : Tab Tile) (x17 : Log) (x18 : Log) (x19 : List Out) (x20 : Nat) (f : Fld) (i : Nat) :
    (Block.mk b.regs x1 x2 x3 x4 x5 x6 x7 x8 x9 x10 x11 x12 x13 x14 x15 x16 x17 x18 x19 x20).on f i = b.on f i := rfl
@[simp] theorem Block.bit_mk (b : Block) (x1 : Mem) (x2 : Nat) (x3 : Power) (x4 : List Die) (x5 : Loader) (x6 : Mgmt) (x7 : HostLink) (x8 : Tab SqAux) (x9 : Tab CqAux) (x10 : Hopper) (x11 : MemSys) (x12 : Fabric) (x13 : GmcSync) (x14 : Gov) (x15 : Svc) (x16 : Tab Tile) (x17 : Log) (x18 : Log) (x19 : List Out) (x20 : Nat) (f : Fld) (i n : Nat) :
    (Block.mk b.regs x1 x2 x3 x4 x5 x6 x7 x8 x9 x10 x11 x12 x13 x14 x15 x16 x17 x18 x19 x20).bit f i n = b.bit f i n := rfl

-- Reading local memory through an update of anything but memory
@[simp] theorem Block.byte_mk (b : Block) (x0 : RegFile) (x2 : Nat) (x3 : Power) (x4 : List Die) (x5 : Loader) (x6 : Mgmt) (x7 : HostLink) (x8 : Tab SqAux) (x9 : Tab CqAux) (x10 : Hopper) (x11 : MemSys) (x12 : Fabric) (x13 : GmcSync) (x14 : Gov) (x15 : Svc) (x16 : Tab Tile) (x17 : Log) (x18 : Log) (x19 : List Out) (x20 : Nat) (a : Nat) :
    (Block.mk x0 b.mem x2 x3 x4 x5 x6 x7 x8 x9 x10 x11 x12 x13 x14 x15 x16 x17 x18 x19 x20).byte a = b.byte a := rfl
@[simp] theorem Block.readMem_mk (b : Block) (x0 : RegFile) (x2 : Nat) (x3 : Power) (x4 : List Die) (x5 : Loader) (x6 : Mgmt) (x7 : HostLink) (x8 : Tab SqAux) (x9 : Tab CqAux) (x10 : Hopper) (x11 : MemSys) (x12 : Fabric) (x13 : GmcSync) (x14 : Gov) (x15 : Svc) (x16 : Tab Tile) (x17 : Log) (x18 : Log) (x19 : List Out) (x20 : Nat) (a n : Nat) :
    (Block.mk x0 b.mem x2 x3 x4 x5 x6 x7 x8 x9 x10 x11 x12 x13 x14 x15 x16 x17 x18 x19 x20).readMem a n = b.readMem a n := rfl

-- The same through the named updates
@[simp] theorem Block.set_byte (b : Block) (f : Fld) (i v : Nat) (y : Nat) : (b.set f i v).byte y = b.byte y := rfl
@[simp] theorem Block.bump_byte (b : Block) (f : Fld) (i k : Nat) (y : Nat) : (b.bump f i k).byte y = b.byte y := rfl
@[simp] theorem Block.bumpSat_byte (b : Block) (f : Fld) (i k : Nat) (y : Nat) : (b.bumpSat f i k).byte y = b.byte y := rfl
@[simp] theorem Block.setB_byte (b : Block) (f : Fld) (i n : Nat) (y : Nat) : (b.setB f i n).byte y = b.byte y := rfl
@[simp] theorem Block.clrB_byte (b : Block) (f : Fld) (i n : Nat) (y : Nat) : (b.clrB f i n).byte y = b.byte y := rfl
@[simp] theorem Block.resetRegs_byte (b : Block) (keep : Fld → Nat → Bool) (y : Nat) : (b.resetRegs keep).byte y = b.byte y := rfl
@[simp] theorem Block.writeMem_get (b : Block) (a : Nat) (l : List Byte) (g : Fld) (j : Nat) : (b.writeMem a l).get g j = b.get g j := rfl
@[simp] theorem Block.writeMem_on (b : Block) (a : Nat) (l : List Byte) (g : Fld) (j : Nat) : (b.writeMem a l).on g j = b.on g j := rfl
@[simp] theorem Block.writeMem_bit (b : Block) (a : Nat) (l : List Byte) (g : Fld) (j k : Nat) : (b.writeMem a l).bit g j k = b.bit g j k := rfl
@[simp] theorem Block.zeroMem_get (b : Block) (a n : Nat) (g : Fld) (j : Nat) : (b.zeroMem a n).get g j = b.get g j := rfl
@[simp] theorem Block.zeroMem_on (b : Block) (a n : Nat) (g : Fld) (j : Nat) : (b.zeroMem a n).on g j = b.on g j := rfl
@[simp] theorem Block.zeroMem_bit (b : Block) (a n : Nat) (g : Fld) (j k : Nat) : (b.zeroMem a n).bit g j k = b.bit g j k := rfl
@[simp] theorem Block.eraseNvm_get (b : Block) (a n : Nat) (g : Fld) (j : Nat) : (b.eraseNvm a n).get g j = b.get g j := rfl
@[simp] theorem Block.eraseNvm_on (b : Block) (a n : Nat) (g : Fld) (j : Nat) : (b.eraseNvm a n).on g j = b.on g j := rfl
@[simp] theorem Block.eraseNvm_bit (b : Block) (a n : Nat) (g : Fld) (j k : Nat) : (b.eraseNvm a n).bit g j k = b.bit g j k := rfl
@[simp] theorem Block.eraseNvm_byte (b : Block) (a n : Nat) (y : Nat) : (b.eraseNvm a n).byte y = b.byte y := rfl
@[simp] theorem Block.setDie_get (b : Block) (d : Nat) (x : Die) (g : Fld) (j : Nat) : (b.setDie d x).get g j = b.get g j := rfl
@[simp] theorem Block.setDie_on (b : Block) (d : Nat) (x : Die) (g : Fld) (j : Nat) : (b.setDie d x).on g j = b.on g j := rfl
@[simp] theorem Block.setDie_bit (b : Block) (d : Nat) (x : Die) (g : Fld) (j k : Nat) : (b.setDie d x).bit g j k = b.bit g j k := rfl
@[simp] theorem Block.setDie_byte (b : Block) (d : Nat) (x : Die) (y : Nat) : (b.setDie d x).byte y = b.byte y := rfl
@[simp] theorem Block.send_get (b : Block) (o : Out) (g : Fld) (j : Nat) : (b.send o).get g j = b.get g j := rfl
@[simp] theorem Block.send_on (b : Block) (o : Out) (g : Fld) (j : Nat) : (b.send o).on g j = b.on g j := rfl
@[simp] theorem Block.send_bit (b : Block) (o : Out) (g : Fld) (j k : Nat) : (b.send o).bit g j k = b.bit g j k := rfl
@[simp] theorem Block.send_byte (b : Block) (o : Out) (y : Nat) : (b.send o).byte y = b.byte y := rfl
@[simp] theorem Block.sendAll_get (b : Block) (l : List Out) (g : Fld) (j : Nat) : (b.sendAll l).get g j = b.get g j := rfl
@[simp] theorem Block.sendAll_on (b : Block) (l : List Out) (g : Fld) (j : Nat) : (b.sendAll l).on g j = b.on g j := rfl
@[simp] theorem Block.sendAll_bit (b : Block) (l : List Out) (g : Fld) (j k : Nat) : (b.sendAll l).bit g j k = b.bit g j k := rfl
@[simp] theorem Block.sendAll_byte (b : Block) (l : List Out) (y : Nat) : (b.sendAll l).byte y = b.byte y := rfl
@[simp] theorem Block.took_get (b : Block) (g : Fld) (j : Nat) : (b.took).get g j = b.get g j := rfl
@[simp] theorem Block.took_on (b : Block) (g : Fld) (j : Nat) : (b.took).on g j = b.on g j := rfl
@[simp] theorem Block.took_bit (b : Block) (g : Fld) (j k : Nat) : (b.took).bit g j k = b.bit g j k := rfl
@[simp] theorem Block.took_byte (b : Block) (y : Nat) : (b.took).byte y = b.byte y := rfl

-- The state around the package
@[simp] theorem State.actAlways_eq (s : State) (f : Block → Block) : s.actAlways f = .next { s with blk := f s.blk } := rfl
@[simp] theorem State.act_eq (s : State) (f : Block → Block) :
    s.act f = .next { s with blk := if s.blk.inReset then s.blk else f s.blk } := rfl
/-- Outside reset a command acts on the package. -/
theorem State.act_running (s : State) (f : Block → Block) (h : s.blk.inReset = false) : s.act f = .next { s with blk := f s.blk } := by
  simp [h]
/-- A package held in reset takes no effect of such a command (R60). -/
theorem State.act_held (s : State) (f : Block → Block) (h : s.blk.inReset = true) : s.act f = .next s := by simp [h]

end Sys2Proof.Machine
end

