-- ==== Sys2Proof/Laws/Logs.lean ====
section
/-! SUPPORT. What the shared operations that send and log can do: a vector, an interrupt line, an event record and a violation record
change only what they say, and keep the canonical forms. -/

namespace Sys2Proof.Machine

-- usePost
@[simp] theorem Block.usePost_regs (b : Block) (n : Nat) : (b.usePost n).regs = b.regs := by
  unfold Block.usePost
  repeat (first | rfl | split)
@[simp] theorem Block.usePost_mem (b : Block) (n : Nat) : (b.usePost n).mem = b.mem := by
  unfold Block.usePost
  repeat (first | rfl | split)
@[simp] theorem Block.usePost_gmc (b : Block) (n : Nat) : (b.usePost n).gmc = b.gmc := by
  unfold Block.usePost
  repeat (first | rfl | split)
@[simp] theorem Block.usePost_pwr (b : Block) (n : Nat) : (b.usePost n).pwr = b.pwr := by
  unfold Block.usePost
  repeat (first | rfl | split)
@[simp] theorem Block.usePost_dies (b : Block) (n : Nat) : (b.usePost n).dies = b.dies := by
  unfold Block.usePost
  repeat (first | rfl | split)
@[simp] theorem Block.usePost_cfg (b : Block) (n : Nat) : (b.usePost n).cfg = b.cfg := by
  unfold Block.usePost
  repeat (first | rfl | split)
@[simp] theorem Block.usePost_mgmt (b : Block) (n : Nat) : (b.usePost n).mgmt = b.mgmt := by
  unfold Block.usePost
  repeat (first | rfl | split)
@[simp] theorem Block.usePost_sqs (b : Block) (n : Nat) : (b.usePost n).sqs = b.sqs := by
  unfold Block.usePost
  repeat (first | rfl | split)
@[simp] theorem Block.usePost_cqs (b : Block) (n : Nat) : (b.usePost n).cqs = b.cqs := by
  unfold Block.usePost
  repeat (first | rfl | split)
@[simp] theorem Block.usePost_hop (b : Block) (n : Nat) : (b.usePost n).hop = b.hop := by
  unfold Block.usePost
  repeat (first | rfl | split)
@[simp] theorem Block.usePost_ms (b : Block) (n : Nat) : (b.usePost n).ms = b.ms := by
  unfold Block.usePost
  repeat (first | rfl | split)
@[simp] theorem Block.usePost_fab (b : Block) (n : Nat) : (b.usePost n).fab = b.fab := by
  unfold Block.usePost
  repeat (first | rfl | split)
@[simp] theorem Block.usePost_gs (b : Block) (n : Nat) : (b.usePost n).gs = b.gs := by
  unfold Block.usePost
  repeat (first | rfl | split)
@[simp] theorem Block.usePost_gov (b : Block) (n : Nat) : (b.usePost n).gov = b.gov := by
  unfold Block.usePost
  repeat (first | rfl | split)
@[simp] theorem Block.usePost_svc (b : Block) (n : Nat) : (b.usePost n).svc = b.svc := by
  unfold Block.usePost
  repeat (first | rfl | split)
@[simp] theorem Block.usePost_tiles (b : Block) (n : Nat) : (b.usePost n).tiles = b.tiles := by
  unfold Block.usePost
  repeat (first | rfl | split)
@[simp] theorem Block.usePost_evt (b : Block) (n : Nat) : (b.usePost n).evt = b.evt := by
  unfold Block.usePost
  repeat (first | rfl | split)
@[simp] theorem Block.usePost_vio (b : Block) (n : Nat) : (b.usePost n).vio = b.vio := by
  unfold Block.usePost
  repeat (first | rfl | split)
@[simp] theorem Block.usePost_out (b : Block) (n : Nat) : (b.usePost n).out = b.out := by
  unfold Block.usePost
  repeat (first | rfl | split)
@[simp] theorem Block.usePost_free (b : Block) (n : Nat) : (b.usePost n).free = b.free := by
  unfold Block.usePost
  repeat (first | rfl | split)
@[simp] theorem Block.usePost_get (b : Block) (n : Nat) (f : Fld) (i : Nat) : (b.usePost n).get f i = b.get f i := by
  unfold Block.get
  rw [Block.usePost_regs]

-- stall
@[simp] theorem Block.stall_regs (b : Block) (x : Stalled) : (b.stall x).regs = b.regs := by
  rfl
@[simp] theorem Block.stall_mem (b : Block) (x : Stalled) : (b.stall x).mem = b.mem := by
  rfl
@[simp] theorem Block.stall_gmc (b : Block) (x : Stalled) : (b.stall x).gmc = b.gmc := by
  rfl
@[simp] theorem Block.stall_pwr (b : Block) (x : Stalled) : (b.stall x).pwr = b.pwr := by
  rfl
@[simp] theorem Block.stall_dies (b : Block) (x : Stalled) : (b.stall x).dies = b.dies := by
  rfl
@[simp] theorem Block.stall_cfg (b : Block) (x : Stalled) : (b.stall x).cfg = b.cfg := by
  rfl
@[simp] theorem Block.stall_mgmt (b : Block) (x : Stalled) : (b.stall x).mgmt = b.mgmt := by
  rfl
@[simp] theorem Block.stall_sqs (b : Block) (x : Stalled) : (b.stall x).sqs = b.sqs := by
  rfl
@[simp] theorem Block.stall_cqs (b : Block) (x : Stalled) : (b.stall x).cqs = b.cqs := by
  rfl
@[simp] theorem Block.stall_hop (b : Block) (x : Stalled) : (b.stall x).hop = b.hop := by
  rfl
@[simp] theorem Block.stall_ms (b : Block) (x : Stalled) : (b.stall x).ms = b.ms := by
  rfl
@[simp] theorem Block.stall_fab (b : Block) (x : Stalled) : (b.stall x).fab = b.fab := by
  rfl
@[simp] theorem Block.stall_gs (b : Block) (x : Stalled) : (b.stall x).gs = b.gs := by
  rfl
@[simp] theorem Block.stall_gov (b : Block) (x : Stalled) : (b.stall x).gov = b.gov := by
  rfl
@[simp] theorem Block.stall_svc (b : Block) (x : Stalled) : (b.stall x).svc = b.svc := by
  rfl
@[simp] theorem Block.stall_tiles (b : Block) (x : Stalled) : (b.stall x).tiles = b.tiles := by
  rfl
@[simp] theorem Block.stall_evt (b : Block) (x : Stalled) : (b.stall x).evt = b.evt := by
  rfl
@[simp] theorem Block.stall_vio (b : Block) (x : Stalled) : (b.stall x).vio = b.vio := by
  rfl
@[simp] theorem Block.stall_out (b : Block) (x : Stalled) : (b.stall x).out = b.out := by
  rfl
@[simp] theorem Block.stall_free (b : Block) (x : Stalled) : (b.stall x).free = b.free := by
  rfl
@[simp] theorem Block.stall_get (b : Block) (x : Stalled) (f : Fld) (i : Nat) : (b.stall x).get f i = b.get f i := by
  unfold Block.get
  rw [Block.stall_regs]

-- msixOut
@[simp] theorem Block.msixOut_regs (b : Block) (fn vec : Nat) : (b.msixOut fn vec).regs = b.regs := by
  simp [Block.msixOut]
@[simp] theorem Block.msixOut_mem (b : Block) (fn vec : Nat) : (b.msixOut fn vec).mem = b.mem := by
  simp [Block.msixOut]
@[simp] theorem Block.msixOut_gmc (b : Block) (fn vec : Nat) : (b.msixOut fn vec).gmc = b.gmc := by
  simp [Block.msixOut]
@[simp] theorem Block.msixOut_pwr (b : Block) (fn vec : Nat) : (b.msixOut fn vec).pwr = b.pwr := by
  simp [Block.msixOut]
@[simp] theorem Block.msixOut_dies (b : Block) (fn vec : Nat) : (b.msixOut fn vec).dies = b.dies := by
  simp [Block.msixOut]
@[simp] theorem Block.msixOut_cfg (b : Block) (fn vec : Nat) : (b.msixOut fn vec).cfg = b.cfg := by
  simp [Block.msixOut]
@[simp] theorem Block.msixOut_mgmt (b : Block) (fn vec : Nat) : (b.msixOut fn vec).mgmt = b.mgmt := by
  simp [Block.msixOut]
@[simp] theorem Block.msixOut_sqs (b : Block) (fn vec : Nat) : (b.msixOut fn vec).sqs = b.sqs := by
  simp [Block.msixOut]
@[simp] theorem Block.msixOut_cqs (b : Block) (fn vec : Nat) : (b.msixOut fn vec).cqs = b.cqs := by
  simp [Block.msixOut]
@[simp] theorem Block.msixOut_hop (b : Block) (fn vec : Nat) : (b.msixOut fn vec).hop = b.hop := by
  simp [Block.msixOut]
@[simp] theorem Block.msixOut_ms (b : Block) (fn vec : Nat) : (b.msixOut fn vec).ms = b.ms := by
  simp [Block.msixOut]
@[simp] theorem Block.msixOut_fab (b : Block) (fn vec : Nat) : (b.msixOut fn vec).fab = b.fab := by
  simp [Block.msixOut]
@[simp] theorem Block.msixOut_gs (b : Block) (fn vec : Nat) : (b.msixOut fn vec).gs = b.gs := by
  simp [Block.msixOut]
@[simp] theorem Block.msixOut_gov (b : Block) (fn vec : Nat) : (b.msixOut fn vec).gov = b.gov := by
  simp [Block.msixOut]
@[simp] theorem Block.msixOut_svc (b : Block) (fn vec : Nat) : (b.msixOut fn vec).svc = b.svc := by
  simp [Block.msixOut]
@[simp] theorem Block.msixOut_tiles (b : Block) (fn vec : Nat) : (b.msixOut fn vec).tiles = b.tiles := by
  simp [Block.msixOut]
@[simp] theorem Block.msixOut_evt (b : Block) (fn vec : Nat) : (b.msixOut fn vec).evt = b.evt := by
  simp [Block.msixOut]
@[simp] theorem Block.msixOut_vio (b : Block) (fn vec : Nat) : (b.msixOut fn vec).vio = b.vio := by
  simp [Block.msixOut]
@[simp] theorem Block.msixOut_free (b : Block) (fn vec : Nat) : (b.msixOut fn vec).free = b.free := by
  simp [Block.msixOut]
@[simp] theorem Block.msixOut_get (b : Block) (fn vec : Nat) (f : Fld) (i : Nat) : (b.msixOut fn vec).get f i = b.get f i := by
  unfold Block.get
  rw [Block.msixOut_regs]

-- msixGo
@[simp] theorem Block.msixGo_regs (b : Block) (fn vec : Nat) : (b.msixGo fn vec).regs = b.regs := by
  unfold Block.msixGo
  repeat (first | rfl | simp | split)
@[simp] theorem Block.msixGo_mem (b : Block) (fn vec : Nat) : (b.msixGo fn vec).mem = b.mem := by
  unfold Block.msixGo
  repeat (first | rfl | simp | split)
@[simp] theorem Block.msixGo_gmc (b : Block) (fn vec : Nat) : (b.msixGo fn vec).gmc = b.gmc := by
  unfold Block.msixGo
  repeat (first | rfl | simp | split)
@[simp] theorem Block.msixGo_pwr (b : Block) (fn vec : Nat) : (b.msixGo fn vec).pwr = b.pwr := by
  unfold Block.msixGo
  repeat (first | rfl | simp | split)
@[simp] theorem Block.msixGo_dies (b : Block) (fn vec : Nat) : (b.msixGo fn vec).dies = b.dies := by
  unfold Block.msixGo
  repeat (first | rfl | simp | split)
@[simp] theorem Block.msixGo_cfg (b : Block) (fn vec : Nat) : (b.msixGo fn vec).cfg = b.cfg := by
  unfold Block.msixGo
  repeat (first | rfl | simp | split)
@[simp] theorem Block.msixGo_mgmt (b : Block) (fn vec : Nat) : (b.msixGo fn vec).mgmt = b.mgmt := by
  unfold Block.msixGo
  repeat (first | rfl | simp | split)
@[simp] theorem Block.msixGo_sqs (b : Block) (fn vec : Nat) : (b.msixGo fn vec).sqs = b.sqs := by
  unfold Block.msixGo
  repeat (first | rfl | simp | split)
@[simp] theorem Block.msixGo_cqs (b : Block) (fn vec : Nat) : (b.msixGo fn vec).cqs = b.cqs := by
  unfold Block.msixGo
  repeat (first | rfl | simp | split)
@[simp] theorem Block.msixGo_hop (b : Block) (fn vec : Nat) : (b.msixGo fn vec).hop = b.hop := by
  unfold Block.msixGo
  repeat (first | rfl | simp | split)
@[simp] theorem Block.msixGo_ms (b : Block) (fn vec : Nat) : (b.msixGo fn vec).ms = b.ms := by
  unfold Block.msixGo
  repeat (first | rfl | simp | split)
@[simp] theorem Block.msixGo_fab (b : Block) (fn vec : Nat) : (b.msixGo fn vec).fab = b.fab := by
  unfold Block.msixGo
  repeat (first | rfl | simp | split)
@[simp] theorem Block.msixGo_gs (b : Block) (fn vec : Nat) : (b.msixGo fn vec).gs = b.gs := by
  unfold Block.msixGo
  repeat (first | rfl | simp | split)
@[simp] theorem Block.msixGo_gov (b : Block) (fn vec : Nat) : (b.msixGo fn vec).gov = b.gov := by
  unfold Block.msixGo
  repeat (first | rfl | simp | split)
@[simp] theorem Block.msixGo_svc (b : Block) (fn vec : Nat) : (b.msixGo fn vec).svc = b.svc := by
  unfold Block.msixGo
  repeat (first | rfl | simp | split)
@[simp] theorem Block.msixGo_tiles (b : Block) (fn vec : Nat) : (b.msixGo fn vec).tiles = b.tiles := by
  unfold Block.msixGo
  repeat (first | rfl | simp | split)
@[simp] theorem Block.msixGo_evt (b : Block) (fn vec : Nat) : (b.msixGo fn vec).evt = b.evt := by
  unfold Block.msixGo
  repeat (first | rfl | simp | split)
@[simp] theorem Block.msixGo_vio (b : Block) (fn vec : Nat) : (b.msixGo fn vec).vio = b.vio := by
  unfold Block.msixGo
  repeat (first | rfl | simp | split)
@[simp] theorem Block.msixGo_free (b : Block) (fn vec : Nat) : (b.msixGo fn vec).free = b.free := by
  unfold Block.msixGo
  repeat (first | rfl | simp | split)
@[simp] theorem Block.msixGo_get (b : Block) (fn vec : Nat) (f : Fld) (i : Nat) : (b.msixGo fn vec).get f i = b.get f i := by
  unfold Block.get
  rw [Block.msixGo_regs]

-- sendMsix
@[simp] theorem Block.sendMsix_regs (b : Block) (fn vec : Nat) : (b.sendMsix fn vec).regs = b.regs := by
  unfold Block.sendMsix
  repeat (first | rfl | simp | split)
@[simp] theorem Block.sendMsix_mem (b : Block) (fn vec : Nat) : (b.sendMsix fn vec).mem = b.mem := by
  unfold Block.sendMsix
  repeat (first | rfl | simp | split)
@[simp] theorem Block.sendMsix_gmc (b : Block) (fn vec : Nat) : (b.sendMsix fn vec).gmc = b.gmc := by
  unfold Block.sendMsix
  repeat (first | rfl | simp | split)
@[simp] theorem Block.sendMsix_pwr (b : Block) (fn vec : Nat) : (b.sendMsix fn vec).pwr = b.pwr := by
  unfold Block.sendMsix
  repeat (first | rfl | simp | split)
@[simp] theorem Block.sendMsix_dies (b : Block) (fn vec : Nat) : (b.sendMsix fn vec).dies = b.dies := by
  unfold Block.sendMsix
  repeat (first | rfl | simp | split)
@[simp] theorem Block.sendMsix_cfg (b : Block) (fn vec : Nat) : (b.sendMsix fn vec).cfg = b.cfg := by
  unfold Block.sendMsix
  repeat (first | rfl | simp | split)
@[simp] theorem Block.sendMsix_mgmt (b : Block) (fn vec : Nat) : (b.sendMsix fn vec).mgmt = b.mgmt := by
  unfold Block.sendMsix
  repeat (first | rfl | simp | split)
@[simp] theorem Block.sendMsix_sqs (b : Block) (fn vec : Nat) : (b.sendMsix fn vec).sqs = b.sqs := by
  unfold Block.sendMsix
  repeat (first | rfl | simp | split)
@[simp] theorem Block.sendMsix_cqs (b : Block) (fn vec : Nat) : (b.sendMsix fn vec).cqs = b.cqs := by
  unfold Block.sendMsix
  repeat (first | rfl | simp | split)
@[simp] theorem Block.sendMsix_hop (b : Block) (fn vec : Nat) : (b.sendMsix fn vec).hop = b.hop := by
  unfold Block.sendMsix
  repeat (first | rfl | simp | split)
@[simp] theorem Block.sendMsix_ms (b : Block) (fn vec : Nat) : (b.sendMsix fn vec).ms = b.ms := by
  unfold Block.sendMsix
  repeat (first | rfl | simp | split)
@[simp] theorem Block.sendMsix_fab (b : Block) (fn vec : Nat) : (b.sendMsix fn vec).fab = b.fab := by
  unfold Block.sendMsix
  repeat (first | rfl | simp | split)
@[simp] theorem Block.sendMsix_gs (b : Block) (fn vec : Nat) : (b.sendMsix fn vec).gs = b.gs := by
  unfold Block.sendMsix
  repeat (first | rfl | simp | split)
@[simp] theorem Block.sendMsix_gov (b : Block) (fn vec : Nat) : (b.sendMsix fn vec).gov = b.gov := by
  unfold Block.sendMsix
  repeat (first | rfl | simp | split)
@[simp] theorem Block.sendMsix_svc (b : Block) (fn vec : Nat) : (b.sendMsix fn vec).svc = b.svc := by
  unfold Block.sendMsix
  repeat (first | rfl | simp | split)
@[simp] theorem Block.sendMsix_tiles (b : Block) (fn vec : Nat) : (b.sendMsix fn vec).tiles = b.tiles := by
  unfold Block.sendMsix
  repeat (first | rfl | simp | split)
@[simp] theorem Block.sendMsix_evt (b : Block) (fn vec : Nat) : (b.sendMsix fn vec).evt = b.evt := by
  unfold Block.sendMsix
  repeat (first | rfl | simp | split)
@[simp] theorem Block.sendMsix_vio (b : Block) (fn vec : Nat) : (b.sendMsix fn vec).vio = b.vio := by
  unfold Block.sendMsix
  repeat (first | rfl | simp | split)
@[simp] theorem Block.sendMsix_free (b : Block) (fn vec : Nat) : (b.sendMsix fn vec).free = b.free := by
  unfold Block.sendMsix
  repeat (first | rfl | simp | split)
@[simp] theorem Block.sendMsix_get (b : Block) (fn vec : Nat) (f : Fld) (i : Nat) : (b.sendMsix fn vec).get f i = b.get f i := by
  unfold Block.get
  rw [Block.sendMsix_regs]

-- raiseLine
@[simp] theorem Block.raiseLine_mem (b : Block) (c n : Nat) : (b.raiseLine c n).mem = b.mem := by
  simp only [Block.raiseLine]
  split <;> rfl
@[simp] theorem Block.raiseLine_gmc (b : Block) (c n : Nat) : (b.raiseLine c n).gmc = b.gmc := by
  simp only [Block.raiseLine]
  split <;> rfl
@[simp] theorem Block.raiseLine_pwr (b : Block) (c n : Nat) : (b.raiseLine c n).pwr = b.pwr := by
  simp only [Block.raiseLine]
  split <;> rfl
@[simp] theorem Block.raiseLine_dies (b : Block) (c n : Nat) : (b.raiseLine c n).dies = b.dies := by
  simp only [Block.raiseLine]
  split <;> rfl
@[simp] theorem Block.raiseLine_cfg (b : Block) (c n : Nat) : (b.raiseLine c n).cfg = b.cfg := by
  simp only [Block.raiseLine]
  split <;> rfl
@[simp] theorem Block.raiseLine_mgmt (b : Block) (c n : Nat) : (b.raiseLine c n).mgmt = b.mgmt := by
  simp only [Block.raiseLine]
  split <;> rfl
@[simp] theorem Block.raiseLine_link (b : Block) (c n : Nat) : (b.raiseLine c n).link = b.link := by
  simp only [Block.raiseLine]
  split <;> rfl
@[simp] theorem Block.raiseLine_sqs (b : Block) (c n : Nat) : (b.raiseLine c n).sqs = b.sqs := by
  simp only [Block.raiseLine]
  split <;> rfl
@[simp] theorem Block.raiseLine_cqs (b : Block) (c n : Nat) : (b.raiseLine c n).cqs = b.cqs := by
  simp only [Block.raiseLine]
  split <;> rfl
@[simp] theorem Block.raiseLine_hop (b : Block) (c n : Nat) : (b.raiseLine c n).hop = b.hop := by
  simp only [Block.raiseLine]
  split <;> rfl
@[simp] theorem Block.raiseLine_ms (b : Block) (c n : Nat) : (b.raiseLine c n).ms = b.ms := by
  simp only [Block.raiseLine]
  split <;> rfl
@[simp] theorem Block.raiseLine_fab (b : Block) (c n : Nat) : (b.raiseLine c n).fab = b.fab := by
  simp only [Block.raiseLine]
  split <;> rfl
@[simp] theorem Block.raiseLine_gs (b : Block) (c n : Nat) : (b.raiseLine c n).gs = b.gs := by
  simp only [Block.raiseLine]
  split <;> rfl
@[simp] theorem Block.raiseLine_gov (b : Block) (c n : Nat) : (b.raiseLine c n).gov = b.gov := by
  simp only [Block.raiseLine]
  split <;> rfl
@[simp] theorem Block.raiseLine_svc (b : Block) (c n : Nat) : (b.raiseLine c n).svc = b.svc := by
  simp only [Block.raiseLine]
  split <;> rfl
@[simp] theorem Block.raiseLine_tiles (b : Block) (c n : Nat) : (b.raiseLine c n).tiles = b.tiles := by
  simp only [Block.raiseLine]
  split <;> rfl
@[simp] theorem Block.raiseLine_evt (b : Block) (c n : Nat) : (b.raiseLine c n).evt = b.evt := by
  simp only [Block.raiseLine]
  split <;> rfl
@[simp] theorem Block.raiseLine_vio (b : Block) (c n : Nat) : (b.raiseLine c n).vio = b.vio := by
  simp only [Block.raiseLine]
  split <;> rfl
@[simp] theorem Block.raiseLine_free (b : Block) (c n : Nat) : (b.raiseLine c n).free = b.free := by
  simp only [Block.raiseLine]
  split <;> rfl

-- raiseAll
@[simp] theorem Block.raiseAll_mem (b : Block) (n : Nat) : (b.raiseAll n).mem = b.mem := by
  simp [Block.raiseAll]
@[simp] theorem Block.raiseAll_gmc (b : Block) (n : Nat) : (b.raiseAll n).gmc = b.gmc := by
  simp [Block.raiseAll]
@[simp] theorem Block.raiseAll_pwr (b : Block) (n : Nat) : (b.raiseAll n).pwr = b.pwr := by
  simp [Block.raiseAll]
@[simp] theorem Block.raiseAll_dies (b : Block) (n : Nat) : (b.raiseAll n).dies = b.dies := by
  simp [Block.raiseAll]
@[simp] theorem Block.raiseAll_cfg (b : Block) (n : Nat) : (b.raiseAll n).cfg = b.cfg := by
  simp [Block.raiseAll]
@[simp] theorem Block.raiseAll_mgmt (b : Block) (n : Nat) : (b.raiseAll n).mgmt = b.mgmt := by
  simp [Block.raiseAll]
@[simp] theorem Block.raiseAll_link (b : Block) (n : Nat) : (b.raiseAll n).link = b.link := by
  simp [Block.raiseAll]
@[simp] theorem Block.raiseAll_sqs (b : Block) (n : Nat) : (b.raiseAll n).sqs = b.sqs := by
  simp [Block.raiseAll]
@[simp] theorem Block.raiseAll_cqs (b : Block) (n : Nat) : (b.raiseAll n).cqs = b.cqs := by
  simp [Block.raiseAll]
@[simp] theorem Block.raiseAll_hop (b : Block) (n : Nat) : (b.raiseAll n).hop = b.hop := by
  simp [Block.raiseAll]
@[simp] theorem Block.raiseAll_ms (b : Block) (n : Nat) : (b.raiseAll n).ms = b.ms := by
  simp [Block.raiseAll]
@[simp] theorem Block.raiseAll_fab (b : Block) (n : Nat) : (b.raiseAll n).fab = b.fab := by
  simp [Block.raiseAll]
@[simp] theorem Block.raiseAll_gs (b : Block) (n : Nat) : (b.raiseAll n).gs = b.gs := by
  simp [Block.raiseAll]
@[simp] theorem Block.raiseAll_gov (b : Block) (n : Nat) : (b.raiseAll n).gov = b.gov := by
  simp [Block.raiseAll]
@[simp] theorem Block.raiseAll_svc (b : Block) (n : Nat) : (b.raiseAll n).svc = b.svc := by
  simp [Block.raiseAll]
@[simp] theorem Block.raiseAll_tiles (b : Block) (n : Nat) : (b.raiseAll n).tiles = b.tiles := by
  simp [Block.raiseAll]
@[simp] theorem Block.raiseAll_evt (b : Block) (n : Nat) : (b.raiseAll n).evt = b.evt := by
  simp [Block.raiseAll]
@[simp] theorem Block.raiseAll_vio (b : Block) (n : Nat) : (b.raiseAll n).vio = b.vio := by
  simp [Block.raiseAll]
@[simp] theorem Block.raiseAll_free (b : Block) (n : Nat) : (b.raiseAll n).free = b.free := by
  simp [Block.raiseAll]

-- evtStore
@[simp] theorem Block.evtStore_mem (b : Block) (r : List Byte) : (b.evtStore r).mem = b.mem := by
  simp only [Block.evtStore]
  split <;> rfl
@[simp] theorem Block.evtStore_gmc (b : Block) (r : List Byte) : (b.evtStore r).gmc = b.gmc := by
  simp only [Block.evtStore]
  split <;> rfl
@[simp] theorem Block.evtStore_pwr (b : Block) (r : List Byte) : (b.evtStore r).pwr = b.pwr := by
  simp only [Block.evtStore]
  split <;> rfl
@[simp] theorem Block.evtStore_dies (b : Block) (r : List Byte) : (b.evtStore r).dies = b.dies := by
  simp only [Block.evtStore]
  split <;> rfl
@[simp] theorem Block.evtStore_cfg (b : Block) (r : List Byte) : (b.evtStore r).cfg = b.cfg := by
  simp only [Block.evtStore]
  split <;> rfl
@[simp] theorem Block.evtStore_mgmt (b : Block) (r : List Byte) : (b.evtStore r).mgmt = b.mgmt := by
  simp only [Block.evtStore]
  split <;> rfl
@[simp] theorem Block.evtStore_link (b : Block) (r : List Byte) : (b.evtStore r).link = b.link := by
  simp only [Block.evtStore]
  split <;> rfl
@[simp] theorem Block.evtStore_sqs (b : Block) (r : List Byte) : (b.evtStore r).sqs = b.sqs := by
  simp only [Block.evtStore]
  split <;> rfl
@[simp] theorem Block.evtStore_cqs (b : Block) (r : List Byte) : (b.evtStore r).cqs = b.cqs := by
  simp only [Block.evtStore]
  split <;> rfl
@[simp] theorem Block.evtStore_hop (b : Block) (r : List Byte) : (b.evtStore r).hop = b.hop := by
  simp only [Block.evtStore]
  split <;> rfl
@[simp] theorem Block.evtStore_ms (b : Block) (r : List Byte) : (b.evtStore r).ms = b.ms := by
  simp only [Block.evtStore]
  split <;> rfl
@[simp] theorem Block.evtStore_fab (b : Block) (r : List Byte) : (b.evtStore r).fab = b.fab := by
  simp only [Block.evtStore]
  split <;> rfl
@[simp] theorem Block.evtStore_gs (b : Block) (r : List Byte) : (b.evtStore r).gs = b.gs := by
  simp only [Block.evtStore]
  split <;> rfl
@[simp] theorem Block.evtStore_gov (b : Block) (r : List Byte) : (b.evtStore r).gov = b.gov := by
  simp only [Block.evtStore]
  split <;> rfl
@[simp] theorem Block.evtStore_svc (b : Block) (r : List Byte) : (b.evtStore r).svc = b.svc := by
  simp only [Block.evtStore]
  split <;> rfl
@[simp] theorem Block.evtStore_tiles (b : Block) (r : List Byte) : (b.evtStore r).tiles = b.tiles := by
  simp only [Block.evtStore]
  split <;> rfl
@[simp] theorem Block.evtStore_vio (b : Block) (r : List Byte) : (b.evtStore r).vio = b.vio := by
  simp only [Block.evtStore]
  split <;> rfl
@[simp] theorem Block.evtStore_out (b : Block) (r : List Byte) : (b.evtStore r).out = b.out := by
  simp only [Block.evtStore]
  split <;> rfl
@[simp] theorem Block.evtStore_free (b : Block) (r : List Byte) : (b.evtStore r).free = b.free := by
  simp only [Block.evtStore]
  split <;> rfl

-- evtClass
@[simp] theorem Block.evtClass_mem (b : Block) (c : Nat) : (b.evtClass c).mem = b.mem := by
  unfold Block.evtClass
  repeat (first | rfl | split)
@[simp] theorem Block.evtClass_gmc (b : Block) (c : Nat) : (b.evtClass c).gmc = b.gmc := by
  unfold Block.evtClass
  repeat (first | rfl | split)
@[simp] theorem Block.evtClass_pwr (b : Block) (c : Nat) : (b.evtClass c).pwr = b.pwr := by
  unfold Block.evtClass
  repeat (first | rfl | split)
@[simp] theorem Block.evtClass_dies (b : Block) (c : Nat) : (b.evtClass c).dies = b.dies := by
  unfold Block.evtClass
  repeat (first | rfl | split)
@[simp] theorem Block.evtClass_cfg (b : Block) (c : Nat) : (b.evtClass c).cfg = b.cfg := by
  unfold Block.evtClass
  repeat (first | rfl | split)
@[simp] theorem Block.evtClass_mgmt (b : Block) (c : Nat) : (b.evtClass c).mgmt = b.mgmt := by
  unfold Block.evtClass
  repeat (first | rfl | split)
@[simp] theorem Block.evtClass_link (b : Block) (c : Nat) : (b.evtClass c).link = b.link := by
  unfold Block.evtClass
  repeat (first | rfl | split)
@[simp] theorem Block.evtClass_sqs (b : Block) (c : Nat) : (b.evtClass c).sqs = b.sqs := by
  unfold Block.evtClass
  repeat (first | rfl | split)
@[simp] theorem Block.evtClass_cqs (b : Block) (c : Nat) : (b.evtClass c).cqs = b.cqs := by
  unfold Block.evtClass
  repeat (first | rfl | split)
@[simp] theorem Block.evtClass_hop (b : Block) (c : Nat) : (b.evtClass c).hop = b.hop := by
  unfold Block.evtClass
  repeat (first | rfl | split)
@[simp] theorem Block.evtClass_ms (b : Block) (c : Nat) : (b.evtClass c).ms = b.ms := by
  unfold Block.evtClass
  repeat (first | rfl | split)
@[simp] theorem Block.evtClass_fab (b : Block) (c : Nat) : (b.evtClass c).fab = b.fab := by
  unfold Block.evtClass
  repeat (first | rfl | split)
@[simp] theorem Block.evtClass_gs (b : Block) (c : Nat) : (b.evtClass c).gs = b.gs := by
  unfold Block.evtClass
  repeat (first | rfl | split)
@[simp] theorem Block.evtClass_gov (b : Block) (c : Nat) : (b.evtClass c).gov = b.gov := by
  unfold Block.evtClass
  repeat (first | rfl | split)
@[simp] theorem Block.evtClass_svc (b : Block) (c : Nat) : (b.evtClass c).svc = b.svc := by
  unfold Block.evtClass
  repeat (first | rfl | split)
@[simp] theorem Block.evtClass_tiles (b : Block) (c : Nat) : (b.evtClass c).tiles = b.tiles := by
  unfold Block.evtClass
  repeat (first | rfl | split)
@[simp] theorem Block.evtClass_evt (b : Block) (c : Nat) : (b.evtClass c).evt = b.evt := by
  unfold Block.evtClass
  repeat (first | rfl | split)
@[simp] theorem Block.evtClass_vio (b : Block) (c : Nat) : (b.evtClass c).vio = b.vio := by
  unfold Block.evtClass
  repeat (first | rfl | split)
@[simp] theorem Block.evtClass_out (b : Block) (c : Nat) : (b.evtClass c).out = b.out := by
  unfold Block.evtClass
  repeat (first | rfl | split)
@[simp] theorem Block.evtClass_free (b : Block) (c : Nat) : (b.evtClass c).free = b.free := by
  unfold Block.evtClass
  repeat (first | rfl | split)

-- evtLast
@[simp] theorem Block.evtLast_mem (b : Block) (c : Nat) (r : List Byte) : (b.evtLast c r).mem = b.mem := by
  unfold Block.evtLast
  split <;> rfl
@[simp] theorem Block.evtLast_gmc (b : Block) (c : Nat) (r : List Byte) : (b.evtLast c r).gmc = b.gmc := by
  unfold Block.evtLast
  split <;> rfl
@[simp] theorem Block.evtLast_pwr (b : Block) (c : Nat) (r : List Byte) : (b.evtLast c r).pwr = b.pwr := by
  unfold Block.evtLast
  split <;> rfl
@[simp] theorem Block.evtLast_dies (b : Block) (c : Nat) (r : List Byte) : (b.evtLast c r).dies = b.dies := by
  unfold Block.evtLast
  split <;> rfl
@[simp] theorem Block.evtLast_cfg (b : Block) (c : Nat) (r : List Byte) : (b.evtLast c r).cfg = b.cfg := by
  unfold Block.evtLast
  split <;> rfl
@[simp] theorem Block.evtLast_mgmt (b : Block) (c : Nat) (r : List Byte) : (b.evtLast c r).mgmt = b.mgmt := by
  unfold Block.evtLast
  split <;> rfl
@[simp] theorem Block.evtLast_link (b : Block) (c : Nat) (r : List Byte) : (b.evtLast c r).link = b.link := by
  unfold Block.evtLast
  split <;> rfl
@[simp] theorem Block.evtLast_sqs (b : Block) (c : Nat) (r : List Byte) : (b.evtLast c r).sqs = b.sqs := by
  unfold Block.evtLast
  split <;> rfl
@[simp] theorem Block.evtLast_cqs (b : Block) (c : Nat) (r : List Byte) : (b.evtLast c r).cqs = b.cqs := by
  unfold Block.evtLast
  split <;> rfl
@[simp] theorem Block.evtLast_hop (b : Block) (c : Nat) (r : List Byte) : (b.evtLast c r).hop = b.hop := by
  unfold Block.evtLast
  split <;> rfl
@[simp] theorem Block.evtLast_ms (b : Block) (c : Nat) (r : List Byte) : (b.evtLast c r).ms = b.ms := by
  unfold Block.evtLast
  split <;> rfl
@[simp] theorem Block.evtLast_fab (b : Block) (c : Nat) (r : List Byte) : (b.evtLast c r).fab = b.fab := by
  unfold Block.evtLast
  split <;> rfl
@[simp] theorem Block.evtLast_gs (b : Block) (c : Nat) (r : List Byte) : (b.evtLast c r).gs = b.gs := by
  unfold Block.evtLast
  split <;> rfl
@[simp] theorem Block.evtLast_gov (b : Block) (c : Nat) (r : List Byte) : (b.evtLast c r).gov = b.gov := by
  unfold Block.evtLast
  split <;> rfl
@[simp] theorem Block.evtLast_svc (b : Block) (c : Nat) (r : List Byte) : (b.evtLast c r).svc = b.svc := by
  unfold Block.evtLast
  split <;> rfl
@[simp] theorem Block.evtLast_tiles (b : Block) (c : Nat) (r : List Byte) : (b.evtLast c r).tiles = b.tiles := by
  unfold Block.evtLast
  split <;> rfl
@[simp] theorem Block.evtLast_evt (b : Block) (c : Nat) (r : List Byte) : (b.evtLast c r).evt = b.evt := by
  unfold Block.evtLast
  split <;> rfl
@[simp] theorem Block.evtLast_vio (b : Block) (c : Nat) (r : List Byte) : (b.evtLast c r).vio = b.vio := by
  unfold Block.evtLast
  split <;> rfl
@[simp] theorem Block.evtLast_out (b : Block) (c : Nat) (r : List Byte) : (b.evtLast c r).out = b.out := by
  unfold Block.evtLast
  split <;> rfl
@[simp] theorem Block.evtLast_free (b : Block) (c : Nat) (r : List Byte) : (b.evtLast c r).free = b.free := by
  unfold Block.evtLast
  split <;> rfl

-- evtIrq
@[simp] theorem Block.evtIrq_regs (b : Block) (c : Nat) : (b.evtIrq c).regs = b.regs := by
  unfold Block.evtIrq
  split <;> simp
@[simp] theorem Block.evtIrq_mem (b : Block) (c : Nat) : (b.evtIrq c).mem = b.mem := by
  unfold Block.evtIrq
  split <;> simp
@[simp] theorem Block.evtIrq_gmc (b : Block) (c : Nat) : (b.evtIrq c).gmc = b.gmc := by
  unfold Block.evtIrq
  split <;> simp
@[simp] theorem Block.evtIrq_pwr (b : Block) (c : Nat) : (b.evtIrq c).pwr = b.pwr := by
  unfold Block.evtIrq
  split <;> simp
@[simp] theorem Block.evtIrq_dies (b : Block) (c : Nat) : (b.evtIrq c).dies = b.dies := by
  unfold Block.evtIrq
  split <;> simp
@[simp] theorem Block.evtIrq_cfg (b : Block) (c : Nat) : (b.evtIrq c).cfg = b.cfg := by
  unfold Block.evtIrq
  split <;> simp
@[simp] theorem Block.evtIrq_mgmt (b : Block) (c : Nat) : (b.evtIrq c).mgmt = b.mgmt := by
  unfold Block.evtIrq
  split <;> simp
@[simp] theorem Block.evtIrq_sqs (b : Block) (c : Nat) : (b.evtIrq c).sqs = b.sqs := by
  unfold Block.evtIrq
  split <;> simp
@[simp] theorem Block.evtIrq_cqs (b : Block) (c : Nat) : (b.evtIrq c).cqs = b.cqs := by
  unfold Block.evtIrq
  split <;> simp
@[simp] theorem Block.evtIrq_hop (b : Block) (c : Nat) : (b.evtIrq c).hop = b.hop := by
  unfold Block.evtIrq
  split <;> simp
@[simp] theorem Block.evtIrq_ms (b : Block) (c : Nat) : (b.evtIrq c).ms = b.ms := by
  unfold Block.evtIrq
  split <;> simp
@[simp] theorem Block.evtIrq_fab (b : Block) (c : Nat) : (b.evtIrq c).fab = b.fab := by
  unfold Block.evtIrq
  split <;> simp
@[simp] theorem Block.evtIrq_gs (b : Block) (c : Nat) : (b.evtIrq c).gs = b.gs := by
  unfold Block.evtIrq
  split <;> simp
@[simp] theorem Block.evtIrq_gov (b : Block) (c : Nat) : (b.evtIrq c).gov = b.gov := by
  unfold Block.evtIrq
  split <;> simp
@[simp] theorem Block.evtIrq_svc (b : Block) (c : Nat) : (b.evtIrq c).svc = b.svc := by
  unfold Block.evtIrq
  split <;> simp
@[simp] theorem Block.evtIrq_tiles (b : Block) (c : Nat) : (b.evtIrq c).tiles = b.tiles := by
  unfold Block.evtIrq
  split <;> simp
@[simp] theorem Block.evtIrq_evt (b : Block) (c : Nat) : (b.evtIrq c).evt = b.evt := by
  unfold Block.evtIrq
  split <;> simp
@[simp] theorem Block.evtIrq_vio (b : Block) (c : Nat) : (b.evtIrq c).vio = b.vio := by
  unfold Block.evtIrq
  split <;> simp
@[simp] theorem Block.evtIrq_free (b : Block) (c : Nat) : (b.evtIrq c).free = b.free := by
  unfold Block.evtIrq
  split <;> simp
@[simp] theorem Block.evtIrq_get (b : Block) (c : Nat) (f : Fld) (i : Nat) : (b.evtIrq c).get f i = b.get f i := by
  unfold Block.get
  rw [Block.evtIrq_regs]

-- evtLine
@[simp] theorem Block.evtLine_mem (b : Block) (c : Nat) : (b.evtLine c).mem = b.mem := by
  unfold Block.evtLine
  split <;> simp
@[simp] theorem Block.evtLine_gmc (b : Block) (c : Nat) : (b.evtLine c).gmc = b.gmc := by
  unfold Block.evtLine
  split <;> simp
@[simp] theorem Block.evtLine_pwr (b : Block) (c : Nat) : (b.evtLine c).pwr = b.pwr := by
  unfold Block.evtLine
  split <;> simp
@[simp] theorem Block.evtLine_dies (b : Block) (c : Nat) : (b.evtLine c).dies = b.dies := by
  unfold Block.evtLine
  split <;> simp
@[simp] theorem Block.evtLine_cfg (b : Block) (c : Nat) : (b.evtLine c).cfg = b.cfg := by
  unfold Block.evtLine
  split <;> simp
@[simp] theorem Block.evtLine_mgmt (b : Block) (c : Nat) : (b.evtLine c).mgmt = b.mgmt := by
  unfold Block.evtLine
  split <;> simp
@[simp] theorem Block.evtLine_link (b : Block) (c : Nat) : (b.evtLine c).link = b.link := by
  unfold Block.evtLine
  split <;> simp
@[simp] theorem Block.evtLine_sqs (b : Block) (c : Nat) : (b.evtLine c).sqs = b.sqs := by
  unfold Block.evtLine
  split <;> simp
@[simp] theorem Block.evtLine_cqs (b : Block) (c : Nat) : (b.evtLine c).cqs = b.cqs := by
  unfold Block.evtLine
  split <;> simp
@[simp] theorem Block.evtLine_hop (b : Block) (c : Nat) : (b.evtLine c).hop = b.hop := by
  unfold Block.evtLine
  split <;> simp
@[simp] theorem Block.evtLine_ms (b : Block) (c : Nat) : (b.evtLine c).ms = b.ms := by
  unfold Block.evtLine
  split <;> simp
@[simp] theorem Block.evtLine_fab (b : Block) (c : Nat) : (b.evtLine c).fab = b.fab := by
  unfold Block.evtLine
  split <;> simp
@[simp] theorem Block.evtLine_gs (b : Block) (c : Nat) : (b.evtLine c).gs = b.gs := by
  unfold Block.evtLine
  split <;> simp
@[simp] theorem Block.evtLine_gov (b : Block) (c : Nat) : (b.evtLine c).gov = b.gov := by
  unfold Block.evtLine
  split <;> simp
@[simp] theorem Block.evtLine_svc (b : Block) (c : Nat) : (b.evtLine c).svc = b.svc := by
  unfold Block.evtLine
  split <;> simp
@[simp] theorem Block.evtLine_tiles (b : Block) (c : Nat) : (b.evtLine c).tiles = b.tiles := by
  unfold Block.evtLine
  split <;> simp
@[simp] theorem Block.evtLine_evt (b : Block) (c : Nat) : (b.evtLine c).evt = b.evt := by
  unfold Block.evtLine
  split <;> simp
@[simp] theorem Block.evtLine_vio (b : Block) (c : Nat) : (b.evtLine c).vio = b.vio := by
  unfold Block.evtLine
  split <;> simp
@[simp] theorem Block.evtLine_free (b : Block) (c : Nat) : (b.evtLine c).free = b.free := by
  unfold Block.evtLine
  split <;> simp

-- eventIn
@[simp] theorem Block.eventIn_mem (b : Block) (blk code : Nat) (data : List Byte) (part : Nat) : (b.eventIn blk code data part).mem = b.mem := by
  rw [Block.eventIn, Block.evtLine_mem, Block.evtIrq_mem, Block.evtLast_mem, Block.evtClass_mem, Block.evtStore_mem]
@[simp] theorem Block.eventIn_gmc (b : Block) (blk code : Nat) (data : List Byte) (part : Nat) : (b.eventIn blk code data part).gmc = b.gmc := by
  rw [Block.eventIn, Block.evtLine_gmc, Block.evtIrq_gmc, Block.evtLast_gmc, Block.evtClass_gmc, Block.evtStore_gmc]
@[simp] theorem Block.eventIn_pwr (b : Block) (blk code : Nat) (data : List Byte) (part : Nat) : (b.eventIn blk code data part).pwr = b.pwr := by
  rw [Block.eventIn, Block.evtLine_pwr, Block.evtIrq_pwr, Block.evtLast_pwr, Block.evtClass_pwr, Block.evtStore_pwr]
@[simp] theorem Block.eventIn_dies (b : Block) (blk code : Nat) (data : List Byte) (part : Nat) : (b.eventIn blk code data part).dies = b.dies := by
  rw [Block.eventIn, Block.evtLine_dies, Block.evtIrq_dies, Block.evtLast_dies, Block.evtClass_dies, Block.evtStore_dies]
@[simp] theorem Block.eventIn_cfg (b : Block) (blk code : Nat) (data : List Byte) (part : Nat) : (b.eventIn blk code data part).cfg = b.cfg := by
  rw [Block.eventIn, Block.evtLine_cfg, Block.evtIrq_cfg, Block.evtLast_cfg, Block.evtClass_cfg, Block.evtStore_cfg]
@[simp] theorem Block.eventIn_mgmt (b : Block) (blk code : Nat) (data : List Byte) (part : Nat) : (b.eventIn blk code data part).mgmt = b.mgmt := by
  rw [Block.eventIn, Block.evtLine_mgmt, Block.evtIrq_mgmt, Block.evtLast_mgmt, Block.evtClass_mgmt, Block.evtStore_mgmt]
@[simp] theorem Block.eventIn_sqs (b : Block) (blk code : Nat) (data : List Byte) (part : Nat) : (b.eventIn blk code data part).sqs = b.sqs := by
  rw [Block.eventIn, Block.evtLine_sqs, Block.evtIrq_sqs, Block.evtLast_sqs, Block.evtClass_sqs, Block.evtStore_sqs]
@[simp] theorem Block.eventIn_cqs (b : Block) (blk code : Nat) (data : List Byte) (part : Nat) : (b.eventIn blk code data part).cqs = b.cqs := by
  rw [Block.eventIn, Block.evtLine_cqs, Block.evtIrq_cqs, Block.evtLast_cqs, Block.evtClass_cqs, Block.evtStore_cqs]
@[simp] theorem Block.eventIn_hop (b : Block) (blk code : Nat) (data : List Byte) (part : Nat) : (b.eventIn blk code data part).hop = b.hop := by
  rw [Block.eventIn, Block.evtLine_hop, Block.evtIrq_hop, Block.evtLast_hop, Block.evtClass_hop, Block.evtStore_hop]
@[simp] theorem Block.eventIn_ms (b : Block) (blk code : Nat) (data : List Byte) (part : Nat) : (b.eventIn blk code data part).ms = b.ms := by
  rw [Block.eventIn, Block.evtLine_ms, Block.evtIrq_ms, Block.evtLast_ms, Block.evtClass_ms, Block.evtStore_ms]
@[simp] theorem Block.eventIn_fab (b : Block) (blk code : Nat) (data : List Byte) (part : Nat) : (b.eventIn blk code data part).fab = b.fab := by
  rw [Block.eventIn, Block.evtLine_fab, Block.evtIrq_fab, Block.evtLast_fab, Block.evtClass_fab, Block.evtStore_fab]
@[simp] theorem Block.eventIn_gs (b : Block) (blk code : Nat) (data : List Byte) (part : Nat) : (b.eventIn blk code data part).gs = b.gs := by
  rw [Block.eventIn, Block.evtLine_gs, Block.evtIrq_gs, Block.evtLast_gs, Block.evtClass_gs, Block.evtStore_gs]
@[simp] theorem Block.eventIn_gov (b : Block) (blk code : Nat) (data : List Byte) (part : Nat) : (b.eventIn blk code data part).gov = b.gov := by
  rw [Block.eventIn, Block.evtLine_gov, Block.evtIrq_gov, Block.evtLast_gov, Block.evtClass_gov, Block.evtStore_gov]
@[simp] theorem Block.eventIn_svc (b : Block) (blk code : Nat) (data : List Byte) (part : Nat) : (b.eventIn blk code data part).svc = b.svc := by
  rw [Block.eventIn, Block.evtLine_svc, Block.evtIrq_svc, Block.evtLast_svc, Block.evtClass_svc, Block.evtStore_svc]
@[simp] theorem Block.eventIn_tiles (b : Block) (blk code : Nat) (data : List Byte) (part : Nat) : (b.eventIn blk code data part).tiles = b.tiles := by
  rw [Block.eventIn, Block.evtLine_tiles, Block.evtIrq_tiles, Block.evtLast_tiles, Block.evtClass_tiles, Block.evtStore_tiles]
@[simp] theorem Block.eventIn_vio (b : Block) (blk code : Nat) (data : List Byte) (part : Nat) : (b.eventIn blk code data part).vio = b.vio := by
  rw [Block.eventIn, Block.evtLine_vio, Block.evtIrq_vio, Block.evtLast_vio, Block.evtClass_vio, Block.evtStore_vio]
@[simp] theorem Block.eventIn_free (b : Block) (blk code : Nat) (data : List Byte) (part : Nat) : (b.eventIn blk code data part).free = b.free := by
  rw [Block.eventIn, Block.evtLine_free, Block.evtIrq_free, Block.evtLast_free, Block.evtClass_free, Block.evtStore_free]

-- event
@[simp] theorem Block.event_mem (b : Block) (blk code : Nat) (data : List Byte) (part : Nat) : (b.event blk code data part).mem = b.mem := by
  rw [Block.event]
  split
  · exact Block.bump_mem _ _ _ _
  · rw [Block.eventIn_mem]
@[simp] theorem Block.event_gmc (b : Block) (blk code : Nat) (data : List Byte) (part : Nat) : (b.event blk code data part).gmc = b.gmc := by
  rw [Block.event]
  split
  · exact Block.bump_gmc _ _ _ _
  · rw [Block.eventIn_gmc]
@[simp] theorem Block.event_pwr (b : Block) (blk code : Nat) (data : List Byte) (part : Nat) : (b.event blk code data part).pwr = b.pwr := by
  rw [Block.event]
  split
  · exact Block.bump_pwr _ _ _ _
  · rw [Block.eventIn_pwr]
@[simp] theorem Block.event_dies (b : Block) (blk code : Nat) (data : List Byte) (part : Nat) : (b.event blk code data part).dies = b.dies := by
  rw [Block.event]
  split
  · exact Block.bump_dies _ _ _ _
  · rw [Block.eventIn_dies]
@[simp] theorem Block.event_cfg (b : Block) (blk code : Nat) (data : List Byte) (part : Nat) : (b.event blk code data part).cfg = b.cfg := by
  rw [Block.event]
  split
  · exact Block.bump_cfg _ _ _ _
  · rw [Block.eventIn_cfg]
@[simp] theorem Block.event_mgmt (b : Block) (blk code : Nat) (data : List Byte) (part : Nat) : (b.event blk code data part).mgmt = b.mgmt := by
  rw [Block.event]
  split
  · exact Block.bump_mgmt _ _ _ _
  · rw [Block.eventIn_mgmt]
@[simp] theorem Block.event_sqs (b : Block) (blk code : Nat) (data : List Byte) (part : Nat) : (b.event blk code data part).sqs = b.sqs := by
  rw [Block.event]
  split
  · exact Block.bump_sqs _ _ _ _
  · rw [Block.eventIn_sqs]
@[simp] theorem Block.event_cqs (b : Block) (blk code : Nat) (data : List Byte) (part : Nat) : (b.event blk code data part).cqs = b.cqs := by
  rw [Block.event]
  split
  · exact Block.bump_cqs _ _ _ _
  · rw [Block.eventIn_cqs]
@[simp] theorem Block.event_hop (b : Block) (blk code : Nat) (data : List Byte) (part : Nat) : (b.event blk code data part).hop = b.hop := by
  rw [Block.event]
  split
  · exact Block.bump_hop _ _ _ _
  · rw [Block.eventIn_hop]
@[simp] theorem Block.event_ms (b : Block) (blk code : Nat) (data : List Byte) (part : Nat) : (b.event blk code data part).ms = b.ms := by
  rw [Block.event]
  split
  · exact Block.bump_ms _ _ _ _
  · rw [Block.eventIn_ms]
@[simp] theorem Block.event_fab (b : Block) (blk code : Nat) (data : List Byte) (part : Nat) : (b.event blk code data part).fab = b.fab := by
  rw [Block.event]
  split
  · exact Block.bump_fab _ _ _ _
  · rw [Block.eventIn_fab]
@[simp] theorem Block.event_gs (b : Block) (blk code : Nat) (data : List Byte) (part : Nat) : (b.event blk code data part).gs = b.gs := by
  rw [Block.event]
  split
  · exact Block.bump_gs _ _ _ _
  · rw [Block.eventIn_gs]
@[simp] theorem Block.event_gov (b : Block) (blk code : Nat) (data : List Byte) (part : Nat) : (b.event blk code data part).gov = b.gov := by
  rw [Block.event]
  split
  · exact Block.bump_gov _ _ _ _
  · rw [Block.eventIn_gov]
@[simp] theorem Block.event_svc (b : Block) (blk code : Nat) (data : List Byte) (part : Nat) : (b.event blk code data part).svc = b.svc := by
  rw [Block.event]
  split
  · exact Block.bump_svc _ _ _ _
  · rw [Block.eventIn_svc]
@[simp] theorem Block.event_tiles (b : Block) (blk code : Nat) (data : List Byte) (part : Nat) : (b.event blk code data part).tiles = b.tiles := by
  rw [Block.event]
  split
  · exact Block.bump_tiles _ _ _ _
  · rw [Block.eventIn_tiles]
@[simp] theorem Block.event_vio (b : Block) (blk code : Nat) (data : List Byte) (part : Nat) : (b.event blk code data part).vio = b.vio := by
  rw [Block.event]
  split
  · exact Block.bump_vio _ _ _ _
  · rw [Block.eventIn_vio]
@[simp] theorem Block.event_free (b : Block) (blk code : Nat) (data : List Byte) (part : Nat) : (b.event blk code data part).free = b.free := by
  rw [Block.event]
  split
  · exact Block.bump_free _ _ _ _
  · rw [Block.eventIn_free]

-- vioStore
@[simp] theorem Block.vioStore_mem (b : Block) (r : List Byte) : (b.vioStore r).mem = b.mem := by
  simp only [Block.vioStore]
  split <;> rfl
@[simp] theorem Block.vioStore_gmc (b : Block) (r : List Byte) : (b.vioStore r).gmc = b.gmc := by
  simp only [Block.vioStore]
  split <;> rfl
@[simp] theorem Block.vioStore_pwr (b : Block) (r : List Byte) : (b.vioStore r).pwr = b.pwr := by
  simp only [Block.vioStore]
  split <;> rfl
@[simp] theorem Block.vioStore_dies (b : Block) (r : List Byte) : (b.vioStore r).dies = b.dies := by
  simp only [Block.vioStore]
  split <;> rfl
@[simp] theorem Block.vioStore_cfg (b : Block) (r : List Byte) : (b.vioStore r).cfg = b.cfg := by
  simp only [Block.vioStore]
  split <;> rfl
@[simp] theorem Block.vioStore_mgmt (b : Block) (r : List Byte) : (b.vioStore r).mgmt = b.mgmt := by
  simp only [Block.vioStore]
  split <;> rfl
@[simp] theorem Block.vioStore_link (b : Block) (r : List Byte) : (b.vioStore r).link = b.link := by
  simp only [Block.vioStore]
  split <;> rfl
@[simp] theorem Block.vioStore_sqs (b : Block) (r : List Byte) : (b.vioStore r).sqs = b.sqs := by
  simp only [Block.vioStore]
  split <;> rfl
@[simp] theorem Block.vioStore_cqs (b : Block) (r : List Byte) : (b.vioStore r).cqs = b.cqs := by
  simp only [Block.vioStore]
  split <;> rfl
@[simp] theorem Block.vioStore_hop (b : Block) (r : List Byte) : (b.vioStore r).hop = b.hop := by
  simp only [Block.vioStore]
  split <;> rfl
@[simp] theorem Block.vioStore_ms (b : Block) (r : List Byte) : (b.vioStore r).ms = b.ms := by
  simp only [Block.vioStore]
  split <;> rfl
@[simp] theorem Block.vioStore_fab (b : Block) (r : List Byte) : (b.vioStore r).fab = b.fab := by
  simp only [Block.vioStore]
  split <;> rfl
@[simp] theorem Block.vioStore_gs (b : Block) (r : List Byte) : (b.vioStore r).gs = b.gs := by
  simp only [Block.vioStore]
  split <;> rfl
@[simp] theorem Block.vioStore_gov (b : Block) (r : List Byte) : (b.vioStore r).gov = b.gov := by
  simp only [Block.vioStore]
  split <;> rfl
@[simp] theorem Block.vioStore_svc (b : Block) (r : List Byte) : (b.vioStore r).svc = b.svc := by
  simp only [Block.vioStore]
  split <;> rfl
@[simp] theorem Block.vioStore_tiles (b : Block) (r : List Byte) : (b.vioStore r).tiles = b.tiles := by
  simp only [Block.vioStore]
  split <;> rfl
@[simp] theorem Block.vioStore_evt (b : Block) (r : List Byte) : (b.vioStore r).evt = b.evt := by
  simp only [Block.vioStore]
  split <;> rfl
@[simp] theorem Block.vioStore_out (b : Block) (r : List Byte) : (b.vioStore r).out = b.out := by
  simp only [Block.vioStore]
  split <;> rfl
@[simp] theorem Block.vioStore_free (b : Block) (r : List Byte) : (b.vioStore r).free = b.free := by
  simp only [Block.vioStore]
  split <;> rfl

-- vioIrq
@[simp] theorem Block.vioIrq_regs (b : Block) : (b.vioIrq).regs = b.regs := by
  unfold Block.vioIrq
  split <;> simp
@[simp] theorem Block.vioIrq_mem (b : Block) : (b.vioIrq).mem = b.mem := by
  unfold Block.vioIrq
  split <;> simp
@[simp] theorem Block.vioIrq_gmc (b : Block) : (b.vioIrq).gmc = b.gmc := by
  unfold Block.vioIrq
  split <;> simp
@[simp] theorem Block.vioIrq_pwr (b : Block) : (b.vioIrq).pwr = b.pwr := by
  unfold Block.vioIrq
  split <;> simp
@[simp] theorem Block.vioIrq_dies (b : Block) : (b.vioIrq).dies = b.dies := by
  unfold Block.vioIrq
  split <;> simp
@[simp] theorem Block.vioIrq_cfg (b : Block) : (b.vioIrq).cfg = b.cfg := by
  unfold Block.vioIrq
  split <;> simp
@[simp] theorem Block.vioIrq_mgmt (b : Block) : (b.vioIrq).mgmt = b.mgmt := by
  unfold Block.vioIrq
  split <;> simp
@[simp] theorem Block.vioIrq_sqs (b : Block) : (b.vioIrq).sqs = b.sqs := by
  unfold Block.vioIrq
  split <;> simp
@[simp] theorem Block.vioIrq_cqs (b : Block) : (b.vioIrq).cqs = b.cqs := by
  unfold Block.vioIrq
  split <;> simp
@[simp] theorem Block.vioIrq_hop (b : Block) : (b.vioIrq).hop = b.hop := by
  unfold Block.vioIrq
  split <;> simp
@[simp] theorem Block.vioIrq_ms (b : Block) : (b.vioIrq).ms = b.ms := by
  unfold Block.vioIrq
  split <;> simp
@[simp] theorem Block.vioIrq_fab (b : Block) : (b.vioIrq).fab = b.fab := by
  unfold Block.vioIrq
  split <;> simp
@[simp] theorem Block.vioIrq_gs (b : Block) : (b.vioIrq).gs = b.gs := by
  unfold Block.vioIrq
  split <;> simp
@[simp] theorem Block.vioIrq_gov (b : Block) : (b.vioIrq).gov = b.gov := by
  unfold Block.vioIrq
  split <;> simp
@[simp] theorem Block.vioIrq_svc (b : Block) : (b.vioIrq).svc = b.svc := by
  unfold Block.vioIrq
  split <;> simp
@[simp] theorem Block.vioIrq_tiles (b : Block) : (b.vioIrq).tiles = b.tiles := by
  unfold Block.vioIrq
  split <;> simp
@[simp] theorem Block.vioIrq_evt (b : Block) : (b.vioIrq).evt = b.evt := by
  unfold Block.vioIrq
  split <;> simp
@[simp] theorem Block.vioIrq_vio (b : Block) : (b.vioIrq).vio = b.vio := by
  unfold Block.vioIrq
  split <;> simp
@[simp] theorem Block.vioIrq_free (b : Block) : (b.vioIrq).free = b.free := by
  unfold Block.vioIrq
  split <;> simp
@[simp] theorem Block.vioIrq_get (b : Block) (f : Fld) (i : Nat) : (b.vioIrq).get f i = b.get f i := by
  unfold Block.get
  rw [Block.vioIrq_regs]

-- vioRing
@[simp] theorem Block.vioRing_mem (b : Block) (blk : Nat) : (b.vioRing blk).mem = b.mem := by
  unfold Block.vioRing
  split <;> rfl
@[simp] theorem Block.vioRing_gmc (b : Block) (blk : Nat) : (b.vioRing blk).gmc = b.gmc := by
  unfold Block.vioRing
  split <;> rfl
@[simp] theorem Block.vioRing_pwr (b : Block) (blk : Nat) : (b.vioRing blk).pwr = b.pwr := by
  unfold Block.vioRing
  split <;> rfl
@[simp] theorem Block.vioRing_dies (b : Block) (blk : Nat) : (b.vioRing blk).dies = b.dies := by
  unfold Block.vioRing
  split <;> rfl
@[simp] theorem Block.vioRing_cfg (b : Block) (blk : Nat) : (b.vioRing blk).cfg = b.cfg := by
  unfold Block.vioRing
  split <;> rfl
@[simp] theorem Block.vioRing_mgmt (b : Block) (blk : Nat) : (b.vioRing blk).mgmt = b.mgmt := by
  unfold Block.vioRing
  split <;> rfl
@[simp] theorem Block.vioRing_link (b : Block) (blk : Nat) : (b.vioRing blk).link = b.link := by
  unfold Block.vioRing
  split <;> rfl
@[simp] theorem Block.vioRing_sqs (b : Block) (blk : Nat) : (b.vioRing blk).sqs = b.sqs := by
  unfold Block.vioRing
  split <;> rfl
@[simp] theorem Block.vioRing_cqs (b : Block) (blk : Nat) : (b.vioRing blk).cqs = b.cqs := by
  unfold Block.vioRing
  split <;> rfl
@[simp] theorem Block.vioRing_hop (b : Block) (blk : Nat) : (b.vioRing blk).hop = b.hop := by
  unfold Block.vioRing
  split <;> rfl
@[simp] theorem Block.vioRing_ms (b : Block) (blk : Nat) : (b.vioRing blk).ms = b.ms := by
  unfold Block.vioRing
  split <;> rfl
@[simp] theorem Block.vioRing_fab (b : Block) (blk : Nat) : (b.vioRing blk).fab = b.fab := by
  unfold Block.vioRing
  split <;> rfl
@[simp] theorem Block.vioRing_gs (b : Block) (blk : Nat) : (b.vioRing blk).gs = b.gs := by
  unfold Block.vioRing
  split <;> rfl
@[simp] theorem Block.vioRing_gov (b : Block) (blk : Nat) : (b.vioRing blk).gov = b.gov := by
  unfold Block.vioRing
  split <;> rfl
@[simp] theorem Block.vioRing_svc (b : Block) (blk : Nat) : (b.vioRing blk).svc = b.svc := by
  unfold Block.vioRing
  split <;> rfl
@[simp] theorem Block.vioRing_tiles (b : Block) (blk : Nat) : (b.vioRing blk).tiles = b.tiles := by
  unfold Block.vioRing
  split <;> rfl
@[simp] theorem Block.vioRing_evt (b : Block) (blk : Nat) : (b.vioRing blk).evt = b.evt := by
  unfold Block.vioRing
  split <;> rfl
@[simp] theorem Block.vioRing_vio (b : Block) (blk : Nat) : (b.vioRing blk).vio = b.vio := by
  unfold Block.vioRing
  split <;> rfl
@[simp] theorem Block.vioRing_out (b : Block) (blk : Nat) : (b.vioRing blk).out = b.out := by
  unfold Block.vioRing
  split <;> rfl
@[simp] theorem Block.vioRing_free (b : Block) (blk : Nat) : (b.vioRing blk).free = b.free := by
  unfold Block.vioRing
  split <;> rfl

-- violateIn
@[simp] theorem Block.violateIn_mem (b : Block) (r : List Byte) : (b.violateIn r).mem = b.mem := by
  rw [Block.violateIn, Block.vioIrq_mem, Block.bumpSat_mem, Block.vioStore_mem]
@[simp] theorem Block.violateIn_gmc (b : Block) (r : List Byte) : (b.violateIn r).gmc = b.gmc := by
  rw [Block.violateIn, Block.vioIrq_gmc, Block.bumpSat_gmc, Block.vioStore_gmc]
@[simp] theorem Block.violateIn_pwr (b : Block) (r : List Byte) : (b.violateIn r).pwr = b.pwr := by
  rw [Block.violateIn, Block.vioIrq_pwr, Block.bumpSat_pwr, Block.vioStore_pwr]
@[simp] theorem Block.violateIn_dies (b : Block) (r : List Byte) : (b.violateIn r).dies = b.dies := by
  rw [Block.violateIn, Block.vioIrq_dies, Block.bumpSat_dies, Block.vioStore_dies]
@[simp] theorem Block.violateIn_cfg (b : Block) (r : List Byte) : (b.violateIn r).cfg = b.cfg := by
  rw [Block.violateIn, Block.vioIrq_cfg, Block.bumpSat_cfg, Block.vioStore_cfg]
@[simp] theorem Block.violateIn_mgmt (b : Block) (r : List Byte) : (b.violateIn r).mgmt = b.mgmt := by
  rw [Block.violateIn, Block.vioIrq_mgmt, Block.bumpSat_mgmt, Block.vioStore_mgmt]
@[simp] theorem Block.violateIn_sqs (b : Block) (r : List Byte) : (b.violateIn r).sqs = b.sqs := by
  rw [Block.violateIn, Block.vioIrq_sqs, Block.bumpSat_sqs, Block.vioStore_sqs]
@[simp] theorem Block.violateIn_cqs (b : Block) (r : List Byte) : (b.violateIn r).cqs = b.cqs := by
  rw [Block.violateIn, Block.vioIrq_cqs, Block.bumpSat_cqs, Block.vioStore_cqs]
@[simp] theorem Block.violateIn_hop (b : Block) (r : List Byte) : (b.violateIn r).hop = b.hop := by
  rw [Block.violateIn, Block.vioIrq_hop, Block.bumpSat_hop, Block.vioStore_hop]
@[simp] theorem Block.violateIn_ms (b : Block) (r : List Byte) : (b.violateIn r).ms = b.ms := by
  rw [Block.violateIn, Block.vioIrq_ms, Block.bumpSat_ms, Block.vioStore_ms]
@[simp] theorem Block.violateIn_fab (b : Block) (r : List Byte) : (b.violateIn r).fab = b.fab := by
  rw [Block.violateIn, Block.vioIrq_fab, Block.bumpSat_fab, Block.vioStore_fab]
@[simp] theorem Block.violateIn_gs (b : Block) (r : List Byte) : (b.violateIn r).gs = b.gs := by
  rw [Block.violateIn, Block.vioIrq_gs, Block.bumpSat_gs, Block.vioStore_gs]
@[simp] theorem Block.violateIn_gov (b : Block) (r : List Byte) : (b.violateIn r).gov = b.gov := by
  rw [Block.violateIn, Block.vioIrq_gov, Block.bumpSat_gov, Block.vioStore_gov]
@[simp] theorem Block.violateIn_svc (b : Block) (r : List Byte) : (b.violateIn r).svc = b.svc := by
  rw [Block.violateIn, Block.vioIrq_svc, Block.bumpSat_svc, Block.vioStore_svc]
@[simp] theorem Block.violateIn_tiles (b : Block) (r : List Byte) : (b.violateIn r).tiles = b.tiles := by
  rw [Block.violateIn, Block.vioIrq_tiles, Block.bumpSat_tiles, Block.vioStore_tiles]
@[simp] theorem Block.violateIn_evt (b : Block) (r : List Byte) : (b.violateIn r).evt = b.evt := by
  rw [Block.violateIn, Block.vioIrq_evt, Block.bumpSat_evt, Block.vioStore_evt]
@[simp] theorem Block.violateIn_free (b : Block) (r : List Byte) : (b.violateIn r).free = b.free := by
  rw [Block.violateIn, Block.vioIrq_free, Block.bumpSat_free, Block.vioStore_free]

-- violate
@[simp] theorem Block.violate_mem (b : Block) (blk code part source ring action : Nat) (data : List Byte) : (b.violate blk code part source ring action data).mem = b.mem := by
  rw [Block.violate]
  split
  · exact Block.bump_mem _ _ _ _
  · rw [Block.vioRing_mem, Block.violateIn_mem]
@[simp] theorem Block.violate_gmc (b : Block) (blk code part source ring action : Nat) (data : List Byte) : (b.violate blk code part source ring action data).gmc = b.gmc := by
  rw [Block.violate]
  split
  · exact Block.bump_gmc _ _ _ _
  · rw [Block.vioRing_gmc, Block.violateIn_gmc]
@[simp] theorem Block.violate_pwr (b : Block) (blk code part source ring action : Nat) (data : List Byte) : (b.violate blk code part source ring action data).pwr = b.pwr := by
  rw [Block.violate]
  split
  · exact Block.bump_pwr _ _ _ _
  · rw [Block.vioRing_pwr, Block.violateIn_pwr]
@[simp] theorem Block.violate_dies (b : Block) (blk code part source ring action : Nat) (data : List Byte) : (b.violate blk code part source ring action data).dies = b.dies := by
  rw [Block.violate]
  split
  · exact Block.bump_dies _ _ _ _
  · rw [Block.vioRing_dies, Block.violateIn_dies]
@[simp] theorem Block.violate_cfg (b : Block) (blk code part source ring action : Nat) (data : List Byte) : (b.violate blk code part source ring action data).cfg = b.cfg := by
  rw [Block.violate]
  split
  · exact Block.bump_cfg _ _ _ _
  · rw [Block.vioRing_cfg, Block.violateIn_cfg]
@[simp] theorem Block.violate_mgmt (b : Block) (blk code part source ring action : Nat) (data : List Byte) : (b.violate blk code part source ring action data).mgmt = b.mgmt := by
  rw [Block.violate]
  split
  · exact Block.bump_mgmt _ _ _ _
  · rw [Block.vioRing_mgmt, Block.violateIn_mgmt]
@[simp] theorem Block.violate_sqs (b : Block) (blk code part source ring action : Nat) (data : List Byte) : (b.violate blk code part source ring action data).sqs = b.sqs := by
  rw [Block.violate]
  split
  · exact Block.bump_sqs _ _ _ _
  · rw [Block.vioRing_sqs, Block.violateIn_sqs]
@[simp] theorem Block.violate_cqs (b : Block) (blk code part source ring action : Nat) (data : List Byte) : (b.violate blk code part source ring action data).cqs = b.cqs := by
  rw [Block.violate]
  split
  · exact Block.bump_cqs _ _ _ _
  · rw [Block.vioRing_cqs, Block.violateIn_cqs]
@[simp] theorem Block.violate_hop (b : Block) (blk code part source ring action : Nat) (data : List Byte) : (b.violate blk code part source ring action data).hop = b.hop := by
  rw [Block.violate]
  split
  · exact Block.bump_hop _ _ _ _
  · rw [Block.vioRing_hop, Block.violateIn_hop]
@[simp] theorem Block.violate_ms (b : Block) (blk code part source ring action : Nat) (data : List Byte) : (b.violate blk code part source ring action data).ms = b.ms := by
  rw [Block.violate]
  split
  · exact Block.bump_ms _ _ _ _
  · rw [Block.vioRing_ms, Block.violateIn_ms]
@[simp] theorem Block.violate_fab (b : Block) (blk code part source ring action : Nat) (data : List Byte) : (b.violate blk code part source ring action data).fab = b.fab := by
  rw [Block.violate]
  split
  · exact Block.bump_fab _ _ _ _
  · rw [Block.vioRing_fab, Block.violateIn_fab]
@[simp] theorem Block.violate_gs (b : Block) (blk code part source ring action : Nat) (data : List Byte) : (b.violate blk code part source ring action data).gs = b.gs := by
  rw [Block.violate]
  split
  · exact Block.bump_gs _ _ _ _
  · rw [Block.vioRing_gs, Block.violateIn_gs]
@[simp] theorem Block.violate_gov (b : Block) (blk code part source ring action : Nat) (data : List Byte) : (b.violate blk code part source ring action data).gov = b.gov := by
  rw [Block.violate]
  split
  · exact Block.bump_gov _ _ _ _
  · rw [Block.vioRing_gov, Block.violateIn_gov]
@[simp] theorem Block.violate_svc (b : Block) (blk code part source ring action : Nat) (data : List Byte) : (b.violate blk code part source ring action data).svc = b.svc := by
  rw [Block.violate]
  split
  · exact Block.bump_svc _ _ _ _
  · rw [Block.vioRing_svc, Block.violateIn_svc]
@[simp] theorem Block.violate_tiles (b : Block) (blk code part source ring action : Nat) (data : List Byte) : (b.violate blk code part source ring action data).tiles = b.tiles := by
  rw [Block.violate]
  split
  · exact Block.bump_tiles _ _ _ _
  · rw [Block.vioRing_tiles, Block.violateIn_tiles]
@[simp] theorem Block.violate_evt (b : Block) (blk code part source ring action : Nat) (data : List Byte) : (b.violate blk code part source ring action data).evt = b.evt := by
  rw [Block.violate]
  split
  · exact Block.bump_evt _ _ _ _
  · rw [Block.vioRing_evt, Block.violateIn_evt]
@[simp] theorem Block.violate_free (b : Block) (blk code part source ring action : Nat) (data : List Byte) : (b.violate blk code part source ring action data).free = b.free := by
  rw [Block.violate]
  split
  · exact Block.bump_free _ _ _ _
  · rw [Block.vioRing_free, Block.violateIn_free]

-- Registers
theorem Block.raiseLine_get (b : Block) (c n : Nat) (f : Fld) (i : Nat) :
    (b.raiseLine c n).get f i = (b.setB .M_IRQ_PEND_LINES c n).get f i := by
  simp only [Block.raiseLine]
  split <;> rfl

@[simp] theorem Block.raiseLine_get_other (b : Block) (c n : Nat) (f : Fld) (i : Nat) (h : f ≠ .M_IRQ_PEND_LINES) :
    (b.raiseLine c n).get f i = b.get f i := by
  rw [Block.raiseLine_get, Block.setB, Block.get_set_other _ _ _ _ _ _ h.symm]

@[simp] theorem Block.raiseAll_get_other (b : Block) (n : Nat) (f : Fld) (i : Nat) (h : f ≠ .M_IRQ_PEND_LINES) :
    (b.raiseAll n).get f i = b.get f i := by
  simp [Block.raiseAll, h]

/-- An event leaves every register outside the event log's own alone. -/
theorem Block.event_get (b : Block) (blk code : Nat) (data : List Byte) (part : Nat) (f : Fld) (i : Nat) (h : f.eventOwn = false) :
    (b.event blk code data part).get f i = b.get f i := by
  simp only [Fld.eventOwn, List.mem_cons, List.not_mem_nil, or_false, decide_eq_false_iff_not, not_or] at h
  obtain ⟨h1, h2, h0, h3, h4, h5, h6⟩ := h
  have a1 : ∀ (b : Block) r, (b.evtStore r).get f i = b.get f i := by
    intro b r
    simp only [Block.evtStore, Block.bump]
    split
    · rw [Block.get_set_other _ _ _ _ _ _ (Ne.symm h2), Block.get_set_other _ _ _ _ _ _ (Ne.symm h1), Block.get_mk]
    · rw [Block.get_set_other _ _ _ _ _ _ (Ne.symm h1), Block.get_mk]
  have a2 : ∀ (b : Block) c, (b.evtClass c).get f i = b.get f i := by
    intro b c
    simp only [Block.evtClass, Block.bumpSat]
    split
    · exact Block.get_set_other _ _ _ _ _ _ (Ne.symm h3)
    · split
      · exact Block.get_set_other _ _ _ _ _ _ (Ne.symm h4)
      · exact Eq.refl _
  have a3 : ∀ (b : Block) c r, (b.evtLast c r).get f i = b.get f i := by
    intro b c r
    simp only [Block.evtLast]
    split
    · exact Block.get_set_other _ _ _ _ _ _ (Ne.symm h5)
    · exact Eq.refl _
  have a4 : ∀ (b : Block) c, (b.evtLine c).get f i = b.get f i := by
    intro b c
    simp only [Block.evtLine]
    split
    · exact Block.raiseAll_get_other _ _ _ _ h6
    · exact Eq.refl _
  rw [Block.event]
  split
  · exact Block.get_set_other _ _ _ _ _ _ (Ne.symm h0)
  · rw [Block.eventIn, a4, Block.evtIrq_get, a3, a2, a1, Block.get_mk]

/-- A violation leaves every register outside the violation log's own alone. -/
theorem Block.violate_get (b : Block) (blk code part source ring action : Nat) (data : List Byte) (f : Fld) (i : Nat)
    (h : f.violateOwn = false) : (b.violate blk code part source ring action data).get f i = b.get f i := by
  simp only [Fld.violateOwn, List.mem_cons, List.not_mem_nil, or_false, decide_eq_false_iff_not, not_or] at h
  obtain ⟨h1, h2, h0, h3, h4⟩ := h
  have a1 : ∀ (b : Block) r, (b.vioStore r).get f i = b.get f i := by
    intro b r
    simp only [Block.vioStore, Block.bump]
    split
    · rw [Block.get_set_other _ _ _ _ _ _ (Ne.symm h2), Block.get_set_other _ _ _ _ _ _ (Ne.symm h1), Block.get_mk]
    · rw [Block.get_set_other _ _ _ _ _ _ (Ne.symm h1), Block.get_mk]
  have a2 : ∀ (b : Block) k, (b.vioRing k).get f i = b.get f i := by
    intro b k
    simp only [Block.vioRing, Block.bump]
    split
    · exact Block.get_set_other _ _ _ _ _ _ (Ne.symm h4)
    · exact Eq.refl _
  rw [Block.violate]
  split
  · exact Block.get_set_other _ _ _ _ _ _ (Ne.symm h0)
  · rw [a2, Block.violateIn, Block.vioIrq_get, Block.bumpSat, Block.get_set_other _ _ _ _ _ _ (Ne.symm h3), a1, Block.get_mk]

-- The canonical forms -------------------------------------------------------------------------------------------------

/-- The register file's form depends on the register file alone. -/
theorem Block.regsWf_of_regs {b b' : Block} (e : b'.regs = b.regs) (h : b.regsWf = true) : b'.regsWf = true := by
  unfold Block.regsWf at *
  rw [e]
  exact h

/-- The memories' form depends on local memory and the NVM die alone. -/
theorem Block.memWf_of_mem {b b' : Block} (e : b'.mem = b.mem) (e' : b'.cfg.nvm = b.cfg.nvm) (h : b.memWf = true) : b'.memWf = true := by
  unfold Block.memWf at *
  rw [e, e']
  exact h

theorem Block.regsWf_set (b : Block) (f : Fld) (i v : Nat) (h : b.regsWf = true) : (b.set f i v).regsWf = true :=
  RegFile.wf_put b.regs f i v h

theorem Block.regsWf_resetRegs (b : Block) (keep : Fld → Nat → Bool) (h : b.regsWf = true) : (b.resetRegs keep).regsWf = true :=
  RegFile.wf_filter b.regs _ h

theorem Block.regsWf_sendMsix (b : Block) (fn vec : Nat) (h : b.regsWf = true) : (b.sendMsix fn vec).regsWf = true :=
  Block.regsWf_of_regs (Block.sendMsix_regs b fn vec) h

theorem Block.regsWf_raiseLine (b : Block) (c n : Nat) (h : b.regsWf = true) : (b.raiseLine c n).regsWf = true := by
  simp only [Block.raiseLine]
  split <;> exact Block.regsWf_set _ _ _ _ h

theorem Block.regsWf_raiseAll (b : Block) (n : Nat) (h : b.regsWf = true) : (b.raiseAll n).regsWf = true := by
  unfold Block.raiseAll
  exact Block.regsWf_raiseLine _ _ _ (Block.regsWf_raiseLine _ _ _ (Block.regsWf_raiseLine _ _ _ (Block.regsWf_raiseLine _ _ _ h)))

theorem Block.regsWf_evtStore (b : Block) (r : List Byte) (h : b.regsWf = true) : (b.evtStore r).regsWf = true := by
  simp only [Block.evtStore]
  split
  · exact Block.regsWf_set _ _ _ _ (Block.regsWf_set _ _ _ _ h)
  · exact Block.regsWf_set _ _ _ _ h

theorem Block.regsWf_evtClass (b : Block) (c : Nat) (h : b.regsWf = true) : (b.evtClass c).regsWf = true := by
  unfold Block.evtClass
  repeat (first | exact h | exact Block.regsWf_set _ _ _ _ h | split)

theorem Block.regsWf_evtLast (b : Block) (c : Nat) (r : List Byte) (h : b.regsWf = true) : (b.evtLast c r).regsWf = true := by
  unfold Block.evtLast
  split
  · exact Block.regsWf_set _ _ _ _ h
  · exact h

theorem Block.regsWf_evtLine (b : Block) (c : Nat) (h : b.regsWf = true) : (b.evtLine c).regsWf = true := by
  unfold Block.evtLine
  split
  · exact Block.regsWf_raiseAll _ _ h
  · exact h

theorem Block.regsWf_event (b : Block) (blk code : Nat) (data : List Byte) (part : Nat) (h : b.regsWf = true) :
    (b.event blk code data part).regsWf = true := by
  unfold Block.event
  split
  · exact Block.regsWf_set _ _ _ _ h
  · exact Block.regsWf_evtLine _ _ (Block.regsWf_of_regs (Block.evtIrq_regs _ _)
      (Block.regsWf_evtLast _ _ _ (Block.regsWf_evtClass _ _ (Block.regsWf_evtStore _ _ h))))

theorem Block.regsWf_vioStore (b : Block) (r : List Byte) (h : b.regsWf = true) : (b.vioStore r).regsWf = true := by
  simp only [Block.vioStore]
  split
  · exact Block.regsWf_set _ _ _ _ (Block.regsWf_set _ _ _ _ h)
  · exact Block.regsWf_set _ _ _ _ h

theorem Block.regsWf_violate (b : Block) (blk code part source ring action : Nat) (data : List Byte) (h : b.regsWf = true) :
    (b.violate blk code part source ring action data).regsWf = true := by
  have a : ∀ (b : Block) k, b.regsWf = true → (b.vioRing k).regsWf = true := by
    intro b k hb
    unfold Block.vioRing
    split
    · exact Block.regsWf_set _ _ _ _ hb
    · exact hb
  unfold Block.violate
  split
  · exact Block.regsWf_set _ _ _ _ h
  · exact a _ _ (Block.regsWf_of_regs (Block.vioIrq_regs _) (Block.regsWf_set _ _ _ _ (Block.regsWf_vioStore _ _ h)))

theorem Block.memWf_event (b : Block) (blk code : Nat) (data : List Byte) (part : Nat) (h : b.memWf = true) :
    (b.event blk code data part).memWf = true :=
  Block.memWf_of_mem (Block.event_mem b blk code data part) (by rw [Block.event_cfg]) h

theorem Block.memWf_violate (b : Block) (blk code part source ring action : Nat) (data : List Byte) (h : b.memWf = true) :
    (b.violate blk code part source ring action data).memWf = true :=
  Block.memWf_of_mem (Block.violate_mem b blk code part source ring action data) (by rw [Block.violate_cfg]) h

end Sys2Proof.Machine
end

