-- ==== Sys2Proof/Laws/Operations.lean ====
section
/-! SUPPORT. What an operation with memory accesses can do: it runs whole on what it was given, or leaves only what made it stop. -/

namespace Sys2Proof.Machine

/-- A command leaves the waiting commands alone. -/
theorem State.act_pending {s t : State} {f : Block → Block} (h : s.act f = .next t) : t.pending = s.pending := by
  simp only [State.act, State.actAlways, Host.Outcome.next.injEq] at h
  rw [← h]

/-- An operation whose accesses are all served has run whole. -/
theorem Block.attempt_runs {α : Type} (b : Block) (agent : Nat) (f : Block → α × Block) (h : (f (b.began agent)).2.ms.eng.stall = none) :
    b.attempt agent f = (some (f (b.began agent)).1, (f (b.began agent)).2.ended agent) := by
  simp only [Block.attempt, h]

/-- An operation with an access that must wait has done nothing but what made it stop. -/
theorem Block.attempt_held {α : Type} (b : Block) (agent : Nat) (f : Block → α × Block) (x : EngStall)
    (h : (f (b.began agent)).2.ms.eng.stall = some x) : b.attempt agent f = (none, b.engHeld (f (b.began agent)).2 agent x) := by
  simp only [Block.attempt, h]

/-- A command's operation that runs whole runs on what it was given. -/
theorem Block.runOp_runs (b : Block) (agent : Nat) (strikes : List Strike) (replies : List Reply) (f : Block → Block)
    (h : (f (b.given agent strikes replies)).ms.eng.stall = none) :
    b.runOp agent strikes replies f = (f (b.given agent strikes replies)).replied agent := by
  simp only [Block.runOp, Block.withReplies, Block.whole]
  rw [Block.attempt_runs _ _ _ (by exact h)]
  rfl

/-- A command's operation that must wait leaves what made it stop, and no replies. -/
theorem Block.runOp_held (b : Block) (agent : Nat) (strikes : List Strike) (replies : List Reply) (f : Block → Block) (x : EngStall)
    (h : (f (b.given agent strikes replies)).ms.eng.stall = some x) :
    b.runOp agent strikes replies f =
      (b.strike strikes).withReplies replies (fun c => c.engHeld (f (b.given agent strikes replies)) agent x) := by
  simp only [Block.runOp, Block.withReplies, Block.whole]
  rw [Block.attempt_held _ _ _ x (by exact h)]
  rfl

end Sys2Proof.Machine
end

