-- ==== Sys2Proof/Laws/Tabs.lean ====
section
/-! SUPPORT. Keyed lists: what a key holds after a put or a removal, and lists of bits. -/

namespace Sys2Proof.Machine

/-- What a key holds after a put. -/
theorem Tab.find_put {α : Type} (t : Tab α) (j k : Nat) (v : α) : Tab.find (Tab.put t j v) k = if j = k then some v else Tab.find t k := by
  induction t with
  | nil => simp [Tab.put, Tab.find]
  | cons c r ih =>
    obtain ⟨m, w⟩ := c
    unfold Tab.put
    split
    · simp only [Tab.find]
    · split
      · next h => subst h; simp only [Tab.find]; split <;> rfl
      · next h h' =>
        simp only [Tab.find, ih]
        by_cases hm : m = k
        · have : j ≠ k := fun e => h' (e.trans hm.symm)
          simp [hm, this]
        · simp [hm]

@[simp] theorem Tab.find_put_same {α : Type} (t : Tab α) (k : Nat) (v : α) : Tab.find (Tab.put t k v) k = some v := by
  simp [Tab.find_put]

theorem Tab.find_put_other {α : Type} (t : Tab α) (j k : Nat) (v : α) (h : j ≠ k) : Tab.find (Tab.put t j v) k = Tab.find t k := by
  simp [Tab.find_put, h]

@[simp] theorem Tab.get_put_same {α : Type} (t : Tab α) (k : Nat) (v d : α) : Tab.get (Tab.put t k v) k d = v := by
  simp [Tab.get]

theorem Tab.get_put_other {α : Type} (t : Tab α) (j k : Nat) (v d : α) (h : j ≠ k) : Tab.get (Tab.put t j v) k d = Tab.get t k d := by
  simp [Tab.get, Tab.find_put, h]

/-- What a key holds after a removal. -/
theorem Tab.find_del {α : Type} (t : Tab α) (j k : Nat) : Tab.find (Tab.del t j) k = if j = k then none else Tab.find t k := by
  induction t with
  | nil => simp [Tab.del, Tab.find]
  | cons c r ih =>
    obtain ⟨m, w⟩ := c
    by_cases h : m = j
    · have : Tab.del ((m, w) :: r) j = Tab.del r j := by simp [Tab.del, h]
      rw [this, ih, Tab.find, h]
      by_cases e : j = k <;> simp [e]
    · have : Tab.del ((m, w) :: r) j = (m, w) :: Tab.del r j := by simp [Tab.del, h]
      rw [this, Tab.find, Tab.find, ih]
      by_cases e : m = k
      · have : j ≠ k := fun x => h (e.trans x.symm)
        simp [e, this]
      · simp [e]

theorem Tab.get_del {α : Type} (t : Tab α) (j k : Nat) (d : α) : Tab.get (Tab.del t j) k d = if j = k then d else Tab.get t k d := by
  unfold Tab.get; rw [Tab.find_del]; split <;> rfl

/-- A mask of one bit names that bit alone. -/
theorem bitList_two_pow (k n : Nat) (h : k < n) : bitList (2 ^ k) n = [k] := by
  induction n with
  | zero => omega
  | succ n ih =>
    unfold bitList at *
    rw [List.range_succ, List.filter_append]
    by_cases e : k = n
    · subst e
      have : (List.range k).filter (fun i => (2 ^ k).testBit i) = [] := by
        rw [List.filter_eq_nil_iff]
        intro a ha
        have := List.mem_range.mp ha
        simp [Nat.testBit_two_pow]; omega
      simp [Nat.testBit_two_pow]; omega
    · have : k < n := by omega
      rw [ih this]
      simp [Nat.testBit_two_pow, e]

end Sys2Proof.Machine
end

