-- ==== Sys2Proof/Tests/Slice0.lean ====
section
/-! SUPPORT. The model's own tests: operands that no 4400 has are refused, one or two steps of each family, and for each statement
states and operands that meet the hypotheses of its clauses. -/

namespace Sys2Proof.Tests

set_option Elab.async false

open Sys2Proof Sys2Proof.Machine

/-- The package with main power and PERST# high. -/
def upS : State := { State.reset with blk := { Block.reset with pwr := { Power.reset with mainUp := true, perst := true } } }

/-- The package with main power and PERST# low. -/
def lowS : State := { State.reset with blk := { Block.reset with pwr := { Power.reset with mainUp := true } } }

/-- The package after the release edge. -/
def relS : State := { upS with blk := { upS.blk with pwr := { upS.blk.pwr with released := true } } }

/-- A state with an always-on write crossing. -/
def crossS (off size val : Nat) : State :=
  { upS with blk := { upS.blk with pwr := { upS.blk.pwr with crossing := some { who := .pf, off := off, size := size, val := val } } } }

/-- A released package with one register written. -/
def withReg (s : State) (f : Fld) (i v : Nat) : State := { s with blk := s.blk.set f i v }

/-- A released package with its second die in a given condition. -/
def dieS (x : Die) : State := { relS with blk := { relS.blk with dies := [Die.reset, x] } }

/-- A package in a phase of Furled sequencing. -/
def furlS (p : FurlPhase) : State := { relS with blk := { relS.blk with pwr := { relS.blk.pwr with furl := p } } }

/-- A die that has been without work. -/
def a1S : State := withReg (dieS { Die.reset with idleTicks := 70000 }) .PWR_CTRL_A1_EN 0 1

/-- Entering Furled with work on the second die. -/
def busyS : State := withReg (furlS .entering) .TILE_STATE_STATE 31 tBusy

/-- A buffered line in a phase of Furled sequencing. -/
def wcS (p : FurlPhase) : State :=
  let e : WcEntry := { die := 1, pkg := 0, part := 0, line := 7, bytes := [(0, 1)], tiles := [], since := 0, flushing := false, sent := false, waited := false, paid := 0 }
  { furlS p with blk := { (furlS p).blk with ms := { MemSys.reset with wc := [e] } } }

/-- A Furled package with a trained pair that has not been used. -/
def pairS : State :=
  { furlS .furled with blk := ({ (furlS .furled).blk with gmc := 1000000 }).set .TS_CHAN_PRESENT 7 1 }

/-- Both dies have passed their tests. -/
def testedS : State := { relS with blk := { relS.blk with cfg := { Loader.reset with selfTest := 15, tested := true } } }

/-- A package in a phase of its load sequence. -/
def phaseS (p : LoadPhase) : State := { upS with blk := { upS.blk with cfg := { Loader.reset with phase := p } } }

/-- The same with KEY_SRC at the key RAM, which is empty. -/
def keyS (p : LoadPhase) : State := withReg (phaseS p) .CFG_STATUS_KEY_SRC 0 1

/-- A segment coming in on the chain. -/
def chainS (p : LoadPhase) (l : List Byte) (n : Option Nat) : State :=
  let c : Loader := { Loader.reset with phase := p, chainIn := l, chainLen := n }
  { phaseS p with blk := ({ (phaseS p).blk with cfg := c }).set .CFG_STATUS_CFG_SRC 0 2 }

/-- The chain armed for a stream. -/
def armS : State := { upS with blk := { upS.blk with cfg := { Loader.reset with phase := .attempt 0, chainArmed := true } } }

/-- A chain input silent for a second. -/
def silentS : State :=
  let b := (chainS (.attempt 2) [] none).blk
  { upS with blk := { b with pwr := { upS.blk.pwr with now := 1000000000 }, cfg := { b.cfg with chainArmed := true } } }

/-- A small image: header and table of R127 and R128 with one ENTRIES section of zeros, under a key of zeros. -/
def imgAad : List Byte :=
  padTo 256 (leBytes 4 0x52415550 ++ leBytes 2 1 ++ leBytes 2 1 ++ leBytes 8 0x190 ++ leBytes 4 0x4400 ++ leBytes 4 1 ++ [1]) ++
    [3] ++ zeros 7 ++ leBytes 8 0x140 ++ leBytes 8 32 ++ zeros 40

def img : List Byte := imgAad ++ zeros 64 ++ gcmTag (zeros 32) (zeros 12) imgAad (zeros 64)

/-- The image read whole. -/
def imgS (p : LoadPhase) : State := { upS with blk := { upS.blk with cfg := { Loader.reset with phase := p, image := img } } }

/-- A section bound for tier F after its stacks have trained. -/
def landS : State :=
  let x : Section := { type := 6, ignorable := false, offset := 0, length := 16, dest := 0 }
  { upS with blk := { upS.blk with cfg := { Loader.reset with phase := .tagged 0, selfTest := 15, toLand := [x] } } }

/-- Slot 0 is valid. -/
def validS (p : LoadPhase) : State := { phaseS p with blk := (phaseS p).blk.sealSlot 0 0 |>.sealSlot 1 0 }

/-- The host withholds all posted credits. -/
def creditS : State := { upS with blk := { upS.blk with link := { HostLink.reset with credits := some 0 } } }

/-- Everything the release edge waits for. -/
def readyS : State :=
  let c : Loader := { Loader.reset with phase := .tagged 0, tested := true, selfTest := 15, tsTrained := true, step12 := true }
  { upS with blk := { upS.blk with cfg := c } }

/-- A value to set below the loaded version. -/
def arbS : State := withReg (withReg relS .ARB_SET_VALUE 0 5) .LOADED_VERSION_VERSION 0 5

/-- The host link is up. -/
def hostS : State := withReg relS .HOST_LINK_RATE 0 6

/-- A slot operation about to end. -/
def opS : State :=
  { relS with blk := { relS.blk with cfg := { Loader.reset with slotOp := some { op := 3, slot := 1, result := 255, len := 0, done := 0, reading := false } } } }

/-- A slot session that has been silent. -/
def sessS : State :=
  let c : Loader := { Loader.reset with session := some { slot := 1, length := 4, next := 0, since := 0 } }
  { relS with blk := { relS.blk with cfg := c, pwr := { relS.blk.pwr with now := 60000000000 } } }

/-- The scrubber on a loaded bitstream. -/
def scrubS : State := withReg { relS with blk := { relS.blk with cfg := { Loader.reset with bitstream := true } } } .SCRUB_CTRL_EN 0 1

/-- The PF in D3hot. -/
def d3S : State := { relS with blk := { relS.blk with link := { HostLink.reset with d3 := 1 } } }

/-- Eight VFs are enabled. -/
def vfS : State := { relS with blk := { relS.blk with link := { HostLink.reset with vfEnable := true, numVfs := 8 } } }

/-- Core 3's last post ring ready to be enabled, and its completion ring ACTIVE. -/
def ringS : State :=
  withReg (withReg (withReg (withReg relS .POST_CFG_LOG2_SIZE 15 4) .PART_GRANT_OWNER 0 2) .CORE_CQ_STATUS_STATE 3 1) .CORE_CQ_CFG_LOG2_SIZE 3 4

/-- The same ring ACTIVE. -/
def postS : State := withReg ringS .POST_STATUS_STATE 15 1

/-- The completion ring with one record not yet taken. -/
def headS : State := withReg ringS .CORE_CQ_TAIL_WORD 3 1

/-- The last partition polls its last doorbell line. -/
def pollS : State := withReg (withReg hostS .DB_CTRL_EN 7 1) .CQ_STATUS_STATE 255 1

/-- One host read outstanding. -/
def readS (w : HostRead) : State :=
  { hostS with blk := { hostS.blk with link := { HostLink.reset with reads := [{ which := w, fn := 0, addr := 0, len := 64, cxl := false, sunk := false, id := 0 }] } } }

/-- The last host completion ring with a record not yet signalled. -/
def irqS : State :=
  let b := (withReg (withReg hostS .IRQ_CQ_TIME 255 1) .IRQ_CQ_IRQ_EN 255 1).blk
  { relS with blk := { b with gmc := 2000000, cqs := [(255, { CqAux.reset with p := 1 })],
                              link := { HostLink.reset with msixOn := 1, unmasked := [(0, 0)] } } }

/-- A submission ring's own record. -/
def sqS (x : SqAux) : State := { relS with blk := { relS.blk with sqs := [(256, x)] } }

/-- One descriptor accepted and not yet fetched on an ACTIVE post ring. -/
def fetchS : State := { postS with blk := { postS.blk with sqs := [(271, { SqAux.reset with lastWord := 1 })] } }

/-- A fetched NOP. -/
def fetched0 : Fetched := { seq := 0, index := 0, arrival := 0, cond := 0, bytes := zeros 64 }

/-- The NOP at the head of core 0's first post ring, with room in the Hopper. -/
def admS : State := withReg (sqS { SqAux.reset with queue := [fetched0] }) .PART_HOP_JOB_QUOTA 0 1

/-- A host access waiting for its translation. -/
def heldAccS (w : HostAccess) : State :=
  let h : HeldAccess := { which := w, fn := 0, addr := 5 * 4096, len := 64, bytes := [], bad := none }
  { hostS with blk := { hostS.blk with link := { HostLink.reset with waits := [h] } } }

def heldS : State := heldAccS (.read .slot)
def heldWS : State := heldAccS (.dataWrite 9)

/-- A completion record waiting for its translation. -/
def recS : State :=
  let r : Rec := { sq := .host 0 0, tag := 0, status := 0, cause := 0, regulated := false, mark := none, outMark := none, index := 0,
                   gmcDone := 0, waited := 0, result := 0, irq := false }
  { hostS with blk := { hostS.blk with link := { HostLink.reset with held := [HeldRec.mk (.host 0 0) r 0 true] } } }

/-- A descriptor of 64 bytes: its first 32, and its ARGS. -/
def desc (hd args : List Byte) : List Byte := padTo 32 hd ++ padTo 32 args

/-- A job of partition 0. -/
def job0 : Job :=
  { id := 4, part := 0, sq := .post 0 0, seq := 0, index := 0, desc := zeros 64, arrival := 0, cond := 0, accepted := 0,
    phase := .admitted, tasks := 0, next := 0, running := [], worst := none, stopped := false, started := none, regulated := false,
    degraded := 0, weights := 0, tally := false, progMark := [], inMark := none, outs := [], outcome := none, killed := false, epoch := none }

/-- A package with that job. -/
def jobS (j : Job) : State := { relS with blk := { relS.blk with hop := { Hopper.reset with jobs := [j] } } }

/-- Every tile enabled, group 0 granted to partition 0 and tile 0 FREE. -/
def poolS (s : State) : State :=
  withReg (withReg (withReg s .TILE_PRESENT_MASK 0 0xFFFFFFFF) .PART_GRANT_GROUPS 0 1) .TILE_STATE_STATE 0 tFree

/-- A LAUNCH of two tasks. -/
def jobL : Job := { job0 with desc := desc [0x10] (zeros 16 ++ [2]) }
def launchS : State := poolS (jobS jobL)

/-- A LAUNCH_AT of one task at count 2^40. -/
def jobA (p : JobPhase) : Job := { job0 with desc := desc [0x11] (zeros 16 ++ [1] ++ zeros 12 ++ [1]), phase := p }
def launchAtS (p : JobPhase) : State := poolS (jobS (jobA p))

/-- The same at its count. -/
def atNowS : State :=
  let s := jobS { jobA (.ready 3 0) with tasks := 1 }
  { s with blk := { s.blk with gmc := 2 ^ 40 } }

/-- A NOP whose DEADLINE has passed. -/
def descD : List Byte := desc (zeros 8 ++ [7]) []
def deadS : State :=
  let s := jobS { job0 with desc := descD }
  { s with blk := { s.blk with gmc := 7 } }

/-- A job that has waited in a ready list. -/
def ageS : State :=
  let s := withReg (jobS { job0 with phase := .ready 2 0 }) .HOP_PCTRL_AGE 0 1
  { s with blk := { s.blk with gmc := 65536 } }

/-- A LAUNCH in a ready list, and the same in a Furled package. -/
def readyJob : Job := { jobL with tasks := 2, phase := .ready 0 0 }
def dispS : State := poolS (jobS readyJob)
/-- Two such LAUNCHes and no tile that is FREE. -/
def noTileS : State :=
  { dispS with blk := { (dispS.blk.set .TILE_STATE_STATE 0 tBusy) with hop := { Hopper.reset with jobs := [readyJob, { readyJob with id := 5 }] } } }
def furlJobS : State := { dispS with blk := { dispS.blk with pwr := { dispS.blk.pwr with furl := .furled } } }

/-- A task on the last tile, with bytes in the write-combining buffer. -/
def bufS : State :=
  let e : WcEntry := { die := 1, pkg := 0, part := 0, line := 7, bytes := [(0, 1)], tiles := [31], since := 0, flushing := false, sent := false, waited := false, paid := 0 }
  { relS with blk := { relS.blk with tiles := [(31, { Tile.reset with task := some (4, 0) })], ms := { MemSys.reset with wc := [e] } } }

/-- A finished record at the head of its flow. -/
def flowS : State :=
  let r : Rec := { sq := .post 0 0, tag := 0, status := 0, cause := 0, regulated := false, mark := none, outMark := none, index := 0,
                   gmcDone := 0, waited := 0, result := 0, irq := false }
  let e : TrEntry := { part := 0, flow := 1, job := 4, seq := 0, record := some r }
  { relS with blk := { relS.blk with hop := { Hopper.reset with tailrace := [e] } } }

/-- A task of context 5 on the last tile, and a pawl of its partition. -/
def pawlS (x : Pawl) : State :=
  let j : Job := { job0 with desc := desc [0x10] (zeros 16 ++ [1] ++ zeros 5 ++ [5]) }
  let h : Hopper := { Hopper.reset with jobs := [j], pawls := [(15, x)] }
  withReg { relS with blk := { relS.blk with hop := h, tiles := [(31, { Tile.reset with task := some (4, 0) })] } } .PART_HOP_PAWL_COUNT 0 16

/-- A pawl held by context 6. -/
def held6 : Pawl := { Pawl.reset with owner := some 6 }

/-- An ACQUIRE of pawl 3 by context 5, and a RELEASE of it. -/
def descP : List Byte := desc [0x12] [3, 0, 1, 5]
def descR : List Byte := desc [0x12] [3, 0, 3, 5]
def pawlJobS : State := withReg (jobS { job0 with desc := descP }) .PART_HOP_PAWL_COUNT 0 16

/-- A descriptor of core 0's first post ring held by replay, whose count has come. -/
def replayS : State :=
  let s := poolS (sqS { SqAux.reset with queue := [fetched0] })
  let s := withReg (withReg (withReg s .TALLY_CTRL_MODE 0 2) .REPLAY_BASE_ADDR 0 (0x30000000000 / 64)) .REPLAY_SIZE_SIZE 0 1
  { s with blk := { s.blk with mem := [(0x30000000010, 1), (0x30000000011, 0x0A), (0x30000000012, 0x80)] } }

/-- The last tile runs a task of partition 0, which holds tile 0's memory. -/
def accS : State := let s := poolS (pawlS Pawl.reset); s

/-- A job of an engine's opcode, ready. -/
def engJob (op : Byte) (args : List Byte) : Job := { job0 with desc := desc [op] args, phase := .ready 0 0 }

/-- Two runs of partition 0. -/
def run0 : Run := { punit := 3, count := 3, tier := 0, ways := 1, first := 0, idx := 0, prefF := false }
def run1 (n : Nat) : Run := { punit := 8, count := n, tier := 0, ways := 1, first := 1, idx := 0, prefF := false }
def runsS (n : Nat) : State :=
  { relS with blk := { relS.blk with ms := { MemSys.reset with runs := [(0, [run0, run1 n])] } } }

/-- A translation fill under way. -/
def fill0 : Fill := { die := 1, pkg := 0, part := 0, unit := 3, found := some run0, stale := false }
def fillS : State := { relS with blk := { relS.blk with ms := { MemSys.reset with fills := [fill0] } } }

/-- A line being flushed. -/
def flushS : State :=
  let e : WcEntry := { die := 1, pkg := 0, part := 0, line := 7, bytes := [(0, 1)], tiles := [], since := 0, flushing := true, sent := false, waited := false, paid := 0 }
  { relS with blk := { relS.blk with ms := { MemSys.reset with wc := [e] } } }

/-- A row of stack 1 that has met an uncorrectable error. -/
def rowS : State :=
  { relS with blk := { relS.blk with ms := { MemSys.reset with rows := [(1, [(0, { ce := 0, owed := true })])] } } }

/-- Tasks on the last two tiles. -/
def twoTasksS : State :=
  { accS with blk := { accS.blk with tiles := [(30, { Tile.reset with task := some (4, 0) }), (31, { Tile.reset with task := some (4, 1) })] } }

/-- A PLACE of one unit that its partition's quota of tier F covers. -/
def placeS : State :=
  let s := jobS (engJob 0x22 (zeros 8 ++ [1, 0, 0, 0, 1]))
  { s with blk := { s.blk with ms := { s.blk.ms with quotas := [(0, (4, 0))] } } }

/-- Every tile enabled. -/
def allS : State := withReg relS .TILE_PRESENT_MASK 0 0xFFFFFFFF

/-- One Mbary port in a training state and mode, as it stands. -/
def portX (n st mode : Nat) (x : Port) : State :=
  let b := (relS.blk.set .PORT_STATUS_STATE n st).set .PORT_CFG_MODE n mode
  { relS with blk := b.setPort n x }
def portS (n st mode : Nat) : State := portX n st mode Port.reset

/-- The body of a partner's TS flit. -/
def tsBytes (port mode flags : Nat) : List Byte :=
  leBytes 4 0x5952424D ++ [1, byteOf port, byteOf mode, byteOf flags] ++ zeros 6 ++ leBytes 2 512 ++ creditsInit.map byteOf ++ zeros 9 ++ zeros 8

/-- Port 7 in CONFIG has seen its partner's TS flit seven times. -/
def confS : State := portX 7 pConfig mdHost { Port.reset with ts := tsIdentity (tsBytes 7 mdHost 1), tsSame := 7 }

/-- A flit without an acknowledgement that a partner sent: its FTYPE and its SEQ word. -/
def goodFlit (ftype seq : Nat) : List Byte :=
  let l := [byteOf ftype, 0] ++ leBytes 2 seq ++ zeros 248
  l ++ leBytes 4 (crc32 l)

/-- A flit kept for retry. -/
def rf0 : RFlit := { seq := 5, mark := 48, pool := 0, body := [] }

/-- Messages of another package: a read, a write, a masked write, a translation request, one for another package, and a response. -/
def rdM : Msg := { Msg.empty with src := 1, addr := 0x300000000E0, len := 32 }
def wrM : Msg := { Msg.empty with src := 1, addr := 0x30000000000, len := 256, data := zeros 256 }
def wmM : Msg := { Msg.empty with src := 1, addr := 0x30000000080, len := 144, data := zeros 144 }
def xlM : Msg := { Msg.empty with src := 1, addr := unitBytes }
def farM : Msg := { Msg.empty with src := 1, dest := 3 }
def rpM : Msg := { Msg.empty with src := 1, rtag := 9 }

/-- A ring of sixteen packages on the X axis, port 1 in TORUS mode. -/
def ringTopS : State := withReg (portS 1 pActive mdTorus) .FAB_TOPO_DX 0 15

/-- A request of this package outstanding, of the type that a response of type `ty` answers. -/
def outR (ty : Nat) : OutReq :=
  { OutReq.new 0 with tag := 9, ty := if ty = 0x11 then 1 else if ty = 0x12 then 2 else 5, dest := 1, sentAt := 0 }
def outS (ty : Nat) : State := { relS with blk := { relS.blk with fab := { Fabric.reset with reqs := [outR ty] } } }
def oldS : State := { outS 0x11 with blk := { (outS 0x11).blk with gmc := 2 ^ 60 } }

/-- A request of this package has timed out. -/
def lateS : State := { relS with blk := { relS.blk with fab := { Fabric.reset with late := [9] } } }

/-- A cluster of two packages. -/
def bigS : State := withReg relS .FAB_TOPO_DX 0 1

/-- A flood of package 1 with a value in AUX. -/
def flM (aux : Nat) : Msg := { Msg.empty with src := 1, addr := 1 + 7 * 2 ^ 16, aux := aux }

/-- Both packages in an enabled group. -/
def grpS : State := withReg (withReg bigS .GRP_CFG_EN 63 1) .GRP_MEMBERS_BITMAP 63 3

/-- Hold entries, and two that are old at an epoch boundary. -/
def holdsS (l : List HoldEntry) : State := { relS with blk := { relS.blk with fab := { Fabric.reset with holds := l } } }
def twoHolds : State :=
  let s := holdsS [{ origin := 1, hold := 0, resume := none, at_ := 0 }, { origin := 2, hold := 0, resume := none, at_ := 0 }]
  { s with blk := { s.blk with gmc := 2 ^ 30 } }

/-- A COLLECTIVE of one kind in group 63 with four elements, and the package alone in that group. -/
def collJob (kind : Byte) : Job := engJob 0x60 (zeros 16 ++ [if kind = 5 then 0 else 4] ++ zeros 3 ++ [63, 0, kind])
def collS (kind : Byte) : State := withReg (withReg (jobS (collJob kind)) .GRP_CFG_EN 63 1) .GRP_MEMBERS_BITMAP 63 1

/-- An abort of a BARRIER's SEQ that came before it was submitted. -/
def abortS : State :=
  let b := (collS 5).blk
  { relS with blk := { b with fab := { b.fab with aborts := [(63, 0, 0x93)] } } }

/-- A BARRIER of group 63 under way, a chunk of it not yet acknowledged by package 1. -/
def coll0 : CollOp :=
  { group := 63, job := 4, seq := 0, chunk := 0, down := 0, got := 0, acc := [], child := 0, unacked := [(1, [0])], toSend := [], since := 0 }
def runCollS : State :=
  let b := grpS.blk
  { relS with blk := { b with fab := { b.fab with colls := [coll0] }, hop := { Hopper.reset with jobs := [collJob 5] } } }
def lateCollS : State := { runCollS with blk := { runCollS.blk with gmc := 2 ^ 60 } }

/-- A BARRIER in a group whose other member has no route. -/
def farS : State :=
  let s := withReg (collS 5) .GRP_MEMBERS_BITMAP 63 3
  withReg (withReg s .FAB_TOPO_DX 0 1) .LINK_DOWN_ACTIVE_BITMAP 0 (2 ^ 3072 - 1)

/-- Collective messages of group 63 from package 1. -/
def cuM : Msg := { Msg.empty with src := 1, addr := 63, len := 1, data := zeros 5 }
def cdM : Msg := { Msg.empty with src := 1, addr := 63, len := 1, data := zeros 1 }
def caM : Msg := { Msg.empty with src := 1, addr := 63 }

/-- A package of two whose other one is the root, reached by port 1; its SYNC numbered 0 left at count 0. -/
def leafS : State :=
  let s := withReg (withReg (withReg (portS 1 pActive mdTorus) .FAB_TOPO_DX 0 1) .GMC_CFG_REF_PKG 0 1) .GMC_STATUS_PARENT 0 1
  { s with blk := { s.blk with gs := { GmcSync.reset with kept := [(1, [(0, 0)])] } } }

/-- The other package's SYNC that echoes it. -/
def syM : Msg := { Msg.empty with src := 1, rtag := 2 ^ 24 + 2 ^ 25 }

/-- Memory that lists some bytes. -/
def memB (l : List (Nat × List Byte)) : Mem := l.foldl (fun m e => Mem.write 0 m e.1 e.2) []

/-- An epoch's header at the start of partition 0's unit 3, in a state of R699, its pools empty. -/
def hdrW (state : Byte) : List Byte :=
  [0x57, 0x52, 0x4C, 0x44, 1, 0, 0, 0] ++ leBytes 4 2000 ++ zeros 36 ++ leBytes 8 (3 * unitBytes + 0x1000) ++
    leBytes 8 (3 * unitBytes + 0x10000) ++ zeros 16 ++ leBytes 4 16 ++ leBytes 4 16 ++ zeros 8 ++ [state]

/-- A WORLD_UPDATE of it without records, and a package that holds it with three units placed in tier F. -/
def wuJob (op : Byte) : Job := engJob 0x30 (leBytes 8 (3 * unitBytes) ++ zeros 16 ++ [op])
def worldS (state op : Byte) : State :=
  let b := (jobS (wuJob op)).blk
  { relS with blk := { b with mem := memB [(0, hdrW state)], ms := { MemSys.reset with runs := [(0, [run0])] } } }
/-- A SWAP that waits for the epoch before it. -/
def swapS : State :=
  let s := worldS 2 3
  { s with blk := { s.blk with hop := { Hopper.reset with jobs := [{ wuJob 3 with phase := .running }] } } }

/-- A solve block of one equation in tile memory, and a SOLVE of it. -/
def solBlk (m : Byte) : List Byte :=
  let at_ (o : Nat) : List Byte := leBytes 8 (0x30000000000 + o)
  leBytes 4 1 ++ [if m = 5 ∨ m = 6 then 1 else 0, 0, if m = 4 then 1 else 0, 0] ++ (if m = 5 ∨ m = 6 then at_ 0x1000 else zeros 8) ++ leBytes 8 8 ++
    (if m = 5 ∨ m = 6 then at_ 0x1100 else zeros 8) ++ leBytes 8 8 ++ at_ 0x400 ++ zeros 16 ++
    (if m = 4 then at_ 0x1000 ++ zeros 16 ++ at_ 0x3000 ++ zeros 32
     else if m = 5 then at_ 0x1200 ++ at_ 0x1300 ++ at_ 0x1400 ++ leBytes 4 1 ++ leBytes 4 1 ++ zeros 24 ++ at_ 0x2000
     else (if m = 6 then zeros 8 else at_ 0x1000) ++ leBytes 8 8 ++ at_ 0x2000 ++ leBytes 8 8 ++ (if m = 3 then at_ 0x3000 else zeros 8) ++ zeros 24)
def solJob (m : Byte) : Job := engJob 0x50 (leBytes 8 0x30000000000 ++ [m])
def solS (m : Byte) : State :=
  let s := poolS (jobS (solJob m))
  { s with blk := { s.blk with mem := memB [(0x30000000000, solBlk m)] } }

/-- A robot of one revolute joint and one sphere. -/
def robB : List Byte :=
  let one : List Byte := leBytes 4 0x3F800000
  [0x52, 0x4F, 0x42, 0x54, 1, 1, 0, 0] ++ zeros 12 ++ one ++ zeros 40 ++ ([1] ++ zeros 15 ++ one ++ zeros 20 ++ one ++ zeros 20) ++
    ([0, 1] ++ zeros 14 ++ one ++ zeros 12)

/-- A trajectory of two knots, a check block and a plan block in tile memory. -/
def trjB : List Byte := zeros 8 ++ [1, 2] ++ zeros 6 ++ zeros 16 ++ leBytes 4 1000 ++ zeros 12
def chkB : List Byte :=
  leBytes 8 0x30000000200 ++ leBytes 8 0x30000000400 ++ leBytes 4 64 ++ zeros 4 ++ leBytes 8 0x30000000800 ++ zeros 16 ++
    leBytes 8 0x30000000900 ++ zeros 12 ++ [2]
def plnB : List Byte :=
  leBytes 8 0x30000000200 ++ leBytes 8 0x30000000400 ++ leBytes 8 0x30000000500 ++ leBytes 8 0x30000000900 ++ leBytes 8 (6 * unitBytes - 128) ++
    leBytes 8 8192 ++ zeros 20 ++ leBytes 4 1 ++ leBytes 8 0x3FF0000000000000 ++ zeros 8 ++ leBytes 8 0x3FF0000000000000

/-- A CHECK of one candidate, or a PLAN, in world 0, whose current epoch lies at the start of unit 3; its DEADLINE is 1. -/
def motS (op : Byte) (args blk : List Byte) : State :=
  let s := withReg (poolS (jobS { engJob op [] with desc := desc ([op] ++ zeros 7 ++ [1]) (leBytes 8 0x30000000000 ++ args) })) .WORLD_CUR_HEADER 0 (3 * unitBytes)
  { s with blk := { s.blk with ms := { MemSys.reset with runs := [(0, [run0])] },
                               mem := memB [(0, hdrW 2), (0x30000000000, blk), (0x30000000200, robB), (0x30000000400, trjB)] } }
def chkS : State := motS 0x31 [1] chkB
def plnS : State := motS 0x32 [] plnB

/-- A SELECT of one row of one key, its block in tile memory. -/
def selS : State :=
  let at_ (o : Nat) : List Byte := leBytes 8 (0x30000000000 + o)
  let s := poolS (jobS (engJob 0x40 (at_ 0 ++ leBytes 4 1 ++ leBytes 4 1 ++ [1])))
  { s with blk := { s.blk with mem := memB [(0x30000000000, at_ 0x200 ++ leBytes 8 64 ++ leBytes 8 1 ++ zeros 8 ++ at_ 0x300 ++ at_ 0x340 ++ zeros 8 ++ at_ 0x380)] } }

/-- A NOP with MARK whose fence is met, and one whose Mark is due. -/
def mkJob : Job := { job0 with desc := desc [0, 1] [], tally := true }
def mkS : State := jobS mkJob
def outJob : Job := { job0 with phase := .marking, inMark := some (zeros 32), outcome := some (0, 0, 0) }
def outMkJob : Job := { outJob with desc := desc [0, 3] [] }

/-- The same with an output region that is not mapped. -/
def outBadJob : Job := { outMkJob with desc := desc [0x10, 3] [], outs := [(0x3FFFFFFFFFFC0, 64)] }

/-- The last tile runs a task. -/
def regTileS : State := pawlS Pawl.reset

/-- A FRAME record whose count has come in partition 0's replay. -/
def frameRecS : State :=
  let s := withReg (withReg (withReg (poolS relS) .TALLY_CTRL_MODE 0 2) .REPLAY_BASE_ADDR 0 (0x30000000000 / 64)) .REPLAY_SIZE_SIZE 0 1
  { s with blk := { s.blk with mem := [(0x30000000010, 2), (0x30000000011, 0x20)] } }

/-- The mark store with every entry used. -/
def usedNvm (n : Nat) : Mem := (List.range n).map fun i => (msBase + 64 * i, 0)
def fullS (n : Nat) : State := { relS with blk := { relS.blk with cfg := { Loader.reset with nvm := usedNvm n } } }

theorem used_entries (n i : Nat) (h : i < n) : (fullS n).blk.msUsedAt i = true := by
  have hm : (msBase + 64 * i, (0 : Byte)) ∈ usedNvm n := List.mem_map.2 ⟨i, List.mem_range.2 h, rfl⟩
  refine List.any_eq_true.2 ⟨_, hm, ?_⟩
  simp only [decide_eq_true_eq]
  omega

/-- The hypothesis of MARK_STORE_PIN's refusal in Obligations.MarksAndMarkStore is met. -/
theorem test_meets_mark_store_full : ∀ i < msSlots, (fullS msSlots).blk.msUsedAt i = true := fun i h => used_entries msSlots i h

/-- The same SWAP, the epoch before it also placed. -/
def swap2S : State :=
  { swapS with blk := { swapS.blk with mem := memB [(0, ((hdrW 2).take 40) ++ leBytes 8 (3 * unitBytes + 0x20000) ++ (hdrW 2).drop 48)] } }

/-- The same while a CHECK holds the epoch before it. -/
def swap3S : State :=
  let k : Job := { engJob 0x31 [] with id := 9, epoch := some (3 * unitBytes + 0x20000) }
  { swap2S with blk := { swap2S.blk with hop := { swap2S.blk.hop with jobs := swap2S.blk.hop.jobs ++ [k] } } }

/-- Partition 0 is service-owned and has tile memory. -/
def ownS : State := withReg (poolS relS) .PART_GRANT_OWNER 0 2

/-- User logic is loaded. -/
def userS : State := { relS with blk := { relS.blk with cfg := { Loader.reset with bitstream := true } } }

/-- Ethernet port 3 enabled, and its link up. -/
def liveS : State := withReg relS .ETH_CFG_ENABLE 3 1
def upEthS : State := withReg liveS .ETH_STATUS_LINK 3 1

/-- A service frame of partition 7 or 0 in IPv4 and UDP, with its type, number of fragments and payload. -/
def svcN (part ty parts : Nat) (body : List Byte) : List Byte :=
  zeros 12 ++ [8, 0] ++ ([0x45] ++ zeros 8 ++ [17] ++ zeros 10) ++ (zeros 2 ++ beBytes 2 (upEthS.blk.get .SVC_UDP_PORT) ++ beBytes 2 (40 + body.length) ++ zeros 2) ++
    svcBytes ty part 0 0 0 parts 0 body
def svcF (ty : Nat) (body : List Byte) : List Byte := svcN 0 ty 1 body

/-- The mailbox of partition 7 holds a frame that came at port 3; and the same with a SEQ that is not newer. -/
def mailN (ty parts : Nat) (body : List Byte) : State :=
  let f := svcN 7 ty parts body
  let s := withReg (withReg (withReg (withReg upEthS .PART_GRANT_OWNER 7 2) .SVCQ_CFG_ENABLE 7 1) .SVCQ_TAIL_INDEX 7 1) .SVCQ_BUF_ADDR 7 64
  let at_ (a : Nat) : Nat := (hubLocal 0 a).getD 0
  { s with blk := { s.blk with mem := memB [(at_ 0, zeros 16 ++ leBytes 2 f.length ++ [0, 0, 3]), (at_ 4096, f)] } }
def mailS (ty : Nat) (body : List Byte) : State := mailN ty 1 body
def staleS (ty : Nat) (body : List Byte) : State :=
  let s := mailS ty body
  { s with blk := { s.blk with svc := { s.blk.svc with seqs := [{ part := 7, src := zeros 4, stream := 0, seq := 0 }] } } }

/-- A sweep of some fragments of which the one in the mailbox has come before. -/
def runSweepS (parts : Nat) : State :=
  let s := mailN 1 parts (zeros 48)
  let x : Sweep := { part := 7, src := zeros 4, stream := 0, seq := 0, parts := parts, got := [0], since := 0, port := 3, frame := svcN 7 1 parts (zeros 48) }
  { s with blk := { s.blk with svc := { s.blk.svc with sweeps := [x] } } }

/-- A frame of 60 bytes waits in port 3's transmit queue; and an entry whose length no frame has. -/
def tx0S : State := withReg (withReg upEthS .TXQ_CFG_ENABLE 3 1) .TXQ_TAIL_INDEX 3 1
def txS : State := { tx0S with blk := { tx0S.blk with mem := memB [((hubLocal 0 0).getD 0, leBytes 4 4096 ++ leBytes 2 60)] } }

/-- MCTP messages come by PCIe VDM: before the release edge, halted, with WRITE_REG disabled, and during a slot session. -/
def mgS : State := withReg hostS .GLOBAL_CTRL_VDM_EN 0 1
def mgLowS : State := withReg (withReg (phaseS (.attempt 0)) .HOST_LINK_RATE 0 6) .GLOBAL_CTRL_VDM_EN 0 1
def mgHaltS : State := withReg (phaseS .halted) .GLOBAL_CTRL_SMBUS_EN 0 1
def mgWrS : State := withReg mgS .GLOBAL_CTRL_MCTP_WR_EN 0 0
def mgSessS (n : Nat) : State :=
  { mgS with blk := { mgS.blk with cfg := { Loader.reset with session := some { slot := 1, length := 4, next := n, since := 0 } } } }

/-- The SPDM responder on the I2C port in a connection state. -/
def spdmS (n : Nat) : State :=
  let s := withReg relS .GLOBAL_CTRL_SMBUS_EN 0 1
  { s with blk := { s.blk with mgmt := { s.blk.mgmt with spdm := [(1, n)] } } }

/-- All but the last byte of a packet has come in by MCTP_PIPE. -/
def pipeS : State := { upS with blk := { upS.blk with mgmt := { upS.blk.mgmt with tapPart := [0x40, 0x0F, 0] } } }

/-- Answers of the services that fit. -/
def okPlan : PlanAnswer := ⟨0, [], 0, 0, 0, 0, 0, 0, zeros 32, 0, 0⟩
def okSoh : SohAnswer := ⟨0, 0, 0, 0, 0, zeros 32, 0, 0⟩

/-- Each check of Instr.wf refuses a command with one operand that it does not admit. -/
theorem test_wf_refuses_a : ([
      .railDroop 7 0 0, .perstDeassert 4 0 0, .perstDeassert 0 2 0, .perstDeassert 0 0 2, .aonWrite (.vf 9) 0 0 0, .aonWrite .pf (2 ^ 24) 0 0,
      .aonWrite .pf 0 0 1, .aonStatusWrite (.vf 9) 0 0, .aonStatusWrite .pf (2 ^ 32) 0, .aonStatusWrite .pf 0 16, .pkgReset (2 ^ 32),
      .partReset (2 ^ 8), .partitionResetDone 8, .svcPartReset 4 0, .svcPartReset 0 (2 ^ 8), .dieReset 4, .dieFault 2, .dieRecoveryDone 2 [],
      .dieRecoveryDone 0 [(32, 0)], .mbaryPortReset (2 ^ 8), .ethPortReset (2 ^ 4), .a1Entry 2, .furlExitDone [(32, 0)], .tierSPairIdle 4,
      .coreClkGo 2 0, .coreClkGo 0 64, .pllRelock 2, .clockLostLock 26, .dieSelfTestDone 16,
      .tierSTrainingDone (List.replicate 8 ⟨0, false, 32, 0, 0, false, true⟩) (List.replicate 8 0), .tierSTrainingDone [] (List.replicate 8 0),
      .tierSTrainingDone (List.replicate 8 ⟨0, false, 0, 0, 0, false, true⟩) [],
      .tierSTrainingDone (List.replicate 8 ⟨0, false, 0, 0, 0, false, true⟩) (List.replicate 8 4), .slotProgram 2 [], .slotCtrlErase 2,
      .slotCtrlVerify 2, .scrubPass [⟨0, 0, [72]⟩], .registerWrite (.vf 9) 0 0 0 0 0 [], .registerWrite .pf (2 ^ 24) 0 0 0 0 [],
      .registerWrite .pf 0 0 1 0 0 []] : List Instr).all (fun c => !c.wf) = true := by
  decide +kernel

/-- Each check of Instr.wf refuses a command with one operand that it does not admit. -/
theorem test_wf_refuses_b : ([
      .registerWrite .pf 0 0 0 0 0 [⟨.pf, 0, 0, 1, 0, 0⟩], .splitReadLow (.vf 9) 0, .splitReadLow .pf (2 ^ 24), .gmcCountSplitRead (.vf 9),
      .partGrant (.vf 9) 0 0, .partGrant .pf 8 0, .partGrant .pf 0 (2 ^ 32), .vfFlr 0, .vfFlr 9, .d3hotEntry 9, .atsInvalidate 9 0 0, .snpData 8 0,
      .snpData 0 8, .snpCur 8 0, .snpCur 0 8, .snpInv 8 0, .snpInv 0 8, .doorbellPoll 8, .doorbellLineReturn 8 0 none, .doorbellLineReturn 0 8 none,
      .hostReadCompletion (.line 8 0) false [], .hostReadTimeout (.line 8 0), .descriptorFetch (.host 8 0), .descriptorFetchReturn (.host 8 0) none,
      .handOver (.host 8 0) [], .handOver (.host 0 0) [.host 8 0], .sqEnable (.host 8 0) 0, .sqEnable (.host 0 0) (2 ^ 64), .sqDisable (.host 8 0),
      .cqEnable (.core 4) 0, .cqEnable (.core 0) (2 ^ 64), .cqDisable (.core 4), .irqTimeExpiry 8 0, .irqTimeExpiry 0 32, .launch 0 [⟨1, []⟩] [],
      .launch 0 [] [⟨256, 0, 0, []⟩], .launchAt 0 [⟨1, []⟩] [], .launchAt 0 [] [⟨256, 0, 0, []⟩], .acquire (.task 32) 0 0 [],
      .acquire (.job 0) 4096 0 []] : List Instr).all (fun c => !c.wf) = true := by
  decide +kernel

/-- Each check of Instr.wf refuses a command with one operand that it does not admit. -/
theorem test_wf_refuses_c : ([
      .acquire (.job 0) 0 0 [.lease 4096], .pawlTry (.task 32) 0 0 [], .pawlTry (.job 0) 4096 0 [], .pawlTry (.job 0) 0 0 [.lease 4096],
      .release (.task 32) 0 false [], .release (.desc (.host 0 0)) 4096 false [], .release (.desc (.host 0 0)) 0 false [.lease 4096],
      .renew (.task 32) 0 0 [], .renew (.desc (.host 0 0)) 4096 0 [], .renew (.desc (.host 0 0)) 0 0 [.lease 4096], .pawlBreak 8 0 [],
      .pawlBreak 0 4096 [], .pawlBreak 0 0 [.lease 4096], .leaseExpiry 4096 [], .leaseExpiry 0 [.lease 4096], .waitLimitExpiry 4096 [],
      .waitLimitExpiry 0 [.lease 4096], .ctxKill 8 0, .ctxKill 0 (2 ^ 64), .agePromotion 8, .taskDispatch 8, .taskEnd 32 0 0, .taskEnd 0 256 0,
      .taskEnd 0 0 65536, .loadTile 32 0 0 0 [], .loadTile 0 32 0 0 [], .loadTile 0 0 (2 ^ 64) 0 [], .loadTile 0 0 0 0 [⟨1, []⟩],
      .storeTile 0 0 [] [⟨32, 0, []⟩], .storeTile 0 0 [] [⟨0, 2 ^ 64, []⟩], .storeTile 32 0 [] [], .storeTile 0 (2 ^ 64) [] [],
      .spoutGather 32 0 4 [0] [], .spoutGather 0 32 4 [0] [], .spoutGather 0 0 3 [0] [], .spoutGather 0 0 4 [] [], .spoutGather 0 0 4 [0] [⟨1, []⟩],
      .translationFill 2 0 0, .translationFill 0 8 0, .translationEntryExpiry 2 0 0 0] : List Instr).all (fun c => !c.wf) = true := by
  decide +kernel

/-- Each check of Instr.wf refuses a command with one operand that it does not admit. -/
theorem test_wf_refuses_d : ([
      .translationEntryExpiry 0 1024 0 0, .translationEntryExpiry 0 0 8 0, .wcHoldExpiry 2 0 0, .wcHoldExpiry 0 1024 0, .wcHoldExpiry 0 0 (2 ^ 57),
      .flushAck 2 0 [], .flushAck 0 (2 ^ 57) [], .flushAck 0 0 [⟨1, []⟩], .copy 0 [⟨1, []⟩], .ptXchg 8 0 0, .patrolScrub 10 [],
      .patrolScrub 0 [⟨1, []⟩], .liveRemap 2 0 false, .liveRemap 0 (2 ^ 35) false, .remapRetire 8, .channelTakeOut 8 0, .sluiceRefill 10,
      .portEnable 8 0, .detectPoll 8 false, .equaliseDone 8 false, .alignDone 8 false, .tsFlit 8 (zeros 236), .tsFlit 0 [],
      .dataFlit 8 (zeros 256) 0 false 0, .dataFlit 0 [] 0 false 0, .dataFlit 0 (zeros 256) 0 false 16, .nak 8 0 false, .replayTimeout 8,
      .lossOfAlignment 8, .retrainEnd 8 false, .fenceClear 8, .readReq 8 Msg.empty [], .readReq 0 { Msg.empty with dest := 2 ^ 16 } [],
      .readReq 0 Msg.empty [⟨1, []⟩], .writeReq 8 Msg.empty [], .writeReq 0 { Msg.empty with dest := 2 ^ 16 } [], .writeReq 0 Msg.empty [⟨1, []⟩],
      .writeMasked 8 Msg.empty [], .writeMasked 0 { Msg.empty with dest := 2 ^ 16 } [], .writeMasked 0 Msg.empty [⟨1, []⟩]] : List Instr).all (fun c => !c.wf) = true := by
  decide +kernel

/-- Each check of Instr.wf refuses a command with one operand that it does not admit. -/
theorem test_wf_refuses_e : ([
      .xlate 8 Msg.empty, .xlate 0 { Msg.empty with dest := 2 ^ 16 }, .readRsp 8 Msg.empty, .readRsp 0 { Msg.empty with dest := 2 ^ 16 },
      .writeRsp 8 Msg.empty, .writeRsp 0 { Msg.empty with dest := 2 ^ 16 }, .xlateRsp 8 Msg.empty, .xlateRsp 0 { Msg.empty with dest := 2 ^ 16 },
      .collUp 8 Msg.empty, .collUp 0 { Msg.empty with dest := 2 ^ 16 }, .collDown 8 Msg.empty, .collDown 0 { Msg.empty with dest := 2 ^ 16 },
      .collAbort 8 Msg.empty, .collAbort 0 { Msg.empty with dest := 2 ^ 16 }, .collAck 8 Msg.empty, .collAck 0 { Msg.empty with dest := 2 ^ 16 },
      .collTimeout 64, .sync 8 Msg.empty 0, .sync 0 { Msg.empty with dest := 2 ^ 16 } 0, .sync 0 Msg.empty 16, .syncSend [16], .holdMsg 8 Msg.empty,
      .holdMsg 0 { Msg.empty with dest := 2 ^ 16 }, .resumeMsg 8 Msg.empty, .resumeMsg 0 { Msg.empty with dest := 2 ^ 16 }, .noticeMsg 8 Msg.empty,
      .noticeMsg 0 { Msg.empty with dest := 2 ^ 16 }, .linkChange 8 Msg.empty, .linkChange 0 { Msg.empty with dest := 2 ^ 16 }, .joinAt 8 Msg.empty,
      .joinAt 0 { Msg.empty with dest := 2 ^ 16 }, .holdEntryLapse 1024, .mkClear 8, .mkAbsorb 8 [] [], .mkAbsorb 0 [⟨1, []⟩] [],
      .mkAbsorb 0 [] [⟨256, 0, 0, []⟩], .inputMarkDone 0 [⟨1, []⟩] [], .inputMarkDone 0 [] [⟨256, 0, 0, []⟩], .outputMarkDone 0 [⟨1, []⟩] [],
      .outputMarkDone 0 [] [⟨256, 0, 0, []⟩]] : List Instr).all (fun c => !c.wf) = true := by
  decide +kernel

/-- Each check of Instr.wf refuses a command with one operand that it does not admit. -/
theorem test_wf_refuses_f : ([
      .replayFrameDelivery 8, .replayDescRelease (.host 8 0), .tileTakeOut 32, .tileReturn 32, .selfTestDone 32 0 0, .tileParity 32 false,
      .bsort 32 0 0 0 0 0, .bsort 0 32 0 0 0 0, .bsort 0 0 32 0 0 0, .bmerge 32 0 0 0 0 0 0 0, .bmerge 0 32 0 0 0 0 0 0, .bmerge 0 0 32 0 0 0 0 0,
      .bmerge 0 0 0 32 0 0 0 0, .bmerge 0 0 0 0 32 0 0 0, .bdrop 32 0 0 0 0 0, .bdrop 0 32 0 0 0 0, .bdrop 0 0 32 0 0 0, .select 0 [] [⟨1, []⟩] [],
      .select 0 [] [] [⟨256, 0, 0, []⟩], .chol 0 [] none [⟨1, []⟩] [], .chol 0 [] none [] [⟨256, 0, 0, []⟩], .ldlt 0 [] none [⟨1, []⟩] [],
      .ldlt 0 [] none [] [⟨256, 0, 0, []⟩], .solveLu 0 [] none [⟨1, []⟩] [], .solveLu 0 [] none [] [⟨256, 0, 0, []⟩], .btri 0 [] none [⟨1, []⟩] [],
      .btri 0 [] none [] [⟨256, 0, 0, []⟩], .pcg 0 [] none [⟨1, []⟩] [], .pcg 0 [] none [] [⟨256, 0, 0, []⟩], .solveFactor 0 [] none [⟨1, []⟩] [],
      .solveFactor 0 [] none [] [⟨256, 0, 0, []⟩], .build 0 [⟨1, []⟩] [], .build 0 [] [⟨256, 0, 0, []⟩], .slices 0 [⟨1, []⟩] [],
      .slices 0 [] [⟨256, 0, 0, []⟩], .swap 0 [⟨1, []⟩], .refresh 0 [⟨1, []⟩], .nodeCacheLineExpiry 2 0, .checkDesc 0 [] [⟨1, []⟩] [],
      .checkDesc 0 [] [] [⟨256, 0, 0, []⟩]] : List Instr).all (fun c => !c.wf) = true := by
  decide +kernel

/-- Each check of Instr.wf refuses a command with one operand that it does not admit. -/
theorem test_wf_refuses_g : ([
      .planDesc 0 [] none [⟨1, []⟩] [], .planDesc 0 [] none [] [⟨256, 0, 0, []⟩], .millerAccessFault 4 0 0 false,
      .millerAccessFault 0 (2 ^ 64) 0 false, .svcMbRing 4 0, .svcMbRing 0 (2 ^ 4), .h2mRing (2 ^ 4), .m2hRing 4, .postTail 4 0 0, .postTail 0 4 0,
      .postTail 0 0 (2 ^ 64), .cqHeadw 4 0, .cqHeadw 0 (2 ^ 64), .watchdogExpiry 4, .tenterAccessTimeout 4 0 false, .tenterUserInterrupt 8,
      .ethLinkChange 4 false false, .phcStep (2 ^ 64), .frameReceive 4 [] false, .frameTransmit 4, .sweep 8 0 0 [], .sweep 0 4 0 [], .sweep 0 0 4 [],
      .sweepWaitExpiry 8 0, .planReq 8 okPlan, .planReq 0 { okPlan with mark := [] }, .telemetry 8 okSoh, .telemetry 0 { okSoh with mark := [] },
      .statusReq 8 0 0, .statusReq 0 (2 ^ 32) 0, .statusReq 0 0 (2 ^ 32), .getIdentity .vdm (2 ^ 16), .readReg .vdm (2 ^ 16) 0 0,
      .readReg .vdm 0 (2 ^ 32) 0, .readReg .vdm 0 0 256, .writeReg .vdm (2 ^ 16) 0 0 0, .writeReg .vdm 0 (2 ^ 32) 0 0, .writeReg .vdm 0 0 256 0,
      .writeReg .vdm 0 0 0 (2 ^ 64), .getTelemetry .vdm (2 ^ 16)] : List Instr).all (fun c => !c.wf) = true := by
  decide +kernel

/-- Each check of Instr.wf refuses a command with one operand that it does not admit. -/
theorem test_wf_refuses_h : ([
      .slotBegin .vdm (2 ^ 16) 0 0, .slotBegin .vdm 0 256 0, .slotBegin .vdm 0 0 (2 ^ 32), .slotWrite .vdm (2 ^ 16) 0 [],
      .slotWrite .vdm 0 (2 ^ 32) [], .slotCommit .vdm (2 ^ 16), .slotErase .vdm (2 ^ 16) 0, .slotErase .vdm 0 256, .slotVerify .vdm (2 ^ 16) 0,
      .slotVerify .vdm 0 256, .reload .vdm (2 ^ 16) 0, .reload .vdm 0 (2 ^ 16), .setEndpointId .vdm 256 0 0, .setEndpointId .vdm 0 0 256,
      .getEndpointId .vdm 256, .getMctpVersionSupport .vdm 256 0, .getMessageTypeSupport .vdm 256, .getVendorDefinedMessageSupport .vdm 256 0,
      .getCapabilities .vdm 256, .negotiateAlgorithms .vdm 256 0 0 0, .getDigests .vdm 256, .getCertificate .vdm 256 0 0 0,
      .getCertificate .vdm 0 8 0 0, .getCertificate .vdm 0 0 (2 ^ 16) 0, .challenge .vdm 0 0 (zeros 32) 256, .challenge .vdm 256 0 (zeros 32) 0,
      .challenge .vdm 0 8 (zeros 32) 0, .challenge .vdm 0 0 [] 0, .getMeasurements .vdm 256 0 false (zeros 32), .getMeasurements .vdm 0 0 false [],
      .bypass 64, .configurationRequest (.atsEnable 9 true), .d3hotExit 9, .translationCompletion 9 0 false (.read .slot),
      .translationCompletion 0 0 false (.record 8 0), .msixUnmask 9 none, .unsupportedControlCommand .vdm (2 ^ 16) false 0 0,
      .unsupportedControlCommand .vdm 0 false 256 0, .unsupportedControlCommand .vdm 0 false 0 256, .misalignedRead (.vf 9) 0 0] : List Instr).all (fun c => !c.wf) = true := by
  decide +kernel

/-- Each check of Instr.wf refuses a command with one operand that it does not admit. -/
theorem test_wf_refuses_i : ([
      .misalignedRead .pf (2 ^ 24) 0, .idleFlit 8 (zeros 256), .idleFlit 0 [], .portDisable 8 0 false, .machineTimerInterrupt 4,
      .memoryWindowAccess 4 0 0 false [] [], .memoryWindowAccess 0 (2 ^ 64) 0 false [] [], .memoryWindowAccess 0 0 0 false [⟨1, []⟩] [],
      .userPortWrite 0x200000 [] none none, .userPortWrite 0 [] (some (0x200000, [])) none, .userPortWrite 0 [] none (some (4, 0, 1)),
      .userPortWrite 0 [] none (some (0, 0, 9)), .userPortWrite 0 [] none (some (0, 0x1FFFFF, 2))] : List Instr).all (fun c => !c.wf) = true := by
  decide +kernel

/-- The same commands with operands that fit are well formed. -/
theorem test_wf_admits_a : ([
      .railDroop 0 0 0, .perstDeassert 0 0 0, .aonWrite .pf 0 0 0, .aonStatusWrite .pf 0 0, .pkgReset 0, .partReset 0, .partitionResetDone 0,
      .svcPartReset 0 0, .dieReset 0, .dieFault 0, .dieRecoveryDone 0 [], .mbaryPortReset 0, .ethPortReset 0, .a1Entry 0, .furlExitDone [],
      .tierSPairIdle 0, .coreClkGo 0 0, .pllRelock 0, .clockLostLock 0, .dieSelfTestDone 0,
      .tierSTrainingDone (List.replicate 8 ⟨0, false, 0, 0, 0, false, true⟩) (List.replicate 8 0), .slotProgram 0 [], .slotCtrlErase 0,
      .slotCtrlVerify 0, .scrubPass [], .registerWrite .pf 0 0 0 0 0 [], .splitReadLow .pf 0, .gmcCountSplitRead .pf, .partGrant .pf 0 0, .vfFlr 1,
      .d3hotEntry 0, .atsInvalidate 0 0 0, .snpData 0 0, .snpCur 0 0, .snpInv 0 0, .doorbellPoll 0, .doorbellLineReturn 0 0 none,
      .hostReadCompletion .slot false [], .hostReadTimeout .slot, .descriptorFetch (.host 0 0), .descriptorFetchReturn (.host 0 0) none,
      .handOver (.host 0 0) [], .sqEnable (.host 0 0) 0, .sqDisable (.host 0 0), .cqEnable (.core 0) 0, .cqDisable (.core 0), .irqTimeExpiry 0 0,
      .launch 0 [] [], .launchAt 0 [] [], .acquire (.job 0) 0 0 [], .pawlTry (.job 0) 0 0 [], .release (.desc (.host 0 0)) 0 false [],
      .renew (.desc (.host 0 0)) 0 0 [], .pawlBreak 0 0 [], .leaseExpiry 0 [], .waitLimitExpiry 0 [], .ctxKill 0 0, .agePromotion 0, .taskDispatch 0,
      .taskEnd 0 0 0] : List Instr).all Instr.wf = true := by
  decide +kernel

/-- The same commands with operands that fit are well formed. -/
theorem test_wf_admits_b : ([
      .loadTile 0 0 0 0 [], .storeTile 0 0 [] [], .spoutGather 0 0 4 [0] [], .translationFill 0 0 0, .translationEntryExpiry 0 0 0 0,
      .wcHoldExpiry 0 0 0, .flushAck 0 0 [], .copy 0 [], .ptXchg 0 0 0, .patrolScrub 0 [], .liveRemap 0 0 false, .remapRetire 0, .channelTakeOut 0 0,
      .sluiceRefill 0, .portEnable 0 0, .detectPoll 0 false, .equaliseDone 0 false, .alignDone 0 false, .tsFlit 0 (zeros 236),
      .dataFlit 0 (zeros 256) 0 false 0, .nak 0 0 false, .replayTimeout 0, .lossOfAlignment 0, .retrainEnd 0 false, .fenceClear 0,
      .readReq 0 Msg.empty [], .writeReq 0 Msg.empty [], .writeMasked 0 Msg.empty [], .xlate 0 Msg.empty, .readRsp 0 Msg.empty, .writeRsp 0 Msg.empty,
      .xlateRsp 0 Msg.empty, .collUp 0 Msg.empty, .collDown 0 Msg.empty, .collAbort 0 Msg.empty, .collAck 0 Msg.empty, .collTimeout 0,
      .sync 0 Msg.empty 0, .syncSend [], .holdMsg 0 Msg.empty, .resumeMsg 0 Msg.empty, .noticeMsg 0 Msg.empty, .linkChange 0 Msg.empty,
      .joinAt 0 Msg.empty, .holdEntryLapse 0, .mkClear 0, .mkAbsorb 0 [] [], .inputMarkDone 0 [] [], .outputMarkDone 0 [] [], .replayFrameDelivery 0,
      .replayDescRelease (.host 0 0), .tileTakeOut 0, .tileReturn 0, .selfTestDone 0 0 0, .tileParity 0 false, .bsort 0 0 0 0 0 0,
      .bmerge 0 0 0 0 0 0 0 0, .bdrop 0 0 0 0 0 0, .select 0 [] [] [], .chol 0 [] none [] []] : List Instr).all Instr.wf = true := by
  decide +kernel

/-- The same commands with operands that fit are well formed. -/
theorem test_wf_admits_c : ([
      .ldlt 0 [] none [] [], .solveLu 0 [] none [] [], .btri 0 [] none [] [], .pcg 0 [] none [] [], .solveFactor 0 [] none [] [], .build 0 [] [],
      .slices 0 [] [], .swap 0 [], .refresh 0 [], .nodeCacheLineExpiry 0 0, .checkDesc 0 [] [] [], .planDesc 0 [] none [] [],
      .millerAccessFault 0 0 0 false, .svcMbRing 0 0, .h2mRing 0, .m2hRing 0, .postTail 0 0 0, .cqHeadw 0 0, .watchdogExpiry 0,
      .tenterAccessTimeout 0 0 false, .tenterUserInterrupt 0, .ethLinkChange 0 false false, .phcStep 0, .frameReceive 0 [] false, .frameTransmit 0,
      .sweep 0 0 0 [], .sweepWaitExpiry 0 0, .planReq 0 okPlan, .telemetry 0 okSoh, .statusReq 0 0 0, .getIdentity .vdm 0, .readReg .vdm 0 0 0,
      .writeReg .vdm 0 0 0 0, .getTelemetry .vdm 0, .slotBegin .vdm 0 0 0, .slotWrite .vdm 0 0 [], .slotCommit .vdm 0, .slotErase .vdm 0 0,
      .slotVerify .vdm 0 0, .reload .vdm 0 0, .setEndpointId .vdm 0 0 0, .getEndpointId .vdm 0, .getMctpVersionSupport .vdm 0 0,
      .getMessageTypeSupport .vdm 0, .getVendorDefinedMessageSupport .vdm 0 0, .getCapabilities .vdm 0, .negotiateAlgorithms .vdm 0 0 0 0,
      .getDigests .vdm 0, .getCertificate .vdm 0 0 0 0, .challenge .vdm 0 0 (zeros 32) 0, .getMeasurements .vdm 0 0 false (zeros 32), .bypass 0,
      .configurationRequest (.read 0 .vendorId), .d3hotExit 0, .translationCompletion 0 0 false (.read .slot), .msixUnmask 0 none,
      .unsupportedControlCommand .vdm 0 false 0 0, .misalignedRead .pf 0 0, .idleFlit 0 (zeros 256), .portDisable 0 0 false] : List Instr).all Instr.wf = true := by
  decide +kernel

/-- The same commands with operands that fit are well formed. -/
theorem test_wf_admits_d : ([
      .machineTimerInterrupt 0, .memoryWindowAccess 0 0 0 false [] [], .userPortWrite 0 [] none none] : List Instr).all Instr.wf = true := by
  decide +kernel

/-- The bounds of the operands' own checks. -/
theorem test_wf_operands :
    ([Requester.vf 0, .vf 9, .miller 4].all fun r => !r.wf) = true ∧ ([Requester.vf 1, .vf 8, .miller 3, .mctp].all Requester.wf) = true ∧
    ([SqRef.host 8 0, .host 0 32, .post 4 0, .post 0 4].all fun q => !q.wf) = true ∧ ([CqRef.host 8 0, .host 0 32, .core 4].all fun q => !q.wf) = true ∧
    ([HostRead.line 8 0, .line 0 8, .fetch 8 0, .fetch 0 32].all fun r => !r.wf) = true ∧
    ([HostAccess.read (.line 8 0), .record 8 0, .record 0 32].all fun r => !r.wf) = true ∧
    ([CfgRequest.read 9 .vendorId, .write 9 .vendorId 0, .bar2Read 9 0, .bar2Read 0 (2 ^ 16), .bar2Read 1 (2 ^ 13), .bar2Write 9 0 0, .bar2Write 0 0 (2 ^ 32),
      .vfEnable true (2 ^ 16), .atsEnable 9 true, .msixEnable 9 true, .msixMask 9 0, .msixMask 0 2048, .msixMask 8 256].all fun r => !r.wf) = true ∧
    ([PawlFreer.desc (.post 4 0), .task 32].all fun r => !r.wf) = true ∧
    ([PawlEvent.release (.task 32) 0 false, .release (.task 0) 4096 false, .renew (.task 32) 0 0, .renew (.task 0) 4096 0, .taskEnd 32 0 0, .taskEnd 0 256 0,
      .taskEnd 0 0 65536, .ctxKill 8 0, .ctxKill 0 (2 ^ 64), .partReset 256, .pawlBreak 8 0, .pawlBreak 0 4096, .lease 4096, .acquire (.task 32) 0 0,
      .acquire (.job 0) 4096 0, .tryOnce (.task 32) 0 0, .tryOnce (.job 0) 4096 0, .limit 4096].all fun e => !e.wf) = true ∧
    ([Dimm.mk 64 false 32 0 0 false true, .mk 64 false 0 32 0 false true, .mk 64 false 0 0 32 false true].all fun d => !d.wf) = true ∧
    ([Strike.mk 16 [], .mk 32 [(0, 0)]].all fun x => !x.wf) = true ∧
    ([{ Msg.empty with src := 2 ^ 16 }, { Msg.empty with status := 256 }, { Msg.empty with len := 2 ^ 32 }, { Msg.empty with addr := 2 ^ 64 }].all
      fun m => !m.wf) = true := by
  decide +kernel

-- Values the spec states ----------------------------------------------------------------------------------------------------------

/-- spec/11, Test vectors. -/
theorem test_cog_mix : cogMix 0x9E3779B97F4A7C15 = 0xFF1A9FF887CBE285 := by decide +kernel
theorem test_cog_rounds : cogRounds 0 0 8 0 0 0 = (0x1C02B46221AD030E, 0x164A68D7C95C3DD4) := by decide +kernel
theorem test_cog_draws : (cogDraw 0 0 0 0, cogDraw 0 0 0 1, cogDraw 0 0 0 2, cogDraw 0 0 0 3) = (0x21AD030E, 0x1C02B462, 0xC95C3DD4, 0x164A68D7) := by
  decide +kernel

/-- spec/12, Worked case 12.1: FP32 to BF16 with stochastic rounding. -/
theorem test_bf16_stochastic :
    (bf16.enc (fp32.dec 0x3F804000) (.sr 0x21AD030E), bf16.enc (fp32.dec 0x3F801000) (.sr 0x1C02B462), bf16.enc (fp32.dec 0x3F800000) (.sr 0)) =
      (0x3F81, 0x3F80, 0x3F80) := by decide +kernel

/-- FIPS 202, which spec/11 cites: SHA3-256 of nothing. -/
theorem test_sha3 : ofBe (sha3 []) = 0xA7FFC6F8BF1ED76651C14756A061D662F580FF4DE43B49FA82D80A4B80F8434A := by decide +kernel

/-- The check values of CRC-32 and of the SMBus error code, over the digits 1 to 9. -/
theorem test_crc32 : crc32 [0x31, 0x32, 0x33, 0x34, 0x35, 0x36, 0x37, 0x38, 0x39] = 0xCBF43926 := by decide +kernel
theorem test_pec : pec [0x31, 0x32, 0x33, 0x34, 0x35, 0x36, 0x37, 0x38, 0x39] = 0xF4 := by decide +kernel

/-- AES-256-GCM, test case 13 of its specification. -/
theorem test_gcm_tag : ofBe (gcmTag (zeros 32) (zeros 12) [] []) = 0x530F8AFBC74536B9A963B4F1C4CB738B := by decide +kernel

-- One step of each family ---------------------------------------------------------------------------------------------------------

/-- The state a step answers, or the state itself. -/
def after (c : Instr) (s : State) : State := match step { s with pending := [c] } with | .next t => t | _ => s

/-- R60, R65: main power rises with PERST# low; PERST# low keeps the fuses and leaves the NVM die. -/
theorem test_cold_start : (after .coldStart State.reset).blk.pwr.mainUp = true ∧ (after .coldStart State.reset).blk.pwr.perst = false := by
  decide +kernel

/-- R856: IDCODE of stepping 0. -/
theorem test_idcode : (after .idcode lowS).blk.out = [.tdo 32 0x04400A3B] := by decide +kernel

/-- spec/05, Worked case 5.1: an OZTY4400-32 of stepping 0. -/
theorem test_ident : relS.blk.word 0x0 = 0x00004400 ∧ relS.blk.word 0x4 = 0xFFFFFFFF := by decide +kernel

/-- The post ring 3 of core 3 once wrapped: generation 2, index 1. -/
def wrapS : State := { postS with blk := (postS.blk.setSqTail (.post 3 3) 0x0000000200000001).setSqHead (.post 3 3) 0x0000000200000001 }

/-- spec/06, Worked case 6.1 step 7: a stale word of generation 1 halts the ring with cause 0x12. -/
theorem test_tail_stale :
    (after (.postTail 3 3 0x0000000100000005) wrapS).blk.sqState (.post 3 3) = rHalted ∧
    (after (.postTail 3 3 0x0000000100000005) wrapS).blk.get .POST_STATUS_HALT_CAUSE (postIx 3 3) = 0x12 := by decide +kernel

/-- R248: the word after index 1 is taken, and moves the tail. -/
theorem test_tail_taken : (after (.postTail 3 3 0x0000000200000003) wrapS).blk.sqTail (.post 3 3) = 0x0000000200000003 := by decide +kernel

/-- spec/05 and spec/08, Worked cases 5.1 and 8.1: eight DIMMs of 128 GiB, quotas of 10,240 and 131,072 units, 4 GiB placed at 0. -/
def leatS : State :=
  let b := (List.range 8).foldl (fun (b : Block) c => ((b.set .TS_CHAN_IN_SERVICE c 1).set .TS_CHAN_PRESENT c 1).set .TS_CHAN_CAP_GIB c 128) relS.blk
  let r : Run := { punit := 0, count := 2048, tier := 0, ways := 1, first := 0, idx := 0, prefF := false }
  { relS with blk := { b with ms := { b.ms with quotas := [(0, (10240, 131072))], runs := [(0, [r])] } } }

/-- A PLACE descriptor. -/
def placeD (paddr units : Nat) (policy : Byte) : List Byte := desc [0x22] (leBytes 8 paddr ++ leBytes 4 units ++ [1, policy])

/-- The runs and the spilled units of a placement, or its status and cause. -/
def placing (d : List Byte) : List Run × Nat × Nat :=
  match leatS.blk.placeUnits 0 d with
  | .done b n => (b.runs 0, n, 0)
  | .refused st c => ([], st, c)

/-- Worked case 8.1, steps 2 to 4: 8,192 units of tier F on stack 0 and 5,120 over the eight channels. -/
theorem test_place_spills :
    placing (placeD 0x100000000 13312 0x04) =
      ([{ punit := 0, count := 2048, tier := 0, ways := 1, first := 0, idx := 0, prefF := false },
        { punit := 2048, count := 8192, tier := 0, ways := 1, first := 0, idx := 2048, prefF := true },
        { punit := 10240, count := 5120, tier := 1, ways := 8, first := 0, idx := 0, prefF := true }], 5120, 0) := by
  decide +kernel

/-- Worked case 8.1, step 8, before anything spilled: more than the quota of tier S is refused with OVER_QUOTA. -/
theorem test_place_over_quota : placing (placeD 0x1000000000 131073 0x02) = ([], stQuota, 0x71) := by decide +kernel

/-- The Governor in a run. -/
def govS : State := withReg (withReg (withReg relS .SL_CFG_EN 1 1) .SL_CFG_RATE 1 256) .SL_CFG_BURST 1 4

/-- spec/09, Worked case 9.1: 85.4 °C at stack 1 is HOT, with event 0x10. -/
theorem test_governor_hot :
    (after (.governorReading [some 800, some 1366, some 800, some 800, some 800] 100000 [800, 800, 800, 1100]) govS).blk.sensorState 1 = 2 := by
  decide +kernel

/-- R427 to R429: 95.2 °C is CRITICAL. -/
theorem test_governor_critical :
    (after (.governorReading [some 800, some 1523, some 800, some 800, some 800] 100000 [800, 800, 800, 1100]) govS).blk.sensorState 1 = 3 := by
  decide +kernel

/-- R781: a window access of a core whose partition the service does not own faults with NOT_SERVICE, 0xF7. -/
theorem test_window_not_service :
    (after (.memoryWindowAccess 3 0 8 false [] []) relS).blk.get .M_ERR_STATUS 3 = stAddr ∧
    (after (.memoryWindowAccess 3 0 8 false [] []) relS).blk.get .M_ERR_CAUSE 3 = 0xF7 := by decide +kernel

/-- R785, R788: a ring of core 3 to core 0 sets bit 3 of core 0's sources and its line 1. -/
theorem test_mailbox : (after (.svcMbRing 3 1) relS).blk.get .M_MB_CORE_SRC 0 = 8 ∧ (after (.svcMbRing 3 1) relS).blk.get .M_IRQ_PEND_LINES 0 = 2 := by
  decide +kernel

/-- R226: the three message types. -/
theorem test_message_types :
    (after (.getMessageTypeSupport .vdm 3) mgS).blk.out = [.mctp 0 0 1 [0x00, 0x03, 0x05, 0x00, 0x03, 0x00, 0x05, 0x7E]] := by decide +kernel

/-- R859: EXTEST while the package runs loads BYPASS. -/
theorem test_extest_running : (after (.extest 5) relS).blk.cfg.tap = 0x3F ∧ (after (.extest 5) relS).blk.out = [.tdo 6 1] := by decide +kernel

/-- The hypotheses of Obligations.PowerRisesAndFails, clause by clause, are met. -/
theorem test_meets_PowerRisesAndFails :
    State.reset.blk.pwr.mainUp = false ∧
    upS.blk.pwr.mainUp = true ∧
    (upS.blk.pwr.mainUp = true ∧ upS.blk.pwr.perst = true ∧ 1709 < railLow 0 ∧ 2000 < 2001) ∧
    (699 < 700 ∧ 2000 ≤ 2000) ∧
    railLow 0 ≤ 1710 := by
  decide +kernel

/-- The hypotheses of Obligations.PerstAndPackageResets, clause by clause, are met. -/
theorem test_meets_PerstAndPackageResets :
    (upS.blk.pwr.mainUp = true ∧ upS.blk.pwr.perst = true) ∧
    (lowS.blk.pwr.mainUp = true ∧ lowS.blk.pwr.perst = false) ∧
    (upS.blk.inReset = false ∧ (Nat.testBit 0x7A110001 0 = true ∧ bits 0x7A110001 16 16 = 0x7A11)) ∧
    (upS.blk.inReset = false ∧ Nat.testBit 2 0 = false) ∧
    (upS.blk.inReset = false ∧ (Nat.testBit 0x7A100001 0 = true ∧ bits 0x7A100001 16 16 ≠ 0x7A11)) := by
  decide +kernel

/-- The hypotheses of Obligations.AlwaysOnWrites, clause by clause, are met. -/
theorem test_meets_AlwaysOnWrites_a :
    (upS.blk.inReset = false ∧ (upS.blk.inD3 .pf = false ∧ aonOffset 0x3012C = true ∧ fieldsAt 0x3012C ≠ [] ∧ aonLive 0x3012C = true ∧ upS.blk.pwr.crossing = none)) ∧
    ((crossS 0x10100 4 5).blk.inReset = false ∧ (aonOffset 0x10100 = true ∧ aonLive 0x10100 = true ∧ (crossS 0x10100 4 5).blk.aonChanges 0x10100 6 = true ∧ (crossS 0x10100 4 5).blk.pwr.crossing ≠ none)) ∧
    (fieldsAt 0x30110 ≠ [] ∧ aonOffset 0x30110 = true ∧ aonLive 0x30110 = false) ∧
    (upS.blk.inReset = false ∧ (upS.blk.inD3 .pf = false ∧ upS.blk.pwr.crossing = none)) ∧
    (upS.blk.inReset = false ∧ (upS.blk.inD3 .pf = false ∧ upS.blk.pwr.crossing = none)) ∧
    (upS.blk.inReset = false ∧ (upS.blk.inD3 .pf = false ∧ upS.blk.pwr.crossing = none)) := by
  decide +kernel

/-- The hypotheses of Obligations.AlwaysOnWrites, clause by clause, are met. -/
theorem test_meets_AlwaysOnWrites_b :
    (upS.blk.inReset = false ∧ upS.blk.inD3 .pf = false) ∧
    ((crossS 0x1011C 4 9).blk.pwr.crossing = some { who := .pf, off := 0x1011C, size := 4, val := 9 } ∧ (4 : Nat) ≠ 8 ∧ ∃ k < 8, 0x1011C = 0x10100 + 4 * k) ∧
    ((crossS 0x10120 4 1).blk.pwr.crossing = some { who := .pf, off := 0x10120, size := 4, val := 1 } ∧ (crossS 0x10120 4 1).blk.get .KR_CTRL_LOCK 0 = 0) ∧
    ((crossS 0x3012C 4 7).blk.pwr.crossing = some { who := .pf, off := 0x3012C, size := 4, val := 7 } ∧ ∃ k < 4, 0x3012C = 0x30120 + 4 * k) ∧
    ((crossS 0x10118 8 7).blk.pwr.crossing = some { who := .pf, off := 0x10118, size := 8, val := 7 }) := by
  decide +kernel

/-- The hypotheses of Obligations.BatteryAndZeroPin, clause by clause, are met. -/
theorem test_meets_BatteryAndZeroPin :
    2099 < 2100 ∧
    1999 < 2000 ∧
    2100 ≤ 2100 ∧
    2 ≤ 2 := by
  decide +kernel

/-- The hypotheses of Obligations.DieResetsAndRecovery, clause by clause, are met. -/
theorem test_meets_DieResetsAndRecovery :
    (relS.blk.inReset = false ∧ (1 < 2 ∧ relS.blk.pwr.released = true ∧ (relS.blk.die 1).recovering = false ∧ (relS.blk.die 1).gated = false)) ∧
    ((dieS { Die.reset with recovering := true }).blk.inReset = false ∧ ((dieS { Die.reset with recovering := true }).blk.die 1).recovering = true) ∧
    (relS.blk.inReset = false ∧ ((1 : Nat) < 2 ∧ 1 < relS.blk.dies.length ∧ relS.blk.pwr.released = true ∧ (relS.blk.die 1).recovering = false ∧ (relS.blk.die 1).gated = false ∧ relS.blk.tiles = [])) ∧
    (relS.blk.inReset = false ∧ (0 < 2 ∧ relS.blk.pwr.released = true ∧ (relS.blk.die 0).recovering = false ∧ (relS.blk.die 0).gated = false)) ∧
    ((dieS { Die.reset with recovering := true }).blk.inReset = false ∧ ((dieS { Die.reset with recovering := true }).blk.die 1).recovering = true) := by
  decide +kernel

/-- The hypotheses of Obligations.PartitionResets, clause by clause, are met. -/
theorem test_meets_PartitionResets_a :
    (relS.blk.inReset = false ∧ (7 < 8 ∧ relS.blk.get .PART_GRANT_OWNER 7 ≠ 2 ∧ relS.blk.resetting 7 = false)) ∧
    ((withReg relS .PART_GRANT_OWNER 0 2).blk.inReset = false ∧ (0 < 8 ∧ (withReg relS .PART_GRANT_OWNER 0 2).blk.get .PART_GRANT_OWNER 0 = 2)) ∧
    ((withReg relS .PART_GRANT_OWNER 0 2).blk.inReset = false ∧ (0 < 8 ∧ (withReg relS .PART_GRANT_OWNER 0 2).blk.get .PART_GRANT_OWNER 0 = 2 ∧ (withReg relS .PART_GRANT_OWNER 0 2).blk.resetting 0 = false)) ∧
    (relS.blk.inReset = false ∧ (7 < 8 ∧ relS.blk.get .PART_GRANT_OWNER 7 ≠ 2)) ∧
    ((withReg relS .PART_STATUS_RESETTING 3 1).blk.inReset = false ∧ ((3 : Nat) < 8 ∧ (withReg relS .PART_STATUS_RESETTING 3 1).blk.resetting 3 = true ∧ (withReg relS .PART_STATUS_RESETTING 3 1).blk.get .PART_GRANT_OWNER 3 ≠ 2)) ∧
    (let s : State := withReg recS .PART_STATUS_RESETTING 0 1; s.blk.inReset = false ∧ (s.blk.resetting 0 = true ∧ s.blk.recordsHeld 0 ≠ [])) := by
  decide +kernel

/-- The hypotheses of Obligations.PartitionResets, clause by clause, are met. -/
theorem test_meets_PartitionResets_b :
    ((withReg relS .PART_STATUS_RESETTING 7 1).blk.inReset = false ∧ (7 < 8 ∧ (withReg relS .PART_STATUS_RESETTING 7 1).blk.resetting 7 = true ∧ (withReg relS .PART_STATUS_RESETTING 7 1).blk.recordsHeld 7 = [])) := by
  decide +kernel

/-- The hypotheses of Obligations.FurledAndA1, clause by clause, are met. -/
theorem test_meets_FurledAndA1_a :
    (a1S.blk.inReset = false ∧ (1 < 2 ∧ 1 < a1S.blk.dies.length ∧ a1S.blk.pwr.released = true ∧ a1S.blk.on .PWR_CTRL_A1_EN = true ∧ a1S.blk.pwr.furl = .a0 ∧ a1S.blk.dieOff 1 = false ∧ a1S.blk.dieBusy 1 = false ∧ max 1 (a1S.blk.get .PWR_CTRL_A1_IDLE) ≤ (a1S.blk.die 1).idleTicks)) ∧
    upS.blk.inReset = false ∧
    (relS.blk.inReset = false ∧ (relS.blk.pwr.released = true ∧ relS.blk.pwr.furl = .a0 ∧ relS.blk.changing = false ∧ relS.blk.recovery = false)) ∧
    ((dieS { Die.reset with recovering := true }).blk.inReset = false ∧ (dieS { Die.reset with recovering := true }).blk.recovery = true) ∧
    ((furlS .exiting).blk.inReset = false ∧ ((furlS .exiting).blk.pwr.released = true ∧ (furlS .exiting).blk.pwr.furl ≠ .a0 ∧ (furlS .exiting).blk.pwr.furl ≠ .furled)) ∧
    (busyS.blk.inReset = false ∧ (busyS.blk.pwr.furl = .entering ∧ busyS.blk.pwr.furlDue ≤ busyS.blk.gmc ∧ (busyS.blk.dieBusy 0 || busyS.blk.dieBusy 1) = true ∧ busyS.blk.on .PWR_CTRL_FORCE = false)) := by
  decide +kernel

/-- The hypotheses of Obligations.FurledAndA1, clause by clause, are met. -/
theorem test_meets_FurledAndA1_b :
    ((withReg busyS .PWR_CTRL_FORCE 0 1).blk.inReset = false ∧ ((withReg busyS .PWR_CTRL_FORCE 0 1).blk.on .PWR_CTRL_FORCE = true ∧ (withReg busyS .PWR_CTRL_FORCE 0 1).blk.dieBusy 1 = true)) ∧
    ((wcS .entering).blk.inReset = false ∧ ((wcS .entering).blk.pwr.furl = .entering ∧ (wcS .entering).blk.dieBusy 0 = false ∧ (wcS .entering).blk.dieBusy 1 = false ∧ (wcS .entering).blk.changing = false ∧ (wcS .entering).blk.recovery = false)) ∧
    (busyS.blk.inReset = false ∧ (busyS.blk.pwr.furl = .entering ∧ busyS.blk.dieBusy 1 = true)) ∧
    ((furlS .quiet).blk.inReset = false ∧ ((furlS .quiet).blk.pwr.furl = .quiet ∧ (furlS .quiet).blk.ms.wc = [] ∧ (furlS .quiet).blk.changing = false ∧ (furlS .quiet).blk.recovery = false ∧ (furlS .quiet).blk.pwr.wakeHeld = false)) ∧
    ((furlS .furled).blk.inReset = false ∧ ((furlS .furled).blk.pwr.released = true ∧ (furlS .furled).blk.pwr.furl = .furled)) ∧
    ((furlS .waiting).blk.inReset = false ∧ ((furlS .waiting).blk.pwr.released = true ∧ (furlS .waiting).blk.pwr.furl = .waiting)) := by
  decide +kernel

/-- The hypotheses of Obligations.FurledAndA1, clause by clause, are met. -/
theorem test_meets_FurledAndA1_c :
    ((furlS .quiet).blk.inReset = false ∧ ((furlS .quiet).blk.pwr.released = true ∧ (furlS .quiet).blk.pwr.furl = .quiet)) ∧
    ((furlS .exiting).blk.inReset = false ∧ (furlS .exiting).blk.pwr.furl = .exiting) ∧
    (pairS.blk.inReset = false ∧ ((3 : Nat) < 4 ∧ pairS.blk.pwr.furl = .furled ∧ pairS.blk.pairTrained 3 = true ∧ Tab.get pairS.blk.pwr.pairLast 3 0 + 1000000 ≤ pairS.blk.gmc)) := by
  decide +kernel

/-- The hypotheses of Obligations.ClockCommands, clause by clause, are met. -/
theorem test_meets_ClockCommands_a :
    (relS.blk.inReset = false ∧ ((1 : Nat) < 2 ∧ 1 < relS.blk.dies.length ∧ (relS.blk.die 1).change = none ∧ codeOk (0x10 % 64) = true ∧ relS.blk.dieOff 1 = false)) ∧
    ((dieS { Die.reset with gated := true }).blk.inReset = false ∧ ((dieS { Die.reset with gated := true }).blk.dieOff 1 = true ∧ codeOk (0x24 % 64) = true)) ∧
    (relS.blk.inReset = false ∧ ((relS.blk.die 0).change = none ∧ codeOk (0x25 % 64) = false)) ∧
    ((dieS { Die.reset with change := some 0x10 }).blk.inReset = false ∧ (((dieS { Die.reset with change := some 0x10 }).blk.die 1).change = some 0x10 ∧ (dieS { Die.reset with change := some 0x10 }).blk.on .CORE_CLK_PENDING 1 = false)) ∧
    ((withReg (dieS { Die.reset with change := some 0x10 }) .CORE_CLK_PENDING 1 1).blk.inReset = false ∧ (withReg (dieS { Die.reset with change := some 0x10 }) .CORE_CLK_PENDING 1 1).blk.on .CORE_CLK_PENDING 1 = true) ∧
    (upS.blk.inReset = false ∧ ((2 : Nat) < 26 ∧ upS.blk.clkHeld 2 = true ∧ upS.blk.clkHeld 25 = true)) := by
  decide +kernel

/-- The hypotheses of Obligations.ClockCommands, clause by clause, are met. -/
theorem test_meets_ClockCommands_b :
    (testedS.blk.inReset = false ∧ (testedS.blk.clkHeld 1 = true)) ∧
    (upS.blk.inReset = false ∧ upS.blk.clkHeld 3 = true) ∧
    (upS.blk.inReset = false ∧ ({ upS with blk := { upS.blk with pwr := { upS.blk.pwr with lost := 8 } } } : State).blk.pwr.lost.testBit 3 = true) ∧
    (upS.blk.inReset = false ∧ ((1 : Nat) ≠ 0 ∧ 1 ≠ hostFlume)) ∧
    (creditS.blk.inReset = false ∧ (creditS.blk.link.credits = some 0 ∧ creditS.blk.link.stalled = [])) ∧
    upS.blk.inReset = false := by
  decide +kernel

/-- The hypotheses of Obligations.ImageSequence, clause by clause, are met. -/
theorem test_meets_ImageSequence_a :
    ((phaseS (.attempt 1)).blk.inReset = false ∧ ((phaseS (.attempt 1)).blk.cfg.phase = .attempt 1 ∧ (phaseS (.attempt 1)).blk.source 1 ≠ 2 ∧ ((phaseS (.attempt 1)).blk.bumpSat .CFG_STATUS_ATTEMPTS).slotFault ((phaseS (.attempt 1)).blk.source 1) none = some 0x0B)) ∧
    ((validS (.attempt 1)).blk.inReset = false ∧ ((validS (.attempt 1)).blk.cfg.phase = .attempt 1 ∧ (validS (.attempt 1)).blk.source 1 ≠ 2 ∧ (validS (.attempt 1)).blk.slotState ((validS (.attempt 1)).blk.source 1) = slotValid)) ∧
    ((chainS (.attempt 2) img none).blk.inReset = false ∧ ((chainS (.attempt 2) img none).blk.source 2 = 2 ∧ (chainS (.attempt 2) img none).blk.chainReady = true ∧ ((chainS (.attempt 2) img none).blk.bumpSat .CFG_STATUS_ATTEMPTS).checkPlain (chainS (.attempt 2) img none).blk.cfg.chainIn = none)) ∧
    ((imgS (.body 0)).blk.inReset = false ∧ ((imgS (.body 0)).blk.cfg.phase = .body 0 ∧ (imgS (.body 0)).blk.source 0 ≠ 2 ∧ (imgS (.body 0)).blk.cfg.tested = false ∧ (imgS (.body 0)).blk.imageKey = some (zeros 32) ∧ checkBody (zeros 32) false (imgS (.body 0)).blk.cfg.image = none)) ∧
    ((keyS (.body 0)).blk.inReset = false ∧ ((keyS (.body 0)).blk.cfg.phase = .body 0 ∧ (keyS (.body 0)).blk.source 0 ≠ 2 ∧ (keyS (.body 0)).blk.imageKey = none)) ∧
    ((keyS (.body 0)).blk.inReset = false ∧ ((keyS (.body 0)).blk.cfg.phase = .body 0 ∧ (keyS (.body 0)).blk.source 0 ≠ 2)) := by
  decide +kernel

/-- The hypotheses of Obligations.ImageSequence, clause by clause, are met. -/
theorem test_meets_ImageSequence_b :
    ((chainS (.body 2) [0, 0] (some 2)).blk.inReset = false ∧ ((chainS (.body 2) [0, 0] (some 2)).blk.source 2 = 2 ∧ 2 ≤ (chainS (.body 2) [0, 0] (some 2)).blk.cfg.chainIn.length)) ∧
    (upS.blk.inReset = false ∧ (upS.blk.pwr.mainUp = true ∧ upS.blk.pwr.perst = true ∧ upS.blk.pwr.released = false ∧ upS.blk.cfg.tested = false)) ∧
    (upS.blk.inReset = false ∧ (upS.blk.pwr.mainUp = true ∧ upS.blk.pwr.perst = true ∧ upS.blk.pwr.released = false ∧ upS.blk.cfg.tsTrained = false)) ∧
    ((phaseS (.tagged 0)).blk.inReset = false ∧ (phaseS (.tagged 0)).blk.cfg.phase = .tagged 0) ∧
    (landS.blk.inReset = false ∧ (landS.blk.cfg.phase = .tagged 0 ∧ ∃ x ∈ landS.blk.cfg.toLand, landS.blk.canLand x = true)) ∧
    (readyS.blk.inReset = false ∧ (readyS.blk.cfg.phase = .tagged 0 ∧ readyS.blk.releaseReady = true)) := by
  decide +kernel

/-- The hypotheses of Obligations.ImageSequence, clause by clause, are met. -/
theorem test_meets_ImageSequence_c :
    ((phaseS (.backoff 0)).blk.inReset = false ∧ ((phaseS (.backoff 0)).blk.cfg.phase = .backoff 0 ∧ 0 ≤ (phaseS (.backoff 0)).blk.pwr.now)) := by
  decide +kernel

/-- The hypotheses of Obligations.DaisyChain, clause by clause, are met. -/
theorem test_meets_DaisyChain :
    (armS.blk.inReset = false ∧ armS.blk.cfg.chainAt = none ∧ armS.blk.cfg.chainArmed = true) ∧
    (armS.blk.inReset = false ∧ 0 + 1000 ≤ ({ armS with blk := { armS.blk with pwr := { armS.blk.pwr with now := 1000 } } } : State).blk.pwr.now) ∧
    ((chainS (.body 2) [0, 0] (some 3)).blk.inReset = false ∧ ((chainS (.body 2) [0, 0] (some 3)).blk.cfg.chainArmed = false ∧ (chainS (.body 2) [0, 0] (some 3)).blk.cfg.chainMute = false ∧ (chainS (.body 2) [0, 0] (some 3)).blk.cfg.chainIn ≠ [] ∧ (chainS (.body 2) [0, 0] (some 3)).blk.segmentOpen = true)) ∧
    (upS.blk.inReset = false ∧ (upS.blk.cfg.chainAt = none ∧ upS.blk.cfg.chainArmed = false ∧ upS.blk.segmentOpen = false)) ∧
    (silentS.blk.inReset = false ∧ (silentS.blk.cfg.phase = .attempt 2 ∧ silentS.blk.source 2 = 2 ∧ silentS.blk.chainSilent = true)) := by
  decide +kernel

/-- The hypotheses of Obligations.NvmCommands, clause by clause, are met. -/
theorem test_meets_NvmCommands_a :
    (arbS.blk.inReset = false ∧ (arbS.blk.arbValue < arbS.blk.get .ARB_SET_VALUE ∧ arbS.blk.get .ARB_SET_VALUE ≤ arbS.blk.get .LOADED_VERSION_VERSION)) ∧
    (relS.blk.inReset = false ∧ relS.blk.get .ARB_SET_VALUE ≤ relS.blk.arbValue) ∧
    (hostS.blk.inReset = false ∧ ((1 : Nat) < 2 ∧ hostS.blk.slotBusy = false ∧ hostS.blk.slotInUse 1 = false ∧ hostS.blk.get .SLOT_LEN_LEN ≤ Config.slotBytes)) ∧
    (hostS.blk.inReset = false ∧ (hostS.blk.slotBusy = false ∧ hostS.blk.slotInUse 1 = false ∧ hostS.blk.get .SLOT_LEN_LEN = 0)) ∧
    ((withReg relS .SLOT_LEN_LEN 0 5).blk.inReset = false ∧ ((withReg relS .SLOT_LEN_LEN 0 5).blk.slotBusy = false ∧ 0 < (withReg relS .SLOT_LEN_LEN 0 5).blk.get .SLOT_LEN_LEN ∧ (withReg relS .SLOT_LEN_LEN 0 5).blk.get .HOST_LINK_RATE = 0)) ∧
    (let s : State := withReg hostS .SLOT_LEN_LEN 0 5; s.blk.inReset = false ∧ (s.blk.slotBusy = false ∧ s.blk.slotInUse 1 = false ∧ 5 ≤ 4096 - s.blk.get .SLOT_SRC_ADDR % 4096 ∧ s.blk.get .HOST_LINK_RATE ≠ 0 ∧ s.blk.hostTranslated 0 (s.blk.get .SLOT_SRC_ADDR) = true ∧ s.blk.tagsUsed < 768 ∧ s.blk.link.tagless = [] ∧ s.blk.link.reads = [])) := by
  decide +kernel

/-- The hypotheses of Obligations.NvmCommands, clause by clause, are met. -/
theorem test_meets_NvmCommands_b :
    (relS.blk.inReset = false ∧ ((1 : Nat) < 2 ∧ relS.blk.slotBusy = false ∧ relS.blk.slotInUse 1 = false ∧ relS.blk.get .SLOT_LEN_LEN ≤ Config.slotBytes)) ∧
    (relS.blk.inReset = false ∧ ((0 : Nat) < 2 ∧ relS.blk.slotBusy = false ∧ relS.blk.get .SLOT_LEN_LEN ≤ Config.slotBytes)) ∧
    ((withReg relS .SLOT_LEN_LEN 0 (Config.slotBytes + 1)).blk.inReset = false ∧ (withReg relS .SLOT_LEN_LEN 0 (Config.slotBytes + 1)).blk.get .SLOT_LEN_LEN > Config.slotBytes) ∧
    (opS.blk.inReset = false ∧ opS.blk.cfg.slotOp = some { op := 3, slot := 1, result := 255, len := 0, done := 0, reading := false }) ∧
    (sessS.blk.inReset = false ∧ (sessS.blk.cfg.session = some { slot := 1, length := 4, next := 0, since := 0 } ∧ 0 + 60000000000 ≤ sessS.blk.pwr.now)) ∧
    (scrubS.blk.inReset = false ∧ (scrubS.blk.on .SCRUB_CTRL_EN = true ∧ scrubS.blk.cfg.bitstream = true ∧ scrubS.blk.pwr.released = true)) := by
  decide +kernel

/-- The hypotheses of Obligations.RegisterReads, clause by clause, are met. -/
theorem test_meets_RegisterReads :
    (relS.blk.inReset = false ∧ (relS.blk.inD3 .pf = false ∧ reqOffset .pf 0x10008 = some 0x10008 ∧ regAt 0x10008 = some (0x10008, 8) ∧ relS.blk.deadWindow 0x10008 = false ∧ relS.blk.vfBlind .pf 0x10008 = false)) ∧
    (upS.blk.inReset = false ∧ (∀ m < 9, Requester.mctp ≠ .vf m)) ∧
    (vfS.blk.inReset = false ∧ vfS.blk.inD3 (.vf 8) = false) ∧
    (upS.blk.inReset = false ∧ (((8 == 4 || 8 == 8) && 4 % 8 == 0) = false)) ∧
    (d3S.blk.inReset = false ∧ d3S.blk.inD3 .pf = true) := by
  decide +kernel

/-- The hypotheses of Obligations.RegisterWrites, clause by clause, are met. -/
theorem test_meets_RegisterWrites_a :
    (relS.blk.inReset = false ∧ (((4 == 4 || 4 == 8) && 0xA00000 % 4 == 0) = true ∧ relS.blk.svcLocked 0xA00000 4 1 = false)) ∧
    (upS.blk.inReset = false ∧ (((8 == 4 || 8 == 8) && 0x10018 % 8 == 0) = true)) ∧
    (vfS.blk.inReset = false ∧ (vfS.blk.vfLive 8 = true ∧ vfS.blk.get .PART_GRANT_OWNER 7 ≠ 2)) ∧
    (relS.blk.inReset = false ∧ relS.blk.coreMayWrite 0xA00000 0 = true) ∧
    (upS.blk.inReset = false ∧ (((2 == 4 || 2 == 8) && 0 % 2 == 0) = false ∧ reqOffset .pf 0 = some 0)) ∧
    (d3S.blk.inReset = false ∧ d3S.blk.inD3 .pf = true) := by
  decide +kernel

/-- The hypotheses of Obligations.RegisterWrites, clause by clause, are met. -/
theorem test_meets_RegisterWrites_b :
    (relS.blk.inReset = false ∧ (fieldsAt 0xFFFFFC = [] ∧ logWindow 0xFFFFFC = false ∧ relS.blk.deadWindow 0xFFFFFC = false ∧ aonOffset 0xFFFFFC = false)) ∧
    (upS.blk.inReset = false ∧ reqRank .pf < reqRank (.vf 1)) ∧
    (upS.blk.inReset = false ∧ reqRank .mctp ≤ reqRank (.miller 3)) ∧
    (upS.blk.inReset = false ∧ 7 < 8) ∧
    (relS.blk.inReset = false ∧ relS.blk.grantRefusal (some .mctp) 7 (bits 0x100 0 8) (bits 0x100 8 2) = none) ∧
    (let s : State := withReg relS .PART_GRANT_OWNER 7 2; s.blk.inReset = false ∧ (s.blk.get .PART_GRANT_OWNER 7 = 2 ∧ s.blk.grantRefusal (some (.miller 3)) 7 (bits 0x100 0 8) (bits 0x100 8 2) = none)) := by
  decide +kernel

/-- The hypotheses of Obligations.RegisterWrites, clause by clause, are met. -/
theorem test_meets_RegisterWrites_c :
    (relS.blk.inReset = false ∧ relS.blk.grantRefusal (some .mctp) 0 (bits 0x201 0 8) (bits 0x201 8 2) = some 5) := by
  decide +kernel

/-- The hypotheses of Obligations.RingsStartAndStop, clause by clause, are met. -/
theorem test_meets_RingsStartAndStop_a :
    (ringS.blk.inReset = false ∧ (ringS.blk.sqState (.post 3 3) = rOff ∧ ringS.blk.sqRefusal (.post 3 3) = none)) ∧
    (relS.blk.inReset = false ∧ (relS.blk.sqState (.host 7 31) = rOff ∧ relS.blk.sqRefusal (.host 7 31) = some 2)) ∧
    ((withReg relS .SQ_STATUS_STATE 255 3).blk.inReset = false ∧ (withReg relS .SQ_STATUS_STATE 255 3).blk.sqState (.host 7 31) = rHalted) ∧
    ((withReg relS .CORE_CQ_CFG_LOG2_SIZE 3 12).blk.inReset = false ∧ ((withReg relS .CORE_CQ_CFG_LOG2_SIZE 3 12).blk.cqState (.core 3) = rOff ∧ (withReg relS .CORE_CQ_CFG_LOG2_SIZE 3 12).blk.cqRefusal (.core 3) = none)) ∧
    (relS.blk.inReset = false ∧ (relS.blk.cqState (.host 0 0) = rOff ∧ relS.blk.cqRefusal (.host 0 0) = some 2)) ∧
    ((withReg relS .CORE_CQ_STATUS_STATE 0 1).blk.inReset = false ∧ ((withReg relS .CORE_CQ_STATUS_STATE 0 1).blk.cqState (.core 0) ≠ rOff ∧ (((withReg relS .CORE_CQ_STATUS_STATE 0 1).blk.sqsOf (.core 0)).all fun x => (withReg relS .CORE_CQ_STATUS_STATE 0 1).blk.sqState x == rOff) = true)) := by
  decide +kernel

/-- The hypotheses of Obligations.RingsStartAndStop, clause by clause, are met. -/
theorem test_meets_RingsStartAndStop_b :
    ((withReg (withReg relS .CORE_CQ_STATUS_STATE 0 1) .POST_STATUS_STATE 3 1).blk.inReset = false ∧ (((withReg (withReg relS .CORE_CQ_STATUS_STATE 0 1) .POST_STATUS_STATE 3 1).blk.sqsOf (.core 0)).all fun x => (withReg (withReg relS .CORE_CQ_STATUS_STATE 0 1) .POST_STATUS_STATE 3 1).blk.sqState x == rOff) = false) := by
  decide +kernel

/-- The hypotheses of Obligations.DoorbellWords, clause by clause, are met. -/
theorem test_meets_DoorbellWords_a :
    (postS.blk.inReset = false ∧ (postS.blk.sqState (.post 3 3) = rActive ∧ 16 < 2 ^ 64 ∧ 15 ≠ postS.blk.sqTail (.post 3 3) ∧ postS.blk.resetting (postS.blk.sqPart (.post 3 3)) = false ∧ wordFault (postS.blk.sqSize (.post 3 3)) (postS.blk.sqTail (.post 3 3)) 15 = none ∧ posDist (postS.blk.sqSize (.post 3 3)) (wordPos (postS.blk.sqSize (.post 3 3)) (postS.blk.sqHead (.post 3 3))) (wordPos (postS.blk.sqSize (.post 3 3)) 15) ≤ postS.blk.sqSize (.post 3 3))) ∧
    (postS.blk.inReset = false ∧ (wordFault (postS.blk.sqSize (.post 3 3)) (postS.blk.sqTail (.post 3 3)) 16 = some 2)) ∧
    (headS.blk.inReset = false ∧ (headS.blk.cqState (.core 3) = rActive ∧ 1 ≠ headS.blk.cqHead (.core 3) ∧ wordFault (headS.blk.cqSize (.core 3)) (headS.blk.cqHead (.core 3)) 1 = none ∧ posDist 16 0 1 ≤ posDist 16 0 (wordPos 16 (headS.blk.cqTail (.core 3))) ∧ headS.blk.cqSize (.core 3) = 16)) ∧
    (headS.blk.inReset = false ∧ (wordFault (headS.blk.cqSize (.core 3)) (headS.blk.cqHead (.core 3)) 16 = some 2)) ∧
    (pollS.blk.inReset = false ∧ (pollS.blk.lineDue 7 7 = true ∧ pollS.blk.lineBusy 7 7 = false ∧ pollS.blk.on .DB_CTRL_EN 7 = true ∧ pollS.blk.hostUp 7 = true ∧ pollS.blk.snooping 7 = false ∧ pollS.blk.lineUsed 7 7 (· == rActive) = true)) ∧
    (relS.blk.inReset = false ∧ relS.blk.on .DB_CTRL_EN 7 = false) := by
  decide +kernel

/-- The hypotheses of Obligations.DoorbellWords, clause by clause, are met. -/
theorem test_meets_DoorbellWords_b :
    ((readS (.line 7 7)).blk.inReset = false ∧ ((readS (.line 7 7)).blk.readDone (.line 7 7)).isSome = true) ∧
    upS.blk.inReset = false ∧
    upS.blk.inReset = false ∧
    upS.blk.inReset = false ∧
    (irqS.blk.inReset = false ∧ (irqS.blk.atTick = true ∧ irqS.blk.get .IRQ_CQ_TIME (ringIx 7 31) ≠ 0 ∧ 0 < (irqS.blk.cq (.host 7 31)).p ∧ (irqS.blk.cq (.host 7 31)).firstAt + irqS.blk.get .IRQ_CQ_TIME (ringIx 7 31) * irqS.blk.tick ≤ irqS.blk.gmc ∧ irqS.blk.on .IRQ_CQ_IRQ_EN (ringIx 7 31) = true ∧ irqS.blk.get .IRQ_CQ_VECTOR (ringIx 7 31) < msixSize (irqS.blk.partFn 7) ∧ irqS.blk.link.msixOn.testBit 0 = true ∧ (0, 0) ∈ irqS.blk.link.unmasked ∧ irqS.blk.link.orphans.testBit 7 = false ∧ irqS.blk.get .HOST_LINK_RATE ≠ 0 ∧ irqS.blk.canPost 1 = true)) := by
  decide +kernel

/-- The hypotheses of Obligations.DescriptorsFetchedAndHandedOver, clause by clause, are met. -/
theorem test_meets_DescriptorsFetchedAndHandedOver_a :
    (fetchS.blk.inReset = false ∧ (fetchS.blk.fetchCount (.post 3 3) ≠ 0 ∧ fetchS.blk.resetting (fetchS.blk.sqPart (.post 3 3)) = false)) ∧
    ((readS (.fetch 0 0)).blk.inReset = false ∧ ((readS (.fetch 0 0)).blk.readDone (.fetch 0 0)).isSome = true) ∧
    ((sqS { SqAux.reset with fetches := [(0, [(0, 0)])] }).blk.inReset = false ∧ (sqS { SqAux.reset with fetches := [(0, [(0, 0)])] }).blk.sq (.post 0 0) = { SqAux.reset with fetches := [(0, [(0, 0)])] }) ∧
    ((sqS { SqAux.reset with queue := [fetched0] }).blk.inReset = false ∧ ((sqS { SqAux.reset with queue := [fetched0] }).blk.replayOn ((sqS { SqAux.reset with queue := [fetched0] }).blk.sqPart (.post 0 0)) = false)) ∧
    ((sqS { SqAux.reset with queue := [fetched0] }).blk.inReset = false ∧ ((sqS { SqAux.reset with queue := [fetched0] }).blk.replayDue (.post 0 0)).1 = none) ∧
    (replayS.blk.inReset = false ∧ ((replayS.blk.sq (.post 0 0)).queue = [fetched0] ∧ (replayS.blk.replayDue (.post 0 0)).1 = some 0 ∧ 0 ≤ replayS.blk.gmc)) := by
  decide +kernel

/-- The hypotheses of Obligations.DescriptorsFetchedAndHandedOver, clause by clause, are met. -/
theorem test_meets_DescriptorsFetchedAndHandedOver_b :
    (upS.blk.inReset = false ∧ sqOrder (.host 0 3) < sqOrder (.host 0 4)) ∧
    (admS.blk.inReset = false ∧ (admS.blk.replayOn (admS.blk.sqPart (.post 0 0)) = false ∧ admS.blk.widthFault 0 fetched0.bytes = none ∧ pawlAtOnce fetched0.bytes = false ∧ admS.blk.admitFault 0 fetched0.bytes = none ∧ (admS.blk.sq (.post 0 0)).queue = [fetched0])) := by
  decide +kernel

/-- The hypotheses of Obligations.HostPortCommands, clause by clause, are met. -/
theorem test_meets_HostPortCommands_a :
    (hostS.blk.inReset = false ∧ (hostS.blk.get .HOST_LINK_RATE ≠ 0 ∧ hostS.blk.link.reads = [] ∧ hostS.blk.link.waits = [] ∧ hostS.blk.link.held = [] ∧ hostS.blk.link.tagless = [] ∧ hostS.blk.link.stalled = [])) ∧
    (upS.blk.inReset = false ∧ (upS.blk.pwr.mainUp = true ∧ upS.blk.pwr.perst = true ∧ upS.blk.link.stalled = [])) ∧
    upS.blk.inReset = false ∧
    (heldS.blk.inReset = false ∧ (heldS.blk.heldAccess 0 5 (.read .slot)).isSome = true) ∧
    (heldS.blk.inReset = false ∧ (heldS.blk.heldAccess 0 5 (.read .slot)).isSome = true) ∧
    (heldWS.blk.inReset = false ∧ (heldWS.blk.heldAccess 0 5 (.dataWrite 9)).isSome = true) := by
  decide +kernel

/-- The hypotheses of Obligations.HostPortCommands, clause by clause, are met. -/
theorem test_meets_HostPortCommands_b :
    (recS.blk.inReset = false ∧ ((recS.blk.link.held.any fun h => h.cq == CqRef.host 0 0) = true ∧ recS.blk.partFn 0 = 0 ∧ recS.blk.cqPage 0 0 = 0)) ∧
    (hostS.blk.inReset = false ∧ hostS.blk.get .HOST_LINK_RATE ≠ 0) ∧
    (vfS.blk.inReset = false ∧ (vfS.blk.pwr.released = true ∧ vfS.blk.fnLive 8 = true)) ∧
    (relS.blk.inReset = false ∧ (relS.blk.pwr.released = true ∧ relS.blk.fnLive 0 = true)) ∧
    upS.blk.inReset = false ∧
    upS.blk.inReset = false := by
  decide +kernel

/-- The hypotheses of Obligations.HostReadsAndFunctionResets, clause by clause, are met. -/
theorem test_meets_HostReadsAndFunctionResets :
    ((readS .slot).blk.inReset = false ∧ ((readS .slot).blk.readDone .slot).isSome = true) ∧
    ((readS (.data 3)).blk.inReset = false ∧ ((readS (.data 3)).blk.readDone (.data 3)).isSome = true) ∧
    (vfS.blk.inReset = false ∧ (vfS.blk.pwr.released = true ∧ vfS.blk.vfLive 8 = true)) ∧
    (relS.blk.inReset = false ∧ (relS.blk.pwr.released = true ∧ relS.blk.link.vfEnable = false ∧ ∀ p < 8, relS.blk.get .PART_GRANT_OWNER p ≠ 1)) := by
  decide +kernel

/-- The hypotheses of Obligations.LaunchesAndJobs, clause by clause, are met. -/
theorem test_meets_LaunchesAndJobs :
    ((jobS { job0 with desc := zeros 64 }).blk.inReset = false ∧ ((jobS { job0 with desc := zeros 64 }).blk.job 4 = some { job0 with desc := zeros 64 } ∧ (jobS { job0 with desc := zeros 64 }).blk.fenceMet job0 = true ∧ Job.startable { job0 with desc := zeros 64 } = true ∧ (jobS { job0 with desc := zeros 64 }).blk.expired { job0 with desc := zeros 64 } = false)) ∧
    (launchS.blk.inReset = false ∧ (launchS.blk.job 4 = some jobL ∧ dOpcode jobL.desc = 0x10 ∧ launchS.blk.fenceMet jobL = true ∧ dMark jobL.desc = false ∧ launchS.blk.launchFault jobL = none ∧ launchS.blk.noTile 0 jobL.dieSel = false)) ∧
    ((launchAtS .admitted).blk.inReset = false ∧ ((launchAtS .admitted).blk.job 4 = some (jobA .admitted) ∧ dOpcode (jobA .admitted).desc = 0x11 ∧ (launchAtS .admitted).blk.launchFault (jobA .admitted) = none ∧ (launchAtS .admitted).blk.noTile 0 (jobA .admitted).dieSel = false ∧ dArg (jobA .admitted).desc 0x18 8 = 2 ^ 40)) ∧
    ((launchAtS (.atCount 4096)).blk.inReset = false ∧ ((launchAtS (.atCount 4096)).blk.job 4 = some (jobA (.atCount 4096)) ∧ 4096 ≤ (launchAtS (.atCount 4096)).blk.gmc + 4096)) ∧
    ((atNowS).blk.inReset = false ∧ ((atNowS).blk.job 4 = some ({ jobA (.ready 3 0) with tasks := 1 } : Job) ∧ dArg (jobA (.ready 3 0)).desc 0x18 8 ≤ (atNowS).blk.gmc)) ∧
    (deadS.blk.inReset = false ∧ (deadS.blk.job 4 = some { job0 with desc := descD } ∧ dDeadline descD ≠ 0 ∧ dDeadline descD ≤ deadS.blk.gmc)) := by
  decide +kernel

/-- The hypotheses of Obligations.ReadyListsAndDispatch, clause by clause, are met. -/
theorem test_meets_ReadyListsAndDispatch_a :
    ((jobS { job0 with phase := .delayed 0 }).blk.inReset = false ∧ ((jobS { job0 with phase := .delayed 0 }).blk.atTick = true ∧ { job0 with phase := .delayed 0 } ∈ (jobS { job0 with phase := .delayed 0 }).blk.hop.jobs ∧ 0 ≤ (jobS { job0 with phase := .delayed 0 }).blk.gmc)) ∧
    (ageS.blk.inReset = false ∧ (ageS.blk.get .HOP_PCTRL_AGE 0 ≠ 0 ∧ { job0 with phase := .ready 2 0 } ∈ ageS.blk.hop.jobs ∧ 0 + ageS.blk.get .HOP_PCTRL_AGE 0 * ageS.blk.tick ≤ ageS.blk.gmc)) ∧
    (dispS.blk.inReset = false ∧ (dispS.blk.held = false ∧ dispS.blk.readyTasks 0 = [readyJob] ∧ readyJob.startable = true ∧ dispS.blk.pwr.furl = .a0 ∧ dispS.blk.tileFor readyJob = some 0)) ∧
    (noTileS.blk.inReset = false ∧ (noTileS.blk.readyTasks 0 = [readyJob, { readyJob with id := 5 }] ∧ noTileS.blk.pwr.furl = .a0 ∧ noTileS.blk.tileFor readyJob = none)) ∧
    (furlJobS.blk.inReset = false ∧ (furlJobS.blk.held = false ∧ furlJobS.blk.readyTasks 0 = [readyJob] ∧ readyJob.startable = true ∧ furlJobS.blk.pwr.furl ≠ .a0)) ∧
    (relS.blk.inReset = false ∧ (relS.blk.buffered 31 = false ∧ (relS.blk.tile 31).ending = none)) := by
  decide +kernel

/-- The hypotheses of Obligations.ReadyListsAndDispatch, clause by clause, are met. -/
theorem test_meets_ReadyListsAndDispatch_b :
    (bufS.blk.inReset = false ∧ (bufS.blk.buffered 31 = true ∧ (bufS.blk.tile 31).ending = none ∧ (bufS.blk.tile 31).task = some (4, 0))) ∧
    (flowS.blk.inReset = false ∧ (flowS.blk.nextFlow = some 1 ∧ (flowS.blk.flowHead 0 1).isSome = true)) := by
  decide +kernel

/-- The hypotheses of Obligations.PawlRequests, clause by clause, are met. -/
theorem test_meets_PawlRequests_a :
    ((pawlS Pawl.reset).blk.inReset = false ∧ ((pawlS Pawl.reset).blk.taskOwner 31 = some (0, 5, 0) ∧ 15 < (pawlS Pawl.reset).blk.get .PART_HOP_PAWL_COUNT 0 ∧ ((pawlS Pawl.reset).blk.pawl ((pawlS Pawl.reset).blk.pawlNo 0 15)).owner = none)) ∧
    ((pawlS held6).blk.inReset = false ∧ ((pawlS held6).blk.taskOwner 31 = some (0, 5, 0) ∧ ((pawlS held6).blk.pawl ((pawlS held6).blk.pawlNo 0 15)).owner = some 6)) ∧
    ((pawlS held6).blk.inReset = false ∧ ((pawlS held6).blk.taskOwner 31 = some (0, 5, 0) ∧ ((pawlS held6).blk.pawl ((pawlS held6).blk.pawlNo 0 15)).owner = some 6)) ∧
    (pawlJobS.blk.inReset = false ∧ (pawlJobS.blk.job 4 = some { job0 with desc := descP } ∧ dOpcode descP = 0x12 ∧ pOp descP = 1 ∧ pawlJobS.blk.pawlFault 0 descP = none ∧ Job.startable { job0 with desc := descP } = true ∧ pawlJobS.blk.expired { job0 with desc := descP } = false)) ∧
    ((pawlS { held6 with owner := some 5 }).blk.inReset = false ∧ ((pawlS { held6 with owner := some 5 }).blk.taskOwner 31 = some (0, 5, 0) ∧ ((pawlS { held6 with owner := some 5 }).blk.pawl ((pawlS { held6 with owner := some 5 }).blk.pawlNo 0 15)).owner = some 5)) ∧
    ((pawlS { held6 with owner := some 5 }).blk.inReset = false ∧ ((pawlS { held6 with owner := some 5 }).blk.taskOwner 31 = some (0, 5, 0) ∧ ((pawlS { held6 with owner := some 5 }).blk.pawl ((pawlS { held6 with owner := some 5 }).blk.pawlNo 0 15)).owner = some 5)) := by
  decide +kernel

/-- The hypotheses of Obligations.PawlRequests, clause by clause, are met. -/
theorem test_meets_PawlRequests_b :
    ((sqS { SqAux.reset with queue := [{ fetched0 with bytes := descR }] }).blk.inReset = false ∧ ((sqS { SqAux.reset with queue := [{ fetched0 with bytes := descR }] }).blk.sq (.post 0 0)).queue = [{ fetched0 with bytes := descR }] ∧ dOpcode descR = 0x12 ∧ pOp descR = 3) ∧
    (upS.blk.inReset = false ∧ (dOpcode (descR.set 34 4) = 0x12 ∧ pOp (descR.set 34 4) = 4)) := by
  decide +kernel

/-- The hypotheses of Obligations.PawlsBreak, clause by clause, are met. -/
theorem test_meets_PawlsBreak :
    ((pawlS held6).blk.inReset = false ∧ ((pawlS held6).blk.pawlNo 0 15 = 15 ∧ ((pawlS held6).blk.pawl 15).owner = some 6 ∧ ((pawlS held6).blk.pawl 15).waiters = [] ∧ 15 < (pawlS held6).blk.get .PART_HOP_PAWL_COUNT 0)) ∧
    ((pawlS Pawl.reset).blk.inReset = false ∧ ((pawlS Pawl.reset).blk.pawl 15).owner = none) ∧
    ((pawlS { held6 with leaseDue := some 0 }).blk.inReset = false ∧ ((pawlS { held6 with leaseDue := some 0 }).blk.pawlPart 15 = some 0 ∧ ((pawlS { held6 with leaseDue := some 0 }).blk.pawl 15).leaseDue = some 0)) ∧
    ((pawlS { held6 with owner := some 5, leaseDue := some 0 }).blk.inReset = false ∧ ((pawlS { held6 with owner := some 5, leaseDue := some 0 }).blk.taskOwner 31 = some (0, 5, 0) ∧ ((pawlS { held6 with owner := some 5, leaseDue := some 0 }).blk.pawl ((pawlS { held6 with owner := some 5, leaseDue := some 0 }).blk.pawlNo 0 15)).owner = some 5 ∧ (pawlS held6).blk.gmc < (pawlS held6).blk.dueAt (pawlS held6).blk.gmc 1)) ∧
    ((pawlS held6).blk.inReset = false ∧ (pawlS held6).blk.pawlPart 15 = some 0) ∧
    (upS.blk.inReset = false ∧ ((63 : Nat) < 64 ∧ Nat.testBit (2 ^ 63) 63 = true)) := by
  decide +kernel

/-- The hypotheses of Obligations.TilePool, clause by clause, are met. -/
theorem test_meets_TilePool_a :
    ((withReg allS .TILE_STATE_STATE 31 tFree).blk.inReset = false ∧ ((withReg allS .TILE_STATE_STATE 31 tFree).blk.tileState 31 = tFree ∧ 31 ∈ (withReg allS .TILE_STATE_STATE 31 tFree).blk.enabledTiles)) ∧
    ((withReg allS .TILE_STATE_STATE 31 tSelftest).blk.inReset = false ∧ ((withReg allS .TILE_STATE_STATE 31 tSelftest).blk.tileState 31 = tSelftest ∧ 31 ∈ (withReg allS .TILE_STATE_STATE 31 tSelftest).blk.enabledTiles)) ∧
    ((withReg allS .TILE_STATE_STATE 31 tFailed).blk.inReset = false ∧ ((withReg allS .TILE_STATE_STATE 31 tFailed).blk.tileState 31 = tFailed ∧ 31 ∈ (withReg allS .TILE_STATE_STATE 31 tFailed).blk.enabledTiles)) ∧
    ((withReg allS .TILE_STATE_STATE 0 tFree).blk.inReset = false ∧ ((withReg allS .TILE_STATE_STATE 0 tFree).blk.tileState 0 = tFree ∧ 0 ∈ (withReg allS .TILE_STATE_STATE 0 tFree).blk.enabledTiles)) ∧
    (32 ∉ allS.blk.enabledTiles) ∧
    ((withReg relS .TILE_STATE_STATE 31 tSelftest).blk.inReset = false ∧ (withReg relS .TILE_STATE_STATE 31 tSelftest).blk.tileState 31 = tSelftest) := by
  decide +kernel

/-- The hypotheses of Obligations.TilePool, clause by clause, are met. -/
theorem test_meets_TilePool_b :
    (bufS.blk.inReset = false ∧ (bufS.blk.tile 31).task = some (4, 0)) := by
  decide +kernel

/-- The hypotheses of Obligations.TileAccesses, clause by clause, are met. -/
theorem test_meets_TileAccesses_a :
    (accS.blk.inReset = false ∧ (accS.blk.tileAccess 31 = some (0, false) ∧ (accS.blk.tile 31).releasing = none ∧ accS.blk.ms.accs = [] ∧ accS.blk.ms.wc = [] ∧ accS.blk.fab.inreqs = [] ∧ accS.blk.destOf 0 0x300000000FF = .aperture 0x300000000FF ∧ memOf 0x300000000FF = none ∧ 0x300000000FF % 128 + 1 ≤ 128)) ∧
    (accS.blk.inReset = false ∧ (accS.blk.tileAccess 31 = some (0, false) ∧ accS.blk.destOf 0 0x30000000000 = .aperture 0x30000000000 ∧ memOf 0x30000000000 = none ∧ 0x30000000000 % 128 + 128 ≤ 128)) ∧
    (accS.blk.inReset = false ∧ (accS.blk.tileAccess 31 = some (0, false) ∧ accS.blk.destOf 0 0x300000000F0 = .aperture 0x300000000F0 ∧ memOf 0x300000000F0 = none ∧ 0x300000000F0 % 16 = 0)) ∧
    (accS.blk.inReset = false ∧ accS.blk.tileAccess 31 = some (0, false)) ∧
    (twoTasksS.blk.inReset = false ∧ (twoTasksS.blk.tileAccess 30 = some (0, false) ∧ twoTasksS.blk.tileAccess 31 = some (0, false) ∧ twoTasksS.blk.ms.accs = [] ∧ twoTasksS.blk.ms.wc = [] ∧ twoTasksS.blk.fab.inreqs = [] ∧ twoTasksS.blk.destOf 0 0x300000000FF = .aperture 0x300000000FF ∧ memOf 0x300000000FF = none ∧ regionOf 0x300000000FF ≠ .tier ∧ (twoTasksS.blk.tile 30).releasing = none ∧ (twoTasksS.blk.tile 31).releasing = none)) ∧
    (relS.blk.inReset = false ∧ relS.blk.tileAccess 0 = none) := by
  decide +kernel

/-- The hypotheses of Obligations.TileAccesses, clause by clause, are met. -/
theorem test_meets_TileAccesses_b :
    (relS.blk.inReset = false ∧ relS.blk.tileAccess 0 = none) := by
  decide +kernel

/-- The hypotheses of Obligations.TranslationAndWriteCombining, clause by clause, are met. -/
theorem test_meets_TranslationAndWriteCombining_a :
    (fillS.blk.inReset = false ∧ ((fillS.blk.ms.fills.find? fun f => decide (f.die = 1 ∧ f.pkg = fillS.blk.pkg ∧ f.part = 0 ∧ f.unit = 3)) = some fill0 ∧ fill0.stale = false ∧ fill0.found = some run0)) ∧
    (fillS.blk.inReset = false ∧ (({ fillS with blk := { fillS.blk with ms := { fillS.blk.ms with fills := [{ fill0 with stale := true }] } } } : State).blk.runs 0 = [])) ∧
    upS.blk.inReset = false ∧
    upS.blk.inReset = false ∧
    (flushS.blk.inReset = false ∧ ((flushS.blk.wcFind 1 flushS.blk.pkg 7).isSome = true ∧ memOf (7 * 128) = some 0 ∧ flushS.blk.memUp 0 = true ∧ (flushS.blk.sluice (slIx 0 0)).run = false)) ∧
    ((jobS (engJob 0x21 [1])).blk.inReset = false ∧ ((jobS (engJob 0x21 [1])).blk.engineStart engTable onTables anyJob (isOp 0x21) 4).map (fun x => invBad x.1.desc) = some true) := by
  decide +kernel

/-- The hypotheses of Obligations.TranslationAndWriteCombining, clause by clause, are met. -/
theorem test_meets_TranslationAndWriteCombining_b :
    ((jobS (engJob 0x21 (zeros 12 ++ [1]))).blk.inReset = false ∧ ((jobS (engJob 0x21 (zeros 12 ++ [1]))).blk.engineStart engTable onTables anyJob (isOp 0x21) 4).map (fun x => (invBad x.1.desc, dArg x.1.desc 0x0C 1)) = some (false, 1)) := by
  decide +kernel

/-- The hypotheses of Obligations.CopyAndPlacement, clause by clause, are met. -/
theorem test_meets_CopyAndPlacement_a :
    ((jobS (engJob 0x20 [])).blk.inReset = false ∧ ((jobS (engJob 0x20 [])).blk.engineStart engMover (isOp 0x20) anyJob anyJob 4).map (fun x => copyBad x.1.desc) = some true) ∧
    ((jobS (engJob 0x20 (zeros 9 ++ [1] ++ zeros 6 ++ [64]))).blk.inReset = false ∧ ((jobS (engJob 0x20 (zeros 9 ++ [1] ++ zeros 6 ++ [64]))).blk.engineStart engMover (isOp 0x20) anyJob anyJob 4).map (fun x => copyBad x.1.desc) = some false) ∧
    ((jobS (engJob 0x22 [])).blk.inReset = false ∧ ((jobS (engJob 0x22 [])).blk.engineStart engTable onTables anyJob (fun j => isOp 0x22 j && plOp j.desc != 2) 4).map (fun x => x.2.placeBad x.1.desc) = some true) ∧
    (placeS.blk.inReset = false ∧ ((placeS.blk.engineStart engTable onTables anyJob (fun j => isOp 0x22 j && plOp j.desc != 2) 4).map (fun x => (x.2.placeBad x.1.desc, match x.2.placeUnits x.1.part x.1.desc with | .done d _ => (d.reachAll (x.2.newMems d x.1.part)).1 | _ => false))) = some (false, true)) ∧
    ((jobS (engJob 0x22 (zeros 8 ++ [1, 0, 0, 0, 1]))).blk.inReset = false ∧ ((((jobS (engJob 0x22 (zeros 8 ++ [1, 0, 0, 0, 1]))).blk.engineStart engTable onTables anyJob (fun j => isOp 0x22 j && plOp j.desc != 2) 4).map (fun x => (x.2.placeBad x.1.desc, match x.2.placeUnits x.1.part x.1.desc with | .done _ _ => false | _ => true))) = some (false, true))) ∧
    ((jobS (engJob 0x22 (zeros 8 ++ [1, 0, 0, 0, 2]))).blk.inReset = false ∧ ((jobS (engJob 0x22 (zeros 8 ++ [1, 0, 0, 0, 2]))).blk.engineStart engTable onTables anyJob (fun j => isOp 0x22 j && plOp j.desc == 2) 4).map (fun x => (x.2.placeBad x.1.desc, x.2.rangeBusy 0 0 1)) = some (false, false)) := by
  decide +kernel

/-- The hypotheses of Obligations.CopyAndPlacement, clause by clause, are met. -/
theorem test_meets_CopyAndPlacement_b :
    ((runsS 3).blk.inReset = false ∧ ((runsS 3).blk.runs 0 = [run0, run1 3] ∧ run0.count = (run1 3).count)) ∧
    ((runsS 4).blk.inReset = false ∧ ((runsS 4).blk.runs 0 = [run0, run1 4] ∧ run0.count ≠ (run1 4).count)) ∧
    (relS.blk.inReset = false ∧ (relS.blk.runs 7)[1024 % 1024]? = none) ∧
    upS.blk.inReset = false := by
  decide +kernel

/-- The hypotheses of Obligations.MemoryIntegrity, clause by clause, are met. -/
theorem test_meets_MemoryIntegrity_a :
    ((withReg relS .TF_SCRUB_EN 1 1).blk.inReset = false ∧ ((withReg relS .TF_SCRUB_EN 1 1).blk.on .TF_SCRUB_EN 1 = true ∧ (withReg relS .TF_SCRUB_EN 1 1).blk.memUp 1 = true ∧ (withReg relS .TF_SCRUB_EN 1 1).blk.patrolDue 1 = true)) ∧
    (rowS.blk.inReset = false ∧ rowS.blk.remapOwed 1 = true) ∧
    (rowS.blk.inReset = false ∧ (Tab.find (Tab.get rowS.blk.ms.rows 1 []) (tfRowKey 0) = some { ce := 0, owed := true } ∧ (tfPch 0 * 64 + tfBank 0) ∉ Tab.get rowS.blk.ms.spareOut 1 [])) ∧
    (rowS.blk.inReset = false ∧ Tab.find (Tab.get rowS.blk.ms.rows 1 []) (tfRowKey 255) = some { ce := 0, owed := true }) ∧
    upS.blk.inReset = false ∧
    ((withReg relS .TS_CHAN_IN_SERVICE 7 1).blk.inReset = false ∧ (withReg relS .TS_CHAN_IN_SERVICE 7 1).blk.on .TS_CHAN_IN_SERVICE 7 = true) := by
  decide +kernel

/-- The hypotheses of Obligations.MemoryIntegrity, clause by clause, are met. -/
theorem test_meets_MemoryIntegrity_b :
    (relS.blk.inReset = false ∧ (9 < 10 ∧ relS.blk.ms.accs = [] ∧ relS.blk.ms.wc = [] ∧ relS.blk.fab.inreqs = [])) := by
  decide +kernel

/-- The hypotheses of Obligations.GovernorReadings, clause by clause, are met. -/
theorem test_meets_GovernorReadings :
    (upS.blk.inReset = false ∧ (upS.blk.pwr.mainUp = true ∧ upS.blk.pwr.perst = true ∧ ∀ d < 2, (upS.blk.die d).tripped = false ∧ tripHot [some 1679, none, some 1759, none, none] d = false)) ∧
    lowS.blk.inReset = true ∧
    (relS.blk.inReset = false ∧ (({ relS with blk := { relS.blk with gov := { Gov.reset with localHold := true } } } : State).blk.atTick = true)) ∧
    (relS.blk.inReset = false ∧ (({ relS with blk := { relS.blk with gov := { Gov.reset with localHold := true } } } : State).blk.atTick = true ∧ bits (relS.blk.get .GOV_STATE_STATES) 10 2 < 3)) := by
  decide +kernel

/-- The hypotheses of Obligations.FabricPortsTrain, clause by clause, are met. -/
theorem test_meets_FabricPortsTrain_a :
    (relS.blk.inReset = false ∧ (relS.blk.pwr.released = true ∧ relS.blk.portState 7 = pOff ∧ relS.blk.modeOk 7 mdHost = true)) ∧
    (relS.blk.inReset = false ∧ relS.blk.modeOk 0 mdTorus = false) ∧
    (relS.blk.inReset = false ∧ relS.blk.portState 7 = pOff) ∧
    ((portS 7 pFenced mdHost).blk.inReset = false ∧ (portS 7 pFenced mdHost).blk.portState 7 = pFenced) ∧
    ((portS 7 pActive mdHost).blk.inReset = false ∧ (portS 7 pActive mdHost).blk.portState 7 = pActive) ∧
    (upS.blk.inReset = false ∧ (3 : Nat) ≠ 0) := by
  decide +kernel

/-- The hypotheses of Obligations.FabricPortsTrain, clause by clause, are met. -/
theorem test_meets_FabricPortsTrain_b :
    ((portS 7 pDetect mdHost).blk.inReset = false ∧ ((portS 7 pDetect mdHost).blk.portState 7 = pDetect ∧ (portS 6 pDown mdHost).blk.portState 6 = pDown)) ∧
    ((portS 7 pEqualise mdHost).blk.inReset = false ∧ (portS 7 pEqualise mdHost).blk.portState 7 = pEqualise) ∧
    ((portS 7 pAlign mdHost).blk.inReset = false ∧ (portS 7 pAlign mdHost).blk.portState 7 = pAlign) ∧
    ((portS 7 pAlign mdHost).blk.inReset = false ∧ (portS 7 pAlign mdHost).blk.portState 7 = pAlign) ∧
    ((portS 7 pStandby mdHost).blk.inReset = false ∧ (portS 7 pStandby mdHost).blk.portState 7 ∉ [pDetect, pDown, pEqualise, pAlign]) ∧
    ((portS 7 pActive mdHost).blk.inReset = false ∧ (portS 7 pActive mdHost).blk.portState 7 = pActive) := by
  decide +kernel

/-- The hypotheses of Obligations.FabricPortsTrain, clause by clause, are met. -/
theorem test_meets_FabricPortsTrain_c :
    (relS.blk.inReset = false ∧ (relS.blk.portState 7 ≠ pActive ∧ relS.blk.portState 7 ≠ pConfig ∧ relS.blk.portState 7 ≠ pRetrain)) ∧
    ((portS 5 pConfig mdTorus).blk.inReset = false ∧ ((portS 5 pConfig mdTorus).blk.portMode 5 = mdTorus ∧ fieldAt (tsBytes 5 mdHost 1) 0 4 = 0x5952424D ∧ fieldAt (tsBytes 5 mdHost 1) 4 1 = 1 ∧ (portS 5 pConfig mdTorus).blk.partnerOk 5 (tsBytes 5 mdHost 1) = false)) ∧
    (let s : State := confS; s.blk.inReset = false ∧ (s.blk.partnerOk 7 (tsBytes 7 mdHost 1) = true ∧ tsCreditsOk (tsBytes 7 mdHost 1) = true ∧ (fieldAt (tsBytes 7 mdHost 1) 7 1).testBit 0 = true ∧ tsIdentity (tsBytes 7 mdHost 1) = (s.blk.port 7).ts ∧ 7 ≤ (s.blk.port 7).tsSame ∧ s.blk.portState 7 = pConfig)) ∧
    ((portS 7 pFenced mdHost).blk.inReset = false ∧ (portS 7 pFenced mdHost).blk.portState 7 = pFenced) ∧
    (relS.blk.inReset = false ∧ relS.blk.portState 7 ≠ pFenced) := by
  decide +kernel

/-- The hypotheses of Obligations.FabricFlitsAndRetry, clause by clause, are met. -/
theorem test_meets_FabricFlitsAndRetry_a :
    ((portS 7 pActive mdHost).blk.inReset = false ∧ ((portS 7 pActive mdHost).blk.portState 7 = pActive ∧ ((portS 7 pActive mdHost).blk.port 7).nakSent = false ∧ flitOk [] = false)) ∧
    ((portX 7 pActive mdHost { Port.reset with nakSent := true }).blk.inReset = false ∧ ((portX 7 pActive mdHost { Port.reset with nakSent := true }).blk.port 7).nakSent = true) ∧
    ((portS 7 pActive mdHost).blk.inReset = false ∧ ((portS 7 pActive mdHost).blk.portState 7 = pActive ∧ flitOk (goodFlit 1 0) = true ∧ bits (fieldAt (goodFlit 1 0) 0 1) 0 4 = 1 ∧ (fieldAt (goodFlit 1 0) 2 2).testBit 12 = false ∧ bits (fieldAt (goodFlit 1 0) 2 2) 0 12 = ((((portS 7 pActive mdHost).blk.bump .PORT_CORR_COUNT 7 0).applyHeader 7 (goodFlit 1 0)).port 7).nextRx)) ∧
    ((portS 7 pActive mdHost).blk.inReset = false ∧ (flitOk (goodFlit 1 4095) = true ∧ bits (fieldAt (goodFlit 1 4095) 2 2) 0 12 = 4095 ∧ ((portS 7 pActive mdHost).blk.port 7).nextRx = 0 ∧ (0 + 4096 - 4095) % 4096 ≤ 2048)) ∧
    ((portS 7 pActive mdHost).blk.inReset = false ∧ ((portS 7 pActive mdHost).blk.portState 7 = pActive ∧ flitOk (goodFlit 0 0) = true ∧ flitReservedOk (goodFlit 0 0) = true ∧ (fieldAt (goodFlit 0 0) 2 2).testBit 12 = false)) ∧
    (upS.blk.inReset = false ∧ (flitOk (goodFlit 0 4096) = true ∧ flitReservedOk (goodFlit 0 4096) = true ∧ (fieldAt (goodFlit 0 4096) 2 2).testBit 12 = true)) := by
  decide +kernel

/-- The hypotheses of Obligations.FabricFlitsAndRetry, clause by clause, are met. -/
theorem test_meets_FabricFlitsAndRetry_b :
    (upS.blk.inReset = false ∧ (flitOk (goodFlit 0x40 0) = true ∧ flitReservedOk (goodFlit 0x40 0) = false ∧ (fieldAt (goodFlit 0x40 0) 2 2).testBit 12 = false)) ∧
    ((portS 7 pActive mdHost).blk.inReset = false ∧ ((portS 7 pActive mdHost).blk.portState 7 = pActive ∧ flitOk [] = false)) ∧
    ((portS 7 pActive mdHost).blk.inReset = false ∧ (portS 7 pActive mdHost).blk.portState 7 = pActive) ∧
    ((portS 7 pActive mdHost).blk.inReset = false ∧ ((portS 7 pActive mdHost).blk.port 7).retry = []) ∧
    ((portX 7 pActive mdHost { Port.reset with retry := [rf0] }).blk.inReset = false ∧ (((portX 7 pActive mdHost { Port.reset with retry := [rf0] }).blk.port 7).retry = [rf0] ∧ ¬(((portX 7 pActive mdHost { Port.reset with retry := [rf0] }).blk.port 7).replayAt = rf0.seq ∧ 7 ≤ ((portX 7 pActive mdHost { Port.reset with retry := [rf0] }).blk.port 7).replays))) ∧
    ((portX 7 pActive mdHost { Port.reset with retry := [rf0], replayAt := 5, replays := 7 }).blk.inReset = false ∧ (((portX 7 pActive mdHost { Port.reset with retry := [rf0], replayAt := 5, replays := 7 }).blk.port 7).retry = [rf0] ∧ rf0.seq = 5)) := by
  decide +kernel

/-- The hypotheses of Obligations.FabricFlitsAndRetry, clause by clause, are met. -/
theorem test_meets_FabricFlitsAndRetry_c :
    ((portS 7 pActive mdHost).blk.inReset = false ∧ (portS 7 pActive mdHost).blk.portState 7 = pActive) ∧
    (relS.blk.inReset = false ∧ relS.blk.portState 7 ≠ pActive) ∧
    ((portX 7 pRetrain mdHost { Port.reset with tsKeep := true }).blk.inReset = false ∧ ((portX 7 pRetrain mdHost { Port.reset with tsKeep := true }).blk.portState 7 = pRetrain ∧ ((portX 7 pRetrain mdHost { Port.reset with tsKeep := true }).blk.port 7).tsKeep = true)) ∧
    ((portS 7 pRetrain mdHost).blk.inReset = false ∧ ((portS 7 pRetrain mdHost).blk.portState 7 = pRetrain ∧ ((portS 7 pRetrain mdHost).blk.port 7).tsKeep = false)) ∧
    (relS.blk.inReset = false ∧ (relS.blk.portState 7 ∉ [pActive, pStandby, pRetrain])) := by
  decide +kernel

/-- The hypotheses of Obligations.PortResets, clause by clause, are met. -/
theorem test_meets_PortResets :
    ((portS 7 pFenced mdHost).blk.inReset = false ∧ ((portS 7 pFenced mdHost).blk.portState 7 = pFenced ∧ (7 : Nat) < 8)) ∧
    ((portS 7 pActive mdHost).blk.inReset = false ∧ (portS 7 pActive mdHost).blk.portState 7 = pActive) ∧
    (upS.blk.inReset = false ∧ 256 % 256 = 0) ∧
    (upS.blk.inReset = false ∧ (3 : Nat) < 4) ∧
    (upS.blk.inReset = false ∧ 16 % 16 = 0) := by
  decide +kernel

/-- The hypotheses of Obligations.FabricRequestsAndResponses, clause by clause, are met. -/
theorem test_meets_FabricRequestsAndResponses_a :
    (relS.blk.inReset = false ∧ (rdM.dest = relS.blk.pkg ∧ relS.blk.pkg < relS.blk.clusterSize ∧ msgShapeOk { mtype := 1, m := rdM } = true)) ∧
    (relS.blk.inReset = false ∧ (wrM.dest = relS.blk.pkg ∧ relS.blk.pkg < relS.blk.clusterSize ∧ msgShapeOk { mtype := 2, m := wrM } = true)) ∧
    (relS.blk.inReset = false ∧ (wmM.dest = relS.blk.pkg ∧ relS.blk.pkg < relS.blk.clusterSize ∧ msgShapeOk { mtype := 3, m := wmM } = true)) ∧
    (relS.blk.inReset = false ∧ (xlM.dest = relS.blk.pkg ∧ relS.blk.pkg < relS.blk.clusterSize ∧ msgShapeOk { mtype := 5, m := xlM } = true)) ∧
    (upS.blk.inReset = false ∧ msgShapeOk { mtype := 3, m := rdM } = false) ∧
    ((portS 7 pActive mdHost).blk.inReset = false ∧ ((portS 7 pActive mdHost).blk.portMode 7 = mdHost ∧ farM.dest ≠ (portS 7 pActive mdHost).blk.pkg ∧ msgShapeOk { mtype := 5, m := farM } = true)) := by
  decide +kernel

/-- The hypotheses of Obligations.FabricRequestsAndResponses, clause by clause, are met. -/
theorem test_meets_FabricRequestsAndResponses_b :
    (ringTopS.blk.inReset = false ∧ (farM.dest < ringTopS.blk.clusterSize ∧ farM.dest ≠ ringTopS.blk.pkg ∧ ringTopS.blk.portMode 1 = mdTorus ∧ msgShapeOk { mtype := 5, m := farM } = true)) ∧
    ((outS 17).blk.inReset = false ∧ (rpM.dest = (outS 17).blk.pkg ∧ (outS 17).blk.pkg < (outS 17).blk.clusterSize ∧ msgShapeOk { mtype := 17, m := rpM } = true ∧ ((outS 17).blk.fab.reqs.find? fun (q : OutReq) => q.tag == rpM.rtag && rspType q.ty == 17 && q.dest == rpM.src) = some (outR 17))) ∧
    ((outS 18).blk.inReset = false ∧ (rpM.dest = (outS 18).blk.pkg ∧ (outS 18).blk.pkg < (outS 18).blk.clusterSize ∧ msgShapeOk { mtype := 18, m := rpM } = true ∧ ((outS 18).blk.fab.reqs.find? fun (q : OutReq) => q.tag == rpM.rtag && rspType q.ty == 18 && q.dest == rpM.src) = some (outR 18))) ∧
    ((outS 21).blk.inReset = false ∧ (rpM.dest = (outS 21).blk.pkg ∧ (outS 21).blk.pkg < (outS 21).blk.clusterSize ∧ msgShapeOk { mtype := 21, m := rpM } = true ∧ ((outS 21).blk.fab.reqs.find? fun (q : OutReq) => q.tag == rpM.rtag && rspType q.ty == 21 && q.dest == rpM.src) = some (outR 21))) ∧
    (lateS.blk.inReset = false ∧ (rpM.rtag ∈ lateS.blk.fab.late ∧ lateS.blk.fab.reqs = [])) ∧
    (relS.blk.inReset = false ∧ (relS.blk.fab.late = [] ∧ relS.blk.fab.reqs = [] ∧ rpM.dest = relS.blk.pkg)) := by
  decide +kernel

/-- The hypotheses of Obligations.FabricRequestsAndResponses, clause by clause, are met. -/
theorem test_meets_FabricRequestsAndResponses_c :
    ((oldS).blk.inReset = false ∧ (((oldS).blk.fab.reqs.find? fun (q : OutReq) => q.tag == 9) = some (outR 0x11) ∧ oldS.blk.get .FAB_CTRL_REQ_TIMEOUT ≤ oldS.blk.ticksFrom (outR 0x11).sentAt)) ∧
    (relS.blk.inReset = false ∧ relS.blk.fab.reqs = []) := by
  decide +kernel

/-- The hypotheses of Obligations.FloodsHoldsAndEpochs, clause by clause, are met. -/
theorem test_meets_FloodsHoldsAndEpochs_a :
    (bigS.blk.inReset = false ∧ (bigS.blk.vc3Bad { mtype := 0x32, m := flM 0 } = false ∧ bigS.blk.floodNew (flM 0) = true)) ∧
    (bigS.blk.inReset = false ∧ (bigS.blk.vc3Bad { mtype := 0x33, m := flM 0 } = false ∧ bigS.blk.floodNew (flM 0) = true)) ∧
    (grpS.blk.inReset = false ∧ (grpS.blk.vc3Bad { mtype := 0x34, m := flM 1 } = false ∧ grpS.blk.floodNew (flM 1) = true ∧ grpS.blk.sharesGroup (bits (flM 1).addr 0 10) = true)) ∧
    (bigS.blk.inReset = false ∧ (bigS.blk.vc3Bad { mtype := 0x34, m := flM 1 } = false ∧ bigS.blk.sharesGroup (bits (flM 1).addr 0 10) = false)) ∧
    (bigS.blk.inReset = false ∧ (bigS.blk.vc3Bad { mtype := 0x35, m := flM 0x105 } = false ∧ bigS.blk.floodNew (flM 0x105) = true ∧ bigS.blk.portLink (bits (flM 0x105).addr 0 10) (bits (flM 0x105).aux 0 3) < 3072)) ∧
    (bigS.blk.inReset = false ∧ (bigS.blk.vc3Bad { mtype := 0x35, m := flM 0x107 } = false ∧ 6 ≤ bits (flM 0x107).aux 0 3)) := by
  decide +kernel

/-- The hypotheses of Obligations.FloodsHoldsAndEpochs, clause by clause, are met. -/
theorem test_meets_FloodsHoldsAndEpochs_b :
    (relS.blk.inReset = false ∧ (relS.blk.vc3Bad { mtype := 0x33, m := Msg.empty } = false ∧ relS.blk.floodNew Msg.empty = false)) ∧
    (relS.blk.inReset = false ∧ relS.blk.vc3Bad { mtype := 0x36, m := { Msg.empty with addr := 8 } } = true) ∧
    ((portX 7 pStandby mdHost { Port.reset with joinAt := some 2 }).blk.inReset = false ∧ ((portX 7 pStandby mdHost { Port.reset with joinAt := some 2 }).blk.portState 7 = pStandby ∧ ((portX 7 pStandby mdHost { Port.reset with joinAt := some 2 }).blk.port 7).joinAt = some 2 ∧ ((portX 7 pStandby mdHost { Port.reset with joinAt := some 2 }).blk.port 7).agreed = false)) ∧
    (relS.blk.inReset = false ∧ (relS.blk.port 7).joinAt = none) ∧
    ((holdsS [{ origin := 1, hold := 0, resume := none, at_ := 0 }]).blk.inReset = false ∧ (∃ h ∈ (holdsS [{ origin := 1, hold := 0, resume := none, at_ := 0 }]).blk.fab.holds, h.hold ≤ 0)) ∧
    (relS.blk.inReset = false ∧ relS.blk.fab.holds = []) := by
  decide +kernel

/-- The hypotheses of Obligations.FloodsHoldsAndEpochs, clause by clause, are met. -/
theorem test_meets_FloodsHoldsAndEpochs_c :
    ((holdsS [{ origin := 1, hold := 0, resume := some 0, at_ := 0 }]).blk.inReset = false ∧ ((holdsS [{ origin := 1, hold := 0, resume := some 0, at_ := 0 }]).blk.fab.holds.all fun h => h.resume == some 0) = true) ∧
    ((holdsS [{ origin := 1, hold := 0, resume := some 0, at_ := 0 }]).blk.inReset = false ∧ ((holdsS [{ origin := 1, hold := 0, resume := some 0, at_ := 0 }]).blk.fab.colls = [] ∧ (holdsS [{ origin := 1, hold := 0, resume := some 0, at_ := 0 }]).blk.gov.fabricHold = false)) ∧
    (relS.blk.inReset = false ∧ relS.blk.fab.holds = []) ∧
    (twoHolds.blk.inReset = false ∧ (twoHolds.blk.fab.holds.find? fun (h : HoldEntry) => h.origin = 1) = some { origin := 1, hold := 0, resume := none, at_ := 0 } ∧ twoHolds.blk.gmc % 2 ^ 20 = 0 ∧ 0 + 50000000 ≤ twoHolds.blk.gmc) ∧
    (twoHolds.blk.inReset = false ∧ (twoHolds.blk.fab.holds.find? fun (h : HoldEntry) => h.origin = 1) = some { origin := 1, hold := 0, resume := none, at_ := 0 }) ∧
    (relS.blk.inReset = false ∧ relS.blk.fab.holds = []) := by
  decide +kernel

/-- The hypotheses of Obligations.FloodsHoldsAndEpochs, clause by clause, are met. -/
theorem test_meets_FloodsHoldsAndEpochs_d :
    (twoHolds.blk.inReset = false ∧ twoHolds.blk.gmc % 2 ^ 20 = 0) ∧
    (upS.blk.inReset = false ∧ (2 ^ 20 + 1) % 2 ^ 20 ≠ 0) := by
  decide +kernel

/-- The hypotheses of Obligations.CollectivesStart, clause by clause, are met. -/
theorem test_meets_CollectivesStart_a :
    ((collS 1).blk.inReset = false ∧ ((collS 1).blk.collStart 1 4).map (fun x => !collBad x.1.desc (x.2.members 63).length && x.2.on .GRP_CFG_EN 63 && x.2.get .GRP_CFG_PART 63 == 0 && x.2.members 63 == [0] && x.2.myRank 63 == 0 && coGroup x.1.desc == 63 && x.2.fab.aborts == []) = some true) ∧
    ((collS 2).blk.inReset = false ∧ ((collS 2).blk.collStart 2 4).map (fun x => !collBad x.1.desc (x.2.members 63).length && x.2.on .GRP_CFG_EN 63 && x.2.get .GRP_CFG_PART 63 == 0 && x.2.members 63 == [0] && x.2.myRank 63 == 0 && coGroup x.1.desc == 63 && x.2.fab.aborts == []) = some true) ∧
    ((collS 3).blk.inReset = false ∧ ((collS 3).blk.collStart 3 4).map (fun x => !collBad x.1.desc (x.2.members 63).length && x.2.on .GRP_CFG_EN 63 && x.2.get .GRP_CFG_PART 63 == 0 && x.2.members 63 == [0] && x.2.myRank 63 == 0 && coGroup x.1.desc == 63 && x.2.fab.aborts == []) = some true) ∧
    ((collS 4).blk.inReset = false ∧ ((collS 4).blk.collStart 4 4).map (fun x => !collBad x.1.desc (x.2.members 63).length && x.2.on .GRP_CFG_EN 63 && x.2.get .GRP_CFG_PART 63 == 0 && x.2.members 63 == [0] && x.2.myRank 63 == 0 && coGroup x.1.desc == 63 && x.2.fab.aborts == []) = some true) ∧
    ((collS 5).blk.inReset = false ∧ ((collS 5).blk.collStart 5 4).map (fun x => !collBad x.1.desc (x.2.members 63).length && x.2.on .GRP_CFG_EN 63 && x.2.get .GRP_CFG_PART 63 == 0 && x.2.members 63 == [0] && x.2.myRank 63 == 0 && coGroup x.1.desc == 63 && x.2.fab.aborts == []) = some true) ∧
    ((jobS (engJob 0x60 [])).blk.inReset = false ∧ ((jobS (engJob 0x60 [])).blk.collStart 1 4).map (fun x => collBad x.1.desc 0) = some true) := by
  decide +kernel

/-- The hypotheses of Obligations.CollectivesStart, clause by clause, are met. -/
theorem test_meets_CollectivesStart_b :
    ((jobS (collJob 5)).blk.inReset = false ∧ ((jobS (collJob 5)).blk.collStart 5 4).map (fun x => (collBad x.1.desc 0, x.2.on .GRP_CFG_EN 63)) = some (false, false)) ∧
    ((abortS).blk.inReset = false ∧ ((abortS).blk.collStart 5 4).map (fun x => !collBad x.1.desc (x.2.members 63).length && x.2.on .GRP_CFG_EN 63 && x.2.get .GRP_CFG_PART 63 == 0 && x.2.fab.aborts == [(63, 0, 0x93)]) = some true) ∧
    (farS.blk.inReset = false ∧ (farS.blk.collStart 5 4).map (fun x => !collBad x.1.desc (x.2.members 63).length && x.2.on .GRP_CFG_EN 63 && x.2.get .GRP_CFG_PART 63 == 0 && x.2.myRank 63 == 0 && x.2.members 63 == [0, 1] && (x.2.injectAt 1).isNone) = some true) ∧
    (relS.blk.inReset = false ∧ (relS.blk.collStart 5 4).isNone = true) := by
  decide +kernel

/-- The hypotheses of Obligations.CollectiveMessages, clause by clause, are met. -/
theorem test_meets_CollectiveMessages_a :
    (grpS.blk.inReset = false ∧ (grpS.blk.rankOf (msgGroup cuM) cuM.src = some 1 ∧ msgShapeOk { mtype := 0x21, m := cuM } = true ∧ cuM.dest = grpS.blk.pkg ∧ grpS.blk.pkg < grpS.blk.clusterSize)) ∧
    (runCollS.blk.inReset = false ∧ (runCollS.blk.coll (msgGroup cdM) = some coll0 ∧ coll0.seq = msgSeq cdM ∧ msgShapeOk { mtype := 0x22, m := cdM } = true)) ∧
    (grpS.blk.inReset = false ∧ (grpS.blk.coll (msgGroup cdM) = none ∧ msgShapeOk { mtype := 0x22, m := cdM } = true)) ∧
    (runCollS.blk.inReset = false ∧ (runCollS.blk.coll (msgGroup caM) = some coll0 ∧ coll0.seq = msgSeq caM ∧ msgShapeOk { mtype := 0x23, m := caM } = true ∧ caM.dest = runCollS.blk.pkg)) ∧
    (grpS.blk.inReset = false ∧ (grpS.blk.coll (msgGroup caM) = none ∧ grpS.blk.fab.aborts = [] ∧ (msgSeq caM + 2 ^ 32 - Tab.get grpS.blk.fab.nextSeq (msgGroup caM) 0) % 2 ^ 32 < 2 ^ 31)) ∧
    (runCollS.blk.inReset = false ∧ (runCollS.blk.coll (msgGroup caM) = some coll0 ∧ runCollS.blk.rankOf (msgGroup caM) caM.src = some 1 ∧ msgChunk caM ∈ Tab.get coll0.unacked 1 [] ∧ msgShapeOk { mtype := 0x24, m := caM } = true)) := by
  decide +kernel

/-- The hypotheses of Obligations.CollectiveMessages, clause by clause, are met. -/
theorem test_meets_CollectiveMessages_b :
    (grpS.blk.inReset = false ∧ (grpS.blk.coll (msgGroup caM) = none ∧ msgShapeOk { mtype := 0x24, m := caM } = true)) ∧
    (upS.blk.inReset = false ∧ msgShapeOk { mtype := 0x21, m := Msg.empty } = false) ∧
    (let s : State := lateCollS; s.blk.inReset = false ∧ (s.blk.coll 63 = some coll0 ∧ s.blk.get .FAB_CTRL_COLL_TIMEOUT < s.blk.ticksFrom coll0.since ∧ s.blk.held = false ∧ (s.blk.job coll0.job).map (fun j => s.blk.collWaits j coll0) = some true)) ∧
    (relS.blk.inReset = false ∧ relS.blk.coll 63 = none) := by
  decide +kernel

/-- The hypotheses of Obligations.MillCountAndCog, clause by clause, are met. -/
theorem test_meets_MillCountAndCog_a :
    (leafS.blk.inReset = false ∧ (leafS.blk.isRoot = false ∧ leafS.blk.gs.rejoin = none ∧ 7 ≠ leafS.blk.get .GMC_STATUS_PARENT)) ∧
    (leafS.blk.inReset = false ∧ (leafS.blk.get .GMC_STATUS_PARENT = 1 ∧ leafS.blk.exchange 1 Msg.empty (leafS.blk.stamp 15) = none)) ∧
    (leafS.blk.inReset = false ∧ (leafS.blk.get .GMC_STATUS_PARENT = 1 ∧ leafS.blk.exchange 1 syM (leafS.blk.stamp 0) = some (0, 0))) ∧
    (leafS.blk.inReset = false ∧ leafS.blk.portState 1 = pActive) ∧
    (relS.blk.inReset = false ∧ (∀ n < 8, relS.blk.portState n ≠ pStandby ∧ relS.blk.portState n ≠ pActive)) ∧
    (let s : State := withReg { leafS with blk := { leafS.blk with gmc := 262144 } } .GMC_STATUS_STATE 0 gLocked; s.blk.inReset = false ∧ (s.blk.gState = gLocked ∧ s.blk.isRoot = false ∧ s.blk.gs.lastUsed + 262144 ≤ s.blk.gmc)) := by
  decide +kernel

/-- The hypotheses of Obligations.MillCountAndCog, clause by clause, are met. -/
theorem test_meets_MillCountAndCog_b :
    (relS.blk.inReset = false ∧ relS.blk.isRoot = true) ∧
    ([FVal.nan][0]? = some FVal.nan) ∧
    upS.blk.inReset = false := by
  decide +kernel

/-- The hypotheses of Obligations.MarksAndMarkStore, clause by clause, are met. -/
theorem test_meets_MarksAndMarkStore_a :
    upS.blk.inReset = false ∧
    (relS.blk.inReset = false ∧ (let b : Block := relS.blk.given (absorbAgent 7) [] []; (match b.engRead 2 7 none (b.get .MK_ADDR_ADDR 7) (b.get .MK_LEN_LEN 7) with | (.ok l, b) => some (l, b.ms.eng.stall) | _ => none) = some ([], none))) ∧
    ((withReg (withReg relS .MK_LEN_LEN 7 64) .MK_ADDR_ADDR 7 0x3FFFFFFFFFFC0).blk.inReset = false ∧ (let b : Block := (withReg (withReg relS .MK_LEN_LEN 7 64) .MK_ADDR_ADDR 7 0x3FFFFFFFFFFC0).blk.given (absorbAgent 7) [] []; (match b.engRead 2 7 none (b.get .MK_ADDR_ADDR 7) (b.get .MK_LEN_LEN 7) with | (.error _, b) => some b.ms.eng.stall | _ => none) = some none)) ∧
    (relS.blk.inReset = false ∧ firstFrom (fun i => !relS.blk.msUsedAt i) msSlots 0 = some 0) ∧
    upS.blk.inReset = false ∧
    upS.blk.inReset = false := by
  decide +kernel

/-- The hypotheses of Obligations.MarksAndMarkStore, clause by clause, are met. -/
theorem test_meets_MarksAndMarkStore_b :
    (upS.blk.inReset = false ∧ 0x7A12 ≠ 0x7A11) ∧
    (mkS.blk.inReset = false ∧ ((mkS.blk.given (jobAgent 4) [] []).job 4 = some mkJob ∧ (mkS.blk.given (jobAgent 4) [] []).markDue mkJob = true ∧ ((inputMarkM { die := 2, part := 0, job := 4 } ((mkS.blk.given (jobAgent 4) [] []).get .IMAGE_MARK_MARK) ((mkS.blk.given (jobAgent 4) [] []).capture mkJob)).go (mkS.blk.given (jobAgent 4) [] [])).1.toOption.isSome = true ∧ ((mkS.blk.given (jobAgent 4) [] []).inputMark 4).ms.eng.stall = none)) ∧
    ((jobS outJob).blk.inReset = false ∧ (((jobS outJob).blk.given (jobAgent 4) [] []).job 4 = some outJob ∧ dOutMark outJob.desc = false ∧ (((jobS outJob).blk.given (jobAgent 4) [] []).outputMark 4).ms.eng.stall = none)) ∧
    ((jobS outMkJob).blk.inReset = false ∧ (((jobS outMkJob).blk.given (jobAgent 4) [] []).job 4 = some outMkJob ∧ dOutMark outMkJob.desc = true ∧ ((markOutput { die := 2, part := 0, job := 4 } outMkJob 0).go ((jobS outMkJob).blk.given (jobAgent 4) [] [])).1.toOption.isSome = true ∧ (((jobS outMkJob).blk.given (jobAgent 4) [] []).outputMark 4).ms.eng.stall = none)) ∧
    ((jobS outBadJob).blk.inReset = false ∧ (((jobS outBadJob).blk.given (jobAgent 4) [] []).job 4 = some outBadJob ∧ dOutMark outBadJob.desc = true ∧ ((markOutput { die := 2, part := 0, job := 4 } outBadJob 0).go ((jobS outBadJob).blk.given (jobAgent 4) [] [])).1.toOption.isNone = true ∧ (((jobS outBadJob).blk.given (jobAgent 4) [] []).outputMark 4).ms.eng.stall = none)) ∧
    (relS.blk.inReset = false ∧ (relS.blk.given (jobAgent 4) [] []).job 4 = none) := by
  decide +kernel

/-- The hypotheses of Obligations.MarksAndMarkStore, clause by clause, are met. -/
theorem test_meets_MarksAndMarkStore_c :
    (frameRecS.blk.inReset = false ∧ (frameRecS.blk.replayOn 0 = true ∧ (match frameRecS.blk.nextFrame 0 with | (some (some r), b) => decide ((r.arrival + b.get .REPLAY_OFFSET_COUNTS 0) % 2 ^ 64 ≤ b.gmc) | _ => false) = true)) ∧
    (let s : State := withReg frameRecS .REPLAY_OFFSET_COUNTS 0 1; s.blk.inReset = false ∧ (s.blk.replayOn 0 = true ∧ (match s.blk.nextFrame 0 with | (some (some r), b) => decide (b.gmc < (r.arrival + b.get .REPLAY_OFFSET_COUNTS 0) % 2 ^ 64) | _ => false) = true)) ∧
    (let s : State := withReg frameRecS .REPLAY_SIZE_SIZE 0 0; s.blk.inReset = false ∧ (s.blk.replayOn 0 = true ∧ (match (s.blk.nextFrame 0).1 with | some none => true | _ => false) = true)) ∧
    (relS.blk.inReset = false ∧ relS.blk.replayOn 7 = false) := by
  decide +kernel

/-- The hypotheses of Obligations.BolterUnits, clause by clause, are met. -/
theorem test_meets_BolterUnits_a :
    ((regTileS).blk.inReset = false ∧ ((regTileS).blk.boltOk 31 [31, 30] 3 9 = true)) ∧
    (regTileS.blk.inReset = false ∧ (regTileS.blk.boltOk 31 [0, 1, 31, 30] 1 0 = true)) ∧
    ((regTileS).blk.inReset = false ∧ ((regTileS).blk.boltOk 31 [31, 30] 3 9 = true)) ∧
    (relS.blk.inReset = false ∧ relS.blk.boltOk 31 [0, 1] 1 0 = false) ∧
    (selS.blk.inReset = false ∧ (let c : Block := selS.blk.given (jobAgent 4) [] []; (c.selStart 4).1.map (fun x => (x.2.selArgsBad 0 x.1.desc, ((x.2.selWorks x.1).engRead (tileDie ((x.2.selUsed x.1).headD 0)) 0 (some 4) (seParams x.1.desc) 128).1.toOption.map (fun l => selBlkBad x.1.desc (selBlk l)))) = some (none, some none) ∧ (c.select 4 []).ms.eng.stall = none)) ∧
    ((jobS (engJob 0x40 [])).blk.inReset = false ∧ (let c : Block := (jobS (engJob 0x40 [])).blk.given (jobAgent 4) [] []; (c.selStart 4).1.map (fun x => x.2.selArgsBad 0 x.1.desc) = some (some 0xC8) ∧ (c.select 4 []).ms.eng.stall = none)) := by
  decide +kernel

/-- The hypotheses of Obligations.BolterUnits, clause by clause, are met. -/
theorem test_meets_BolterUnits_b :
    (selS.blk.inReset = false ∧ (let c : Block := ({ selS with blk := { selS.blk with mem := [] } } : State).blk.given (jobAgent 4) [] []; (c.selStart 4).1.map (fun x => (x.2.selArgsBad 0 x.1.desc, ((x.2.selWorks x.1).engRead (tileDie ((x.2.selUsed x.1).headD 0)) 0 (some 4) (seParams x.1.desc) 128).1.toOption.map (fun l => selBlkBad x.1.desc (selBlk l)))) = some (none, some (some 0xC8)) ∧ (c.select 4 []).ms.eng.stall = none)) ∧
    (relS.blk.inReset = false ∧ ((relS.blk.given (jobAgent 4) [] []).selStart 4).1.isNone = true ∧ ((relS.blk.given (jobAgent 4) [] []).select 4 []).ms.eng.stall = none) ∧
    (let b : Block := selS.blk; let s : State := { selS with blk := { b with ms := { b.ms with runs := [(0, [run1 1])] }, hop := { b.hop with jobs := [engJob 0x40 (leBytes 8 (8 * unitBytes) ++ leBytes 4 1 ++ leBytes 4 1 ++ [1])] }, dies := [Die.reset, { Die.reset with recovering := true }] } }; s.blk.inReset = false ∧ (((s.blk.given (jobAgent 4) [] []).select 4 []).ms.eng.stall.isSome = true)) := by
  decide +kernel

/-- The hypotheses of Obligations.QuernSolves, clause by clause, are met. -/
theorem test_meets_QuernSolves_a :
    ((solS 1).blk.inReset = false ∧ (let c : Block := (solS 1).blk.given (jobAgent 4) [] []; (c.solveStart 1 4).1.map (fun x => (soMethod x.1.desc, ((x.2.solveWorks x.1.desc).rd { die := x.2.solveDie x.1.desc, part := 0, job := 4 } (soParams x.1.desc) 128).1.toOption.map (fun l => solveFault x.1.desc l 1))) = some (1, some none) ∧ (c.solve 1 4 [] none).ms.eng.stall = none)) ∧
    ((solS 2).blk.inReset = false ∧ (let c : Block := (solS 2).blk.given (jobAgent 4) [] []; (c.solveStart 2 4).1.map (fun x => (soMethod x.1.desc, ((x.2.solveWorks x.1.desc).rd { die := x.2.solveDie x.1.desc, part := 0, job := 4 } (soParams x.1.desc) 128).1.toOption.map (fun l => solveFault x.1.desc l 2))) = some (2, some none) ∧ (c.solve 2 4 [] none).ms.eng.stall = none)) ∧
    ((solS 3).blk.inReset = false ∧ (let c : Block := (solS 3).blk.given (jobAgent 4) [] []; (c.solveStart 3 4).1.map (fun x => (soMethod x.1.desc, ((x.2.solveWorks x.1.desc).rd { die := x.2.solveDie x.1.desc, part := 0, job := 4 } (soParams x.1.desc) 128).1.toOption.map (fun l => solveFault x.1.desc l 3))) = some (3, some none) ∧ (c.solve 3 4 [] none).ms.eng.stall = none)) ∧
    ((solS 4).blk.inReset = false ∧ (let c : Block := (solS 4).blk.given (jobAgent 4) [] []; (c.solveStart 4 4).1.map (fun x => (soMethod x.1.desc, ((x.2.solveWorks x.1.desc).rd { die := x.2.solveDie x.1.desc, part := 0, job := 4 } (soParams x.1.desc) 128).1.toOption.map (fun l => solveFault x.1.desc l 4))) = some (4, some none) ∧ (c.solve 4 4 [] none).ms.eng.stall = none)) ∧
    ((solS 5).blk.inReset = false ∧ (let c : Block := (solS 5).blk.given (jobAgent 4) [] []; (c.solveStart 5 4).1.map (fun x => (soMethod x.1.desc, ((x.2.solveWorks x.1.desc).rd { die := x.2.solveDie x.1.desc, part := 0, job := 4 } (soParams x.1.desc) 128).1.toOption.map (fun l => solveFault x.1.desc l 5))) = some (5, some none) ∧ (c.solve 5 4 [] none).ms.eng.stall = none)) ∧
    ((solS 6).blk.inReset = false ∧ (let c : Block := (solS 6).blk.given (jobAgent 4) [] []; (c.solveStart 6 4).1.map (fun x => (soMethod x.1.desc, ((x.2.solveWorks x.1.desc).rd { die := x.2.solveDie x.1.desc, part := 0, job := 4 } (soParams x.1.desc) 128).1.toOption.map (fun l => solveFault x.1.desc l 1))) = some (6, some none) ∧ (c.solve 6 4 [] none).ms.eng.stall = none)) := by
  decide +kernel

/-- The hypotheses of Obligations.QuernSolves, clause by clause, are met. -/
theorem test_meets_QuernSolves_b :
    ((solS 5).blk.inReset = false ∧ (let c : Block := ({ solS 5 with blk := { (solS 5).blk with mem := [] } } : State).blk.given (jobAgent 4) [] []; (c.solveStart 5 4).1.map (fun x => (soMethod x.1.desc, ((x.2.solveWorks x.1.desc).rd { die := x.2.solveDie x.1.desc, part := 0, job := 4 } (soParams x.1.desc) 128).1.toOption.map (fun l => solveFault x.1.desc l 5))) = some (5, some (some 0xD0)) ∧ (c.solve 5 4 [] none).ms.eng.stall = none)) ∧
    ((jobS (solJob 6)).blk.inReset = false ∧ (let c : Block := (jobS (solJob 6)).blk.given (jobAgent 4) [] []; (c.solveStart 6 4).1.map (fun x => (soMethod x.1.desc, ((x.2.solveWorks x.1.desc).rd { die := x.2.solveDie x.1.desc, part := 0, job := 4 } (soParams x.1.desc) 128).1.toOption.isNone)) = some (6, true) ∧ (c.solve 6 4 [] none).ms.eng.stall = none)) ∧
    (relS.blk.inReset = false ∧ (((relS.blk.given (jobAgent 4) [] []).solveStart 6 4).1.isNone = true ∧ ((relS.blk.given (jobAgent 4) [] []).solve 6 4 [] none).ms.eng.stall = none)) ∧
    (let b : Block := (solS 6).blk; let s : State := { solS 6 with blk := { b with ms := { b.ms with runs := [(0, [run0])] }, hop := { b.hop with jobs := [engJob 0x50 (leBytes 8 (3 * unitBytes) ++ [6, 0, 0, 2])] }, dies := [{ Die.reset with recovering := true }] } }; s.blk.inReset = false ∧ (((s.blk.given (jobAgent 4) [] []).solve 6 4 [] none).ms.eng.stall.isSome = true)) := by
  decide +kernel

/-- The hypotheses of Obligations.WorldCheckAndPlan, clause by clause, are met. -/
theorem test_meets_WorldCheckAndPlan_a :
    ((worldS 0 1).blk.inReset = false ∧ (let c : Block := (worldS 0 1).blk.given (jobAgent 4) [] []; (c.checkersStart (buildNames opBuild) 4).1.bind (fun x => match (wuRead { die := 0, part := 0, job := 4 } x.1.desc).go (x.2.dieWorks 0) with | (.ok (h, r), b) => some (b.wuFault 0 x.1.desc h r) | _ => none) = some none ∧ (c.checkersStart (buildNames opBuild) 4).1.map (fun x => x.2.engDie x.1) = some (some 0) ∧ (c.build opBuild 4).ms.eng.stall = none)) ∧
    ((worldS 1 2).blk.inReset = false ∧ (let c : Block := (worldS 1 2).blk.given (jobAgent 4) [] []; (c.checkersStart (buildNames opSlices) 4).1.bind (fun x => match (wuRead { die := 0, part := 0, job := 4 } x.1.desc).go (x.2.dieWorks 0) with | (.ok (h, r), b) => some (b.wuFault 0 x.1.desc h r) | _ => none) = some none ∧ (c.checkersStart (buildNames opSlices) 4).1.map (fun x => x.2.engDie x.1) = some (some 0) ∧ (c.build opSlices 4).ms.eng.stall = none)) ∧
    ((jobS (engJob 0x30 [])).blk.inReset = false ∧ (let c : Block := (jobS (engJob 0x30 [])).blk.given (jobAgent 4) [] []; (c.checkersStart (buildNames opBuild) 4).1.bind (fun x => match (wuRead { die := 0, part := 0, job := 4 } x.1.desc).go (x.2.dieWorks 0) with | (.ok (h, r), b) => b.wuFault 0 x.1.desc h r | _ => none) = some 0xE0 ∧ (c.checkersStart (buildNames opBuild) 4).1.map (fun x => x.2.engDie x.1) = some (some 0) ∧ (c.build opBuild 4).ms.eng.stall = none)) ∧
    ((jobS (engJob 0x30 (zeros 24 ++ [1]))).blk.inReset = false ∧ (let c : Block := (jobS (engJob 0x30 (zeros 24 ++ [1]))).blk.given (jobAgent 4) [] []; (c.checkersStart (buildNames opBuild) 4).1.bind (fun x => match (wuRead { die := 0, part := 0, job := 4 } x.1.desc).go (x.2.dieWorks 0) with | (.error _, _) => some true | _ => none) = some true ∧ (c.checkersStart (buildNames opBuild) 4).1.map (fun x => x.2.engDie x.1) = some (some 0) ∧ (c.build opBuild 4).ms.eng.stall = none)) ∧
    (relS.blk.inReset = false ∧ (((relS.blk.given (jobAgent 4) [] []).checkersStart (buildNames opBuild) 4).1.isNone = true ∧ ((relS.blk.given (jobAgent 4) [] []).build opBuild 4).ms.eng.stall = none)) ∧
    ((worldS 1 3).blk.inReset = false ∧ (((worldS 1 3).blk.given (jobAgent 4) [] []).hubStart opSwap 4).bind (fun x => match (wuRead { die := 2, part := 0, job := 4 } x.1.desc).go x.2 with | (.ok (h, r), b) => some ((b.wuFault 0 x.1.desc h r).isNone && ((do writeM { die := 2, part := 0, job := 4 } (wuHeader x.1.desc + 0x60) [byteOf eCurrent]; writeM { die := 2, part := 0, job := 4 } (wuHeader x.1.desc + 0x78) (leBytes 8 b.gmc) : EngM Unit).go b).1.toOption.isSome) | _ => none) = some true ∧ (((worldS 1 3).blk.given (jobAgent 4) [] []).swap 4).ms.eng.stall = none) := by
  decide +kernel

/-- The hypotheses of Obligations.WorldCheckAndPlan, clause by clause, are met. -/
theorem test_meets_WorldCheckAndPlan_b :
    ((worldS 2 4).blk.inReset = false ∧ (((worldS 2 4).blk.given (jobAgent 4) [] []).hubStart opRefresh 4).bind (fun x => match (wuRead { die := 2, part := 0, job := 4 } x.1.desc).go x.2 with | (.ok (h, r), b) => some (b.wuFault 0 x.1.desc h r) | _ => none) = some none ∧ (((worldS 2 4).blk.given (jobAgent 4) [] []).refresh 4).ms.eng.stall = none) ∧
    ((worldS 3 3).blk.inReset = false ∧ (((worldS 3 3).blk.given (jobAgent 4) [] []).hubStart opSwap 4).bind (fun x => match (wuRead { die := 2, part := 0, job := 4 } x.1.desc).go x.2 with | (.ok (h, r), b) => b.wuFault 0 x.1.desc h r | _ => none) = some 0xE2 ∧ (((worldS 3 3).blk.given (jobAgent 4) [] []).swap 4).ms.eng.stall = none) ∧
    (relS.blk.inReset = false ∧ ((relS.blk.given (jobAgent 4) [] []).hubStart opSwap 4).isNone = true) ∧
    ((swapS).blk.inReset = false ∧ (((swapS).blk.given (jobAgent 4) [] []).job 4).bind (fun j => match (readM { die := 2, part := 0, job := 4 } (wuHeader j.desc) 128).go ((swapS).blk.given (jobAgent 4) [] []) with | (.ok h, b) => some (isOp 0x30 j && wuOp j.desc == 3 && hPrev h == 0) | _ => none) = some true ∧ (((swapS).blk.given (jobAgent 4) [] []).swapRetire 4).ms.eng.stall = none) ∧
    ((swap2S).blk.inReset = false ∧ (((swap2S).blk.given (jobAgent 4) [] []).job 4).bind (fun j => match (readM { die := 2, part := 0, job := 4 } (wuHeader j.desc) 128).go ((swap2S).blk.given (jobAgent 4) [] []) with | (.ok h, b) => some (isOp 0x30 j && wuOp j.desc == 3 && hPrev h != 0 && !((swap2S.blk.given (jobAgent 4) [] []).epochHeld (worldIx 0 (wuWorld j.desc)) (hPrev h)) && ((writeM { die := 2, part := 0, job := 4 } (hPrev h + 0x60) [byteOf eRetired]).go b).1.toOption.isSome) | _ => none) = some true ∧ (((swap2S).blk.given (jobAgent 4) [] []).swapRetire 4).ms.eng.stall = none) ∧
    ((swap3S).blk.inReset = false ∧ (((swap3S).blk.given (jobAgent 4) [] []).job 4).bind (fun j => match (readM { die := 2, part := 0, job := 4 } (wuHeader j.desc) 128).go ((swap3S).blk.given (jobAgent 4) [] []) with | (.ok h, b) => some (isOp 0x30 j && wuOp j.desc == 3 && hPrev h != 0 && (swap3S.blk.given (jobAgent 4) [] []).epochHeld (worldIx 0 (wuWorld j.desc)) (hPrev h)) | _ => none) = some true ∧ (((swap3S).blk.given (jobAgent 4) [] []).swapRetire 4).ms.eng.stall = none) := by
  decide +kernel

/-- The hypotheses of Obligations.WorldCheckAndPlan, clause by clause, are met. -/
theorem test_meets_WorldCheckAndPlan_c :
    (relS.blk.inReset = false ∧ ((relS.blk.given (jobAgent 4) [] []).job 4).isNone = true) ∧
    upS.blk.inReset = false ∧
    (chkS.blk.inReset = false ∧ (let c : Block := chkS.blk.given (jobAgent 4) [] []; (c.checkersStart (isOp 0x31) 4).1.bind (fun x => match (readCheck { die := 0, part := 0, job := 4 } x.1.desc (((x.2.dieWorks 0).capture x.1).epoch.getD 0)).go (x.2.dieWorks 0) with | (.ok (.ok _), _) => some true | _ => none) = some true ∧ (c.checkersStart (isOp 0x31) 4).1.map (fun x => x.2.engDie x.1) = some (some 0) ∧ (c.checkAndRevoke 4 [1]).ms.eng.stall = none)) ∧
    ((jobS (engJob 0x31 [1])).blk.inReset = false ∧ (let c : Block := (jobS (engJob 0x31 [1])).blk.given (jobAgent 4) [] []; (c.checkersStart (isOp 0x31) 4).1.bind (fun x => match (readCheck { die := 0, part := 0, job := 4 } x.1.desc (((x.2.dieWorks 0).capture x.1).epoch.getD 0)).go (x.2.dieWorks 0) with | (.ok (.error _), _) => some true | _ => none) = some true ∧ (c.checkersStart (isOp 0x31) 4).1.map (fun x => x.2.engDie x.1) = some (some 0) ∧ (c.checkAndRevoke 4 [1]).ms.eng.stall = none)) ∧
    ((jobS (engJob 0x31 (zeros 8 ++ [1]))).blk.inReset = false ∧ (let c : Block := (jobS (engJob 0x31 (zeros 8 ++ [1]))).blk.given (jobAgent 4) [] []; (c.checkersStart (isOp 0x31) 4).1.bind (fun x => match (readCheck { die := 0, part := 0, job := 4 } x.1.desc (((x.2.dieWorks 0).capture x.1).epoch.getD 0)).go (x.2.dieWorks 0) with | (.error _, _) => some true | _ => none) = some true ∧ (c.checkersStart (isOp 0x31) 4).1.map (fun x => x.2.engDie x.1) = some (some 0) ∧ (c.checkAndRevoke 4 [1]).ms.eng.stall = none)) ∧
    (relS.blk.inReset = false ∧ (((relS.blk.given (jobAgent 4) [] []).checkersStart (isOp 0x31) 4).1.isNone = true ∧ ((relS.blk.given (jobAgent 4) [] []).checkAndRevoke 4 [1]).ms.eng.stall = none)) := by
  decide +kernel

/-- The hypotheses of Obligations.WorldCheckAndPlan, clause by clause, are met. -/
theorem test_meets_WorldCheckAndPlan_d :
    (plnS.blk.inReset = false ∧ (let c : Block := plnS.blk.given (jobAgent 4) [] []; (c.checkersStart (isOp 0x32) 4).1.bind (fun x => match (readPlan { die := 0, part := 0, job := 4 } x.1.desc (((x.2.dieWorks 0).capture x.1).epoch.getD 0)).go (x.2.dieWorks 0) with | (.ok (.ok _), _) => some true | _ => none) = some true ∧ (c.checkersStart (isOp 0x32) 4).1.map (fun x => x.2.engDie x.1) = some (some 0) ∧ (c.plan 4 [1] none).ms.eng.stall = none)) ∧
    ((jobS (engJob 0x32 [1])).blk.inReset = false ∧ (let c : Block := (jobS (engJob 0x32 [1])).blk.given (jobAgent 4) [] []; (c.checkersStart (isOp 0x32) 4).1.bind (fun x => match (readPlan { die := 0, part := 0, job := 4 } x.1.desc (((x.2.dieWorks 0).capture x.1).epoch.getD 0)).go (x.2.dieWorks 0) with | (.ok (.error _), _) => some true | _ => none) = some true ∧ (c.checkersStart (isOp 0x32) 4).1.map (fun x => x.2.engDie x.1) = some (some 0) ∧ (c.plan 4 [1] none).ms.eng.stall = none)) ∧
    ((jobS (engJob 0x32 (zeros 8 ++ [0]))).blk.inReset = false ∧ (let c : Block := (jobS (engJob 0x32 (zeros 8 ++ [0]))).blk.given (jobAgent 4) [] []; (c.checkersStart (isOp 0x32) 4).1.bind (fun x => match (readPlan { die := 0, part := 0, job := 4 } x.1.desc (((x.2.dieWorks 0).capture x.1).epoch.getD 0)).go (x.2.dieWorks 0) with | (.error _, _) => some true | _ => none) = some true ∧ (c.checkersStart (isOp 0x32) 4).1.map (fun x => x.2.engDie x.1) = some (some 0) ∧ (c.plan 4 [1] none).ms.eng.stall = none)) ∧
    (relS.blk.inReset = false ∧ (((relS.blk.given (jobAgent 4) [] []).checkersStart (isOp 0x32) 4).1.isNone = true ∧ ((relS.blk.given (jobAgent 4) [] []).plan 4 [1] none).ms.eng.stall = none)) := by
  decide +kernel

/-- The hypotheses of Obligations.MillerAndTenter, clause by clause, are met. -/
theorem test_meets_MillerAndTenter_a :
    (upS.blk.inReset = false ∧ (∃ i < max 1 8, coreMay 3 (0x104FFFFC + i) false = false)) ∧
    (upS.blk.inReset = false ∧ (∀ i < max 1 4, coreMay 3 (0x104FFFFC + i) true = true)) ∧
    (relS.blk.inReset = false ∧ (relS.blk.strike []).get .PART_GRANT_OWNER ((relS.blk.strike []).get .M_PART_PART 3) ≠ 2) ∧
    (ownS.blk.inReset = false ∧ ((ownS.blk.strike []).get .PART_GRANT_OWNER 0 = 2 ∧ (ownS.blk.strike []).get .M_PART_PART 3 = 0)) ∧
    (ownS.blk.inReset = false ∧ ((ownS.blk.strike []).get .PART_GRANT_OWNER 0 = 2 ∧ (ownS.blk.strike []).get .M_PART_PART 3 = 0)) ∧
    (upS.blk.inReset = false ∧ (4 : Nat) ≤ 4) := by
  decide +kernel

/-- The hypotheses of Obligations.MillerAndTenter, clause by clause, are met. -/
theorem test_meets_MillerAndTenter_b :
    (upS.blk.inReset = false ∧ (3 : Nat) < 4) ∧
    upS.blk.inReset = false ∧
    (upS.blk.inReset = false ∧ (3 : Nat) < 4) ∧
    (let s : State := withReg { relS with blk := { relS.blk with gmc := 1024 } } .M_WD_LIMIT 3 1; s.blk.inReset = false ∧ (s.blk.get .M_WD_LIMIT 3 ≠ 0 ∧ Tab.get s.blk.svc.kicks 3 0 + s.blk.get .M_WD_LIMIT 3 * 1024 ≤ s.blk.gmc)) ∧
    (relS.blk.inReset = false ∧ relS.blk.get .M_WD_LIMIT 3 = 0) ∧
    ((withReg relS .M_TIMECMP_COUNT 3 0).blk.inReset = false ∧ (withReg relS .M_TIMECMP_COUNT 3 0).blk.get .M_TIMECMP_COUNT 3 ≤ (withReg relS .M_TIMECMP_COUNT 3 0).blk.gmc) := by
  decide +kernel

/-- The hypotheses of Obligations.MillerAndTenter, clause by clause, are met. -/
theorem test_meets_MillerAndTenter_c :
    (relS.blk.inReset = false ∧ relS.blk.gmc < (withReg relS .M_TIMECMP_COUNT 3 1).blk.get .M_TIMECMP_COUNT 3) ∧
    upS.blk.inReset = false ∧
    upS.blk.inReset = false ∧
    (userS.blk.inReset = false ∧ userS.blk.userLogic = true) ∧
    (relS.blk.inReset = false ∧ relS.blk.userLogic = false) ∧
    upS.blk.inReset = false := by
  decide +kernel

/-- The hypotheses of Obligations.MillerAndTenter, clause by clause, are met. -/
theorem test_meets_MillerAndTenter_d :
    (relS.blk.inReset = false ∧ relS.blk.userLogic = false) := by
  decide +kernel

/-- The hypotheses of Obligations.EthernetAndClock, clause by clause, are met. -/
theorem test_meets_EthernetAndClock_a :
    (relS.blk.inReset = false ∧ (3 % 2 ≠ relS.blk.get .SVC_CTRL_ETH_MODE ∧ ∀ p < 4, relS.blk.on .ETH_CFG_ENABLE p = false)) ∧
    (let s : State := withReg relS .ETH_CFG_ENABLE 3 1; s.blk.inReset = false ∧ (3 % 2 ≠ s.blk.get .SVC_CTRL_ETH_MODE ∧ ∃ p < 4, s.blk.on .ETH_CFG_ENABLE p = true)) ∧
    (relS.blk.inReset = false ∧ 2 % 2 = relS.blk.get .SVC_CTRL_ETH_MODE) ∧
    (liveS.blk.inReset = false ∧ (liveS.blk.on .ETH_STATUS_LINK 3 ≠ true ∧ liveS.blk.ethLive 3 = true)) ∧
    (relS.blk.inReset = false ∧ relS.blk.ethLive 3 = false) ∧
    upS.blk.inReset = false := by
  decide +kernel

/-- The hypotheses of Obligations.EthernetAndClock, clause by clause, are met. -/
theorem test_meets_EthernetAndClock_b :
    upS.blk.inReset = false ∧
    upS.blk.inReset = false ∧
    (upEthS.blk.inReset = false ∧ upEthS.blk.ethUp 3 = true) ∧
    (upEthS.blk.inReset = false ∧ (upEthS.blk.filterPass 3 (zeros 59 ++ [1]) = true ∧ upEthS.blk.filterPass 3 (1 :: zeros 59) = false ∧ (1 :: zeros 59 : List Byte).length = 60)) ∧
    (upEthS.blk.inReset = false ∧ (upEthS.blk.filterPass 3 (zeros 60) = true ∧ isService (upEthS.blk.get .SVC_UDP_PORT) (zeros 60) = false)) ∧
    (upEthS.blk.inReset = false ∧ (upEthS.blk.filterPass 3 (svcF 1 []) = true ∧ isService (upEthS.blk.get .SVC_UDP_PORT) (svcF 1 []) = true ∧ upEthS.blk.replayOn (svPart (svcF 1 [])) = false ∧ 60 ≤ (svcF 1 []).length)) := by
  decide +kernel

/-- The hypotheses of Obligations.EthernetAndClock, clause by clause, are met. -/
theorem test_meets_EthernetAndClock_c :
    (let s : State := withReg (withReg upEthS .TALLY_CTRL_MODE 0 2) .PART_GRANT_OWNER 0 2; s.blk.inReset = false ∧ (svField (svcF 1 []) 0 4 = svMagic ∧ s.blk.replayOn (svPart (svcF 1 [])) = true ∧ s.blk.get .PART_GRANT_OWNER (svPart (svcF 1 [])) = 2 ∧ s.blk.ethUp 3 = true)) ∧
    (relS.blk.inReset = false ∧ relS.blk.ethUp 3 = false) ∧
    (txS.blk.inReset = false ∧ (txS.blk.ethUp 3 = true ∧ txS.blk.on .TXQ_CFG_ENABLE 3 = true ∧ txS.blk.qUsed (txQ 3) ≠ 0 ∧ fieldAt (txS.blk.hubRead (txS.blk.qCore (txQ 3)) (txS.blk.qEntry (txQ 3) 16 (txS.blk.get .TXQ_HEAD_INDEX 3)) 16).1 4 2 = 60)) ∧
    (tx0S.blk.inReset = false ∧ (tx0S.blk.ethUp 3 = true ∧ tx0S.blk.on .TXQ_CFG_ENABLE 3 = true ∧ tx0S.blk.qUsed (txQ 3) ≠ 0 ∧ fieldAt (tx0S.blk.hubRead (tx0S.blk.qCore (txQ 3)) (tx0S.blk.qEntry (txQ 3) 16 (tx0S.blk.get .TXQ_HEAD_INDEX 3)) 16).1 4 2 < 60)) := by
  decide +kernel

/-- The hypotheses of Obligations.SweepService, clause by clause, are met. -/
theorem test_meets_SweepService_a :
    ((mailS 1 []).blk.inReset = false ∧ ((mailS 1 []).blk.mailHead 7).map (fun x => (x.1, x.2.1, svType x.2.2)) = some (0, 3, 1)) ∧
    ((mailS 1 (zeros 48)).blk.inReset = false ∧ ((mailS 1 (zeros 48)).blk.mailHead 7).map (fun x => (svType x.2.2, sweepOk x.2.2, (mailS 1 (zeros 48)).blk.newer 7 x.2.2, svParts x.2.2)) = some (1, true, true, 1)) ∧
    ((mailN 1 2 (zeros 48)).blk.inReset = false ∧ ((mailN 1 2 (zeros 48)).blk.mailHead 7).map (fun x => (svType x.2.2, sweepOk x.2.2, (mailN 1 2 (zeros 48)).blk.newer 7 x.2.2, svParts x.2.2)) = some (1, true, true, 2)) ∧
    ((staleS 1 (zeros 48)).blk.inReset = false ∧ ((staleS 1 (zeros 48)).blk.mailHead 7).map (fun x => (svType x.2.2, sweepOk x.2.2, (staleS 1 (zeros 48)).blk.newer 7 x.2.2)) = some (1, true, false)) ∧
    ((runSweepS 1).blk.inReset = false ∧ ((runSweepS 1).blk.mailHead 7).map (fun x => ((runSweepS 1).blk.svc.sweeps.find? fun (y : Sweep) => y.part == 7 && ofMessage x.2.2 y.src y.stream y.seq).map (fun y => decide (y.parts ≤ y.got.length))) = some (some true)) ∧
    ((runSweepS 2).blk.inReset = false ∧ ((runSweepS 2).blk.mailHead 7).map (fun x => ((runSweepS 2).blk.svc.sweeps.find? fun (y : Sweep) => y.part == 7 && ofMessage x.2.2 y.src y.stream y.seq).map (fun y => decide (y.got.length < y.parts))) = some (some true)) := by
  decide +kernel

/-- The hypotheses of Obligations.SweepService, clause by clause, are met. -/
theorem test_meets_SweepService_b :
    ((runSweepS 2).blk.inReset = false ∧ ((runSweepS 2).blk.svc.sweeps.find? fun (x : Sweep) => x.part == 7 && decide (x.since + 0 ≤ (runSweepS 2).blk.gmc)).isSome = true) ∧
    (relS.blk.inReset = false ∧ relS.blk.svc.sweeps = []) ∧
    (relS.blk.mailHead 7).isNone = true := by
  decide +kernel

/-- The hypotheses of Obligations.PlanningAndAgeingServices, clause by clause, are met. -/
theorem test_meets_PlanningAndAgeingServices_a :
    ((mailS 2 []).blk.inReset = false ∧ ((mailS 2 []).blk.mailHead 7).map (fun x => (x.1, x.2.1, svType x.2.2)) = some (0, 3, 2)) ∧
    ((mailS 2 (zeros 24)).blk.inReset = false ∧ ((mailS 2 (zeros 24)).blk.mailHead 7).map (fun x => (svType x.2.2, planReqOk x.2.2)) = some (2, true)) ∧
    ((mailS 4 []).blk.inReset = false ∧ ((mailS 4 []).blk.mailHead 7).map (fun x => (x.1, x.2.1, svType x.2.2)) = some (0, 3, 4)) ∧
    ((staleS 4 (zeros 16 ++ [1, 0] ++ zeros 6)).blk.inReset = false ∧ ((staleS 4 (zeros 16 ++ [1, 0] ++ zeros 6)).blk.mailHead 7).map (fun x => (svType x.2.2, telemetryOk x.2.2, (staleS 4 (zeros 16 ++ [1, 0] ++ zeros 6)).blk.newer 7 x.2.2)) = some (4, true, false)) ∧
    ((mailS 4 (zeros 16 ++ [1, 0] ++ zeros 6)).blk.inReset = false ∧ ((mailS 4 (zeros 16 ++ [1, 0] ++ zeros 6)).blk.mailHead 7).map (fun x => (svType x.2.2, telemetryOk x.2.2, (mailS 4 (zeros 16 ++ [1, 0] ++ zeros 6)).blk.newer 7 x.2.2, (fieldAt (svBody x.2.2) 0x14 1).testBit 0)) = some (4, true, true, false)) ∧
    ((mailS 4 (zeros 16 ++ [1, 0, 0, 0, 1] ++ zeros 3)).blk.inReset = false ∧ ((mailS 4 (zeros 16 ++ [1, 0, 0, 0, 1] ++ zeros 3)).blk.mailHead 7).map (fun x => (svType x.2.2, telemetryOk x.2.2, (mailS 4 (zeros 16 ++ [1, 0, 0, 0, 1] ++ zeros 3)).blk.newer 7 x.2.2, (fieldAt (svBody x.2.2) 0x14 1).testBit 0, svPartNo x.2.2, svParts x.2.2)) = some (4, true, true, true, 0, 1)) := by
  decide +kernel

/-- The hypotheses of Obligations.PlanningAndAgeingServices, clause by clause, are met. -/
theorem test_meets_PlanningAndAgeingServices_b :
    ((mailS 6 []).blk.inReset = false ∧ ((mailS 6 []).blk.mailHead 7).map (fun x => (x.1, x.2.1, svType x.2.2)) = some (0, 3, 6)) ∧
    (relS.blk.mailHead 7).isNone = true ∧
    (relS.blk.mailHead 7).isNone = true ∧
    (relS.blk.mailHead 7).isNone = true := by
  decide +kernel

/-- The hypotheses of Obligations.OszoedMessages, clause by clause, are met. -/
theorem test_meets_OszoedMessages_a :
    (mgS.blk.inReset = false ∧ mgS.blk.mctpUp .vdm = true) ∧
    (mgS.blk.inReset = false ∧ (mgS.blk.mctpUp .vdm = true ∧ mgS.blk.notReady 0xFFFFF8 = false ∧ 0xFFFFF8 + 8 ≤ 0x1000000)) ∧
    (mgLowS.blk.inReset = false ∧ (mgLowS.blk.mctpUp .vdm = true ∧ mgLowS.blk.notReady 0x30200 = true)) ∧
    (mgS.blk.inReset = false ∧ mgS.blk.mctpUp .vdm = true) ∧
    (mgS.blk.inReset = false ∧ (mgS.blk.mctpUp .vdm = true ∧ mgS.blk.get .GLOBAL_CTRL_MCTP_WR_EN = 1)) ∧
    (mgWrS.blk.inReset = false ∧ (mgWrS.blk.mctpUp .vdm = true ∧ mgWrS.blk.get .GLOBAL_CTRL_MCTP_WR_EN = 0)) := by
  decide +kernel

/-- The hypotheses of Obligations.OszoedMessages, clause by clause, are met. -/
theorem test_meets_OszoedMessages_b :
    (mgS.blk.inReset = false ∧ (mgS.blk.mctpUp .vdm = true ∧ mgS.blk.get .GLOBAL_CTRL_MCTP_WR_EN = 1)) ∧
    (mgS.blk.inReset = false ∧ mgS.blk.mctpUp .vdm = true) ∧
    (mgS.blk.inReset = false ∧ (mgS.blk.mctpUp .vdm = true ∧ mgS.blk.pwr.released = true)) ∧
    (mgS.blk.inReset = false ∧ (mgS.blk.mctpUp .vdm = true ∧ mgS.blk.pwr.released = true)) ∧
    (mgHaltS.blk.inReset = false ∧ (mgHaltS.blk.mctpUp .i2c = true ∧ mgHaltS.blk.pwr.released = false ∧ mgHaltS.blk.cfg.phase = .halted)) ∧
    (mgLowS.blk.inReset = false ∧ (mgLowS.blk.mctpUp .vdm = true ∧ mgLowS.blk.pwr.released = false ∧ mgLowS.blk.cfg.phase = .attempt 0 ∧ mgLowS.blk.cfg.retrying = false)) := by
  decide +kernel

/-- The hypotheses of Obligations.OszoedMessages, clause by clause, are met. -/
theorem test_meets_OszoedMessages_c :
    State.reset.blk.mctpUp .vdm = false ∧
    State.reset.blk.mctpUp .vdm = false ∧
    State.reset.blk.mctpUp .vdm = false ∧
    State.reset.blk.mctpUp .vdm = false ∧
    State.reset.blk.mctpUp .vdm = false := by
  decide +kernel

/-- The hypotheses of Obligations.SlotMessages, clause by clause, are met. -/
theorem test_meets_SlotMessages_a :
    (mgS.blk.inReset = false ∧ (mgS.blk.mctpUp .vdm = true ∧ mgS.blk.slotBusy = false ∧ mgS.blk.slotInUse 1 = false)) ∧
    ((mgSessS 0).blk.inReset = false ∧ ((mgSessS 0).blk.mctpUp .vdm = true ∧ (mgSessS 0).blk.slotBusy = true ∧ 1 < 2)) ∧
    upS.blk.inReset = false ∧
    (mgS.blk.inReset = false ∧ mgS.blk.mctpUp .vdm = true) ∧
    ((mgSessS 0).blk.inReset = false ∧ ((mgSessS 0).blk.mctpUp .vdm = true ∧ (mgSessS 0).blk.cfg.session = some { slot := 1, length := 4, next := 0, since := 0 } ∧ (mgSessS 0).blk.slotInUse 1 = false)) ∧
    (mgS.blk.inReset = false ∧ (mgS.blk.mctpUp .vdm = true ∧ mgS.blk.cfg.session = none)) := by
  decide +kernel

/-- The hypotheses of Obligations.SlotMessages, clause by clause, are met. -/
theorem test_meets_SlotMessages_b :
    ((mgSessS 0).blk.inReset = false ∧ ((mgSessS 0).blk.mctpUp .vdm = true ∧ (mgSessS 0).blk.cfg.session = some { slot := 1, length := 4, next := 0, since := 0 })) ∧
    (mgS.blk.inReset = false ∧ mgS.blk.mctpUp .vdm = true) ∧
    (mgS.blk.inReset = false ∧ mgS.blk.mctpUp .vdm = true) ∧
    ((mgSessS 4).blk.inReset = false ∧ ((mgSessS 4).blk.mctpUp .vdm = true ∧ (mgSessS 4).blk.cfg.session = some { slot := 1, length := 4, next := 4, since := 0 })) ∧
    (mgS.blk.inReset = false ∧ (mgS.blk.mctpUp .vdm = true ∧ mgS.blk.cfg.session = none)) ∧
    (mgS.blk.inReset = false ∧ (mgS.blk.mctpUp .vdm = true ∧ mgS.blk.slotBusy = false ∧ mgS.blk.slotInUse 1 = false)) := by
  decide +kernel

/-- The hypotheses of Obligations.SlotMessages, clause by clause, are met. -/
theorem test_meets_SlotMessages_c :
    ((mgSessS 0).blk.inReset = false ∧ ((mgSessS 0).blk.mctpUp .vdm = true ∧ (mgSessS 0).blk.slotBusy = true ∧ 1 < 2)) ∧
    (mgS.blk.inReset = false ∧ mgS.blk.mctpUp .vdm = true) ∧
    (mgS.blk.inReset = false ∧ (mgS.blk.mctpUp .vdm = true ∧ mgS.blk.slotBusy = false)) ∧
    ((mgSessS 0).blk.inReset = false ∧ ((mgSessS 0).blk.mctpUp .vdm = true ∧ (mgSessS 0).blk.slotBusy = true ∧ 1 < 2)) ∧
    (mgS.blk.inReset = false ∧ mgS.blk.mctpUp .vdm = true) ∧
    State.reset.blk.mctpUp .vdm = false := by
  decide +kernel

/-- The hypotheses of Obligations.SlotMessages, clause by clause, are met. -/
theorem test_meets_SlotMessages_d :
    State.reset.blk.mctpUp .vdm = false ∧
    State.reset.blk.mctpUp .vdm = false ∧
    State.reset.blk.mctpUp .vdm = false ∧
    State.reset.blk.mctpUp .vdm = false := by
  decide +kernel

/-- The hypotheses of Obligations.ControlAndSpdmMessages, clause by clause, are met. -/
theorem test_meets_ControlAndSpdmMessages_a :
    (mgS.blk.inReset = false ∧ (mgS.blk.mctpUp .vdm = true ∧ 5 % 4 < 2)) ∧
    upS.blk.inReset = false ∧
    upS.blk.inReset = false ∧
    upS.blk.inReset = false ∧
    (mgS.blk.inReset = false ∧ (mgS.blk.mctpUp .vdm = true ∧ 0x7E ∈ ([0xFF, 0x00, 0x05, 0x7E] : List Nat))) ∧
    (mgS.blk.inReset = false ∧ (mgS.blk.mctpUp .vdm = true ∧ 0x7F ∉ ([0xFF, 0x00, 0x05, 0x7E] : List Nat))) := by
  decide +kernel

/-- The hypotheses of Obligations.ControlAndSpdmMessages, clause by clause, are met. -/
theorem test_meets_ControlAndSpdmMessages_b :
    upS.blk.inReset = false ∧
    upS.blk.inReset = false ∧
    upS.blk.inReset = false ∧
    (mgS.blk.inReset = false ∧ (mgS.blk.mctpUp .vdm = true ∧ 3 ∉ ([0x01, 0x02, 0x04, 0x05, 0x06] : List Nat))) ∧
    upS.blk.inReset = false ∧
    (mgS.blk.inReset = false ∧ mgS.blk.mctpUp .vdm = true) := by
  decide +kernel

/-- The hypotheses of Obligations.ControlAndSpdmMessages, clause by clause, are met. -/
theorem test_meets_ControlAndSpdmMessages_c :
    upS.blk.inReset = false ∧
    (mgS.blk.inReset = false ∧ (mgS.blk.mctpUp .vdm = true ∧ Tab.get mgS.blk.mgmt.spdm (bindingNo .vdm) 0 < 1)) ∧
    ((spdmS 3).blk.inReset = false ∧ ((spdmS 3).blk.mctpUp .i2c = true ∧ 3 ≤ Tab.get (spdmS 3).blk.mgmt.spdm (bindingNo .i2c) 0)) ∧
    ((spdmS 3).blk.inReset = false ∧ (((spdmS 3).blk.mctpUp .i2c = true ∧ 3 ≤ Tab.get (spdmS 3).blk.mgmt.spdm (bindingNo .i2c) 0) ∧ Nat.testBit 0x80 7 = true ∧ Nat.testBit 2 1 = true)) ∧
    upS.blk.inReset = false ∧
    upS.blk.inReset = false := by
  decide +kernel

/-- The hypotheses of Obligations.ControlAndSpdmMessages, clause by clause, are met. -/
theorem test_meets_ControlAndSpdmMessages_d :
    upS.blk.inReset = false ∧
    upS.blk.inReset = false ∧
    ((spdmS 3).blk.inReset = false ∧ ((spdmS 3).blk.mctpUp .i2c = true ∧ 3 ≤ Tab.get (spdmS 3).blk.mgmt.spdm (bindingNo .i2c) 0)) ∧
    ((spdmS 3).blk.inReset = false ∧ ((spdmS 3).blk.mctpUp .i2c = true ∧ 3 ≤ Tab.get (spdmS 3).blk.mgmt.spdm (bindingNo .i2c) 0)) ∧
    ((spdmS 3).blk.inReset = false ∧ ((spdmS 3).blk.mctpUp .i2c = true ∧ 3 ≤ Tab.get (spdmS 3).blk.mgmt.spdm (bindingNo .i2c) 0)) ∧
    ((spdmS 3).blk.inReset = false ∧ ((spdmS 3).blk.mctpUp .i2c = true ∧ 3 ≤ Tab.get (spdmS 3).blk.mgmt.spdm (bindingNo .i2c) 0)) := by
  decide +kernel

/-- The hypotheses of Obligations.ControlAndSpdmMessages, clause by clause, are met. -/
theorem test_meets_ControlAndSpdmMessages_e :
    ((spdmS 3).blk.inReset = false ∧ (0xFF : Nat) = 0xFF ∧ ((spdmS 3).blk.mctpUp .i2c = true ∧ 3 ≤ Tab.get (spdmS 3).blk.mgmt.spdm (bindingNo .i2c) 0)) ∧
    upS.blk.inReset = false ∧
    State.reset.blk.mctpUp .vdm = false ∧
    State.reset.blk.mctpUp .vdm = false ∧
    State.reset.blk.mctpUp .vdm = false ∧
    State.reset.blk.mctpUp .vdm = false := by
  decide +kernel

/-- The hypotheses of Obligations.ControlAndSpdmMessages, clause by clause, are met. -/
theorem test_meets_ControlAndSpdmMessages_f :
    State.reset.blk.mctpUp .vdm = false ∧
    State.reset.blk.mctpUp .vdm = false ∧
    State.reset.blk.mctpUp .vdm = false ∧
    State.reset.blk.mctpUp .vdm = false ∧
    State.reset.blk.mctpUp .vdm = false ∧
    State.reset.blk.mctpUp .vdm = false := by
  decide +kernel

/-- The hypotheses of Obligations.ControlAndSpdmMessages, clause by clause, are met. -/
theorem test_meets_ControlAndSpdmMessages_g :
    State.reset.blk.mctpUp .vdm = false ∧
    State.reset.blk.mctpUp .vdm = false ∧
    State.reset.blk.mctpUp .vdm = false := by
  decide +kernel

/-- The hypotheses of Obligations.TapAndManagementPort, clause by clause, are met. -/
theorem test_meets_TapAndManagementPort_a :
    (lowS.blk.pwr.mainUp = true ∧ lowS.blk.pwr.perst = false) ∧
    (relS.blk.pwr.mainUp = true ∧ relS.blk.pwr.perst = true ∧ relS.blk.cfg.phase ≠ .halted) ∧
    (lowS.blk.pwr.mainUp = true ∧ lowS.blk.pwr.perst = false) ∧
    (relS.blk.pwr.mainUp = true ∧ relS.blk.pwr.perst = true ∧ relS.blk.cfg.phase ≠ .halted) ∧
    (lowS.blk.pwr.mainUp = true ∧ lowS.blk.pwr.perst = false) ∧
    (relS.blk.pwr.mainUp = true ∧ relS.blk.pwr.perst = true ∧ relS.blk.cfg.phase ≠ .halted) := by
  decide +kernel

/-- The hypotheses of Obligations.TapAndManagementPort, clause by clause, are met. -/
theorem test_meets_TapAndManagementPort_b :
    (lowS.blk.pwr.mainUp = true ∧ lowS.blk.pwr.perst = false) ∧
    (relS.blk.pwr.mainUp = true ∧ relS.blk.pwr.perst = true ∧ relS.blk.cfg.phase ≠ .halted) ∧
    (lowS.blk.pwr.mainUp = true ∧ lowS.blk.pwr.perst = false) ∧
    (relS.blk.pwr.mainUp = true ∧ relS.blk.pwr.perst = true ∧ relS.blk.cfg.phase ≠ .halted) ∧
    lowS.blk.pwr.mainUp = true ∧
    lowS.blk.pwr.mainUp = true := by
  decide +kernel

/-- The hypotheses of Obligations.TapAndManagementPort, clause by clause, are met. -/
theorem test_meets_TapAndManagementPort_c :
    (lowS.blk.pwr.mainUp = true ∧ 0x3E % 64 ∉ ([0x00, 0x01, 0x02, 0x03, 0x04, 0x05, 0x06, 0x20] : List Nat)) ∧
    0x20 % 64 ∈ ([0x00, 0x01, 0x02, 0x03, 0x04, 0x05, 0x06, 0x20] : List Nat) ∧
    lowS.blk.pwr.mainUp = true ∧
    upS.blk.inReset = false ∧
    (upS.blk.inReset = false ∧ pipeWhole (([0x40, 0x0F] : List Byte) ++ [5]) = false) ∧
    (pipeS.blk.inReset = false ∧ pipeS.blk.mgmt.tapPart ≠ [] ∧ pipeWhole (pipeS.blk.mgmt.tapPart ++ [9]) = true) := by
  decide +kernel

/-- The hypotheses of Obligations.TapAndManagementPort, clause by clause, are met. -/
theorem test_meets_TapAndManagementPort_d :
    (lowS.blk.pwr.mainUp = true ∧ lowS.blk.inReset = true) ∧
    (upS.blk.inReset = false ∧ upS.blk.pwr.mainUp = true) ∧
    State.reset.blk.pwr.mainUp = false ∧
    State.reset.blk.pwr.mainUp = false ∧
    State.reset.blk.pwr.mainUp = false ∧
    State.reset.blk.pwr.mainUp = false := by
  decide +kernel

/-- The hypotheses of Obligations.TapAndManagementPort, clause by clause, are met. -/
theorem test_meets_TapAndManagementPort_e :
    State.reset.blk.pwr.mainUp = false ∧
    State.reset.blk.pwr.mainUp = false ∧
    State.reset.blk.pwr.mainUp = false ∧
    State.reset.blk.pwr.mainUp = false ∧
    State.reset.blk.pwr.mainUp = false ∧
    State.reset.blk.pwr.mainUp = false := by
  decide +kernel

/-- The hypotheses of Obligations.TapAndManagementPort, clause by clause, are met. -/
theorem test_meets_TapAndManagementPort_f :
    State.reset.blk.pwr.mainUp = false := by
  decide +kernel

/-- The hypotheses of Obligations.StepTakesFrontCommand, clause by clause, are met. -/
theorem test_meets_StepTakesFrontCommand :
    ({ relS with pending := [.idcode, .tapReset] } : State).pending = .idcode :: [.tapReset] := by
  decide +kernel

/-- The hypotheses of Obligations.IdleStepIsOneNanosecond, clause by clause, are met. -/
theorem test_meets_IdleStepIsOneNanosecond :
    relS.pending = [] ∧
    (relS.pending = [] ∧ relS.blk.hop.absorbs = [] ∧ relS.blk.svc.heldFrames = [] ∧ relS.blk.fab.colls = []) ∧
    (relS.blk.pwr.released = true ∧ relS.blk.gs.slew = 0 ∧ lowS.blk.pwr.perst = false ∧ relS.blk.tileState 0 ≠ tBusy) := by
  decide +kernel

/-- The hypotheses of Obligations.StepKeepsQueueWellFormed, clause by clause, are met. -/
theorem test_meets_StepKeepsQueueWellFormed :
    ({ relS with pending := [.registerWrite .pf 0x20000 4 1 0 0 []] } : State).queueWf = true := by
  decide +kernel

/-- The hypotheses of Obligations.StepKeepsMemoryForm, clause by clause, are met. -/
theorem test_meets_StepKeepsMemoryForm :
    (({ relS with pending := [.idcode] } : State).blk.memWf = true ∧ (match step { relS with pending := [.idcode] } with | .next _ => true | _ => false) = true) := by
  decide +kernel

/-- The hypotheses of Obligations.StepKeepsRegisterForm, clause by clause, are met. -/
theorem test_meets_StepKeepsRegisterForm :
    (({ relS with pending := [.idcode] } : State).blk.regsWf = true ∧ (match step { relS with pending := [.idcode] } with | .next _ => true | _ => false) = true) := by
  decide +kernel

/-- The hypotheses of Obligations.AntiRollbackCounterSetOnlyInRange, clause by clause, are met. -/
theorem test_meets_AntiRollbackCounterSetOnlyInRange :
    (arbS.blk.inReset = false ∧ (arbS.blk.arbValue < arbS.blk.get .ARB_SET_VALUE ∧ arbS.blk.get .ARB_SET_VALUE ≤ arbS.blk.get .LOADED_VERSION_VERSION)) ∧
    (relS.blk.inReset = false ∧ relS.blk.get .ARB_SET_VALUE ≤ relS.blk.arbValue) := by
  decide +kernel

/-- The hypotheses of Obligations.RegisterResetNeedsItsKey, clause by clause, are met. -/
theorem test_meets_RegisterResetNeedsItsKey :
    (upS.blk.inReset = false ∧ (Nat.testBit 0x7A110001 0 = true ∧ bits 0x7A110001 16 16 = 0x7A11)) ∧
    (upS.blk.inReset = false ∧ (Nat.testBit 0x7A120001 0 = true ∧ bits 0x7A120001 16 16 ≠ 0x7A11)) := by
  decide +kernel

/-- The hypotheses of Obligations.BoundaryInstructionsOnlyAtRest, clause by clause, are met. -/
theorem test_meets_BoundaryInstructionsOnlyAtRest :
    (lowS.blk.pwr.mainUp = true ∧ lowS.blk.pwr.perst = false) ∧
    (relS.blk.pwr.mainUp = true ∧ relS.blk.pwr.perst = true ∧ relS.blk.cfg.phase ≠ .halted) := by
  decide +kernel

/-- The hypotheses of Obligations.SpdmStatesApart, clause by clause, are met. -/
theorem test_meets_SpdmStatesApart :
    (upS.blk.inReset = false ∧ Binding.tap ≠ Binding.i2c) ∧
    (mgS.blk.inReset = false ∧ mgS.blk.mctpUp .vdm = true) := by
  decide +kernel

/-- The hypotheses of Obligations.ResetHoldsEveryOtherBlock, clause by clause, are met. -/
theorem test_meets_ResetHoldsEveryOtherBlock :
    lowS.blk.inReset = true := by
  decide +kernel

end Sys2Proof.Tests
end

section
/-! SUPPORT. The clock commands (spec/02, R43 to R52, R903; spec/05, R823): what CORE_CLK_GO, PLL_RELOCK, CLOCK_LOST_LOCK,
GMC_PLL_RELOCK and FLUME_WRITE_RESUMED do, one equation for each outcome of GO, and the obligation on them. -/

namespace Sys2Proof.Machine

-- Reading through an event, a grind die update and a Furled entry that starts to count --------------------------------------

/-- An event leaves every flag outside the event log's own alone. -/
theorem Block.event_on (b : Block) (blk code : Nat) (data : List Byte) (part : Nat) (f : Fld) (i : Nat) (h : f.eventOwn = false) :
    (b.event blk code data part).on f i = b.on f i := by
  unfold Block.on
  rw [Block.event_get _ _ _ _ _ _ _ h]

/-- An event leaves every bit outside the event log's own alone. -/
theorem Block.event_bit (b : Block) (blk code : Nat) (data : List Byte) (part : Nat) (f : Fld) (i n : Nat) (h : f.eventOwn = false) :
    (b.event blk code data part).bit f i n = b.bit f i n := by
  unfold Block.bit
  rw [Block.event_get _ _ _ _ _ _ _ h]

/-- A flag at 0 reads as not set. -/
theorem Block.on_eq_false_iff (b : Block) (f : Fld) (i : Nat) : b.on f i = false ↔ b.get f i = 0 := by
  simp [Block.on]

/-- A die's state depends on the list of dies alone. -/
theorem Block.die_of_dies {b c : Block} (h : c.dies = b.dies) (d : Nat) : c.die d = b.die d := by
  unfold Block.die
  rw [h]

@[simp] theorem Block.set_die (b : Block) (f : Fld) (i v d : Nat) : (b.set f i v).die d = b.die d := rfl

@[simp] theorem Block.set_dieOff (b : Block) (f : Fld) (i v d : Nat) : (b.set f i v).dieOff d = b.dieOff d := rfl

/-- A die that the package has reads as what was last put there. -/
theorem Block.die_setDie_same (b : Block) (d : Nat) (x : Die) (h : d < b.dies.length) : (b.setDie d x).die d = x := by
  simp [Block.die, Block.setDie, h]

@[simp] theorem Block.setDie_length (b : Block) (d : Nat) (x : Die) : (b.setDie d x).dies.length = b.dies.length := by
  simp [Block.setDie]

@[simp] theorem Block.furlCount_dies (b : Block) : b.furlCount.dies = b.dies := by
  unfold Block.furlCount
  split <;> rfl

@[simp] theorem Block.furlCount_mem (b : Block) : b.furlCount.mem = b.mem := by
  unfold Block.furlCount
  split <;> rfl

-- GO: one equation for each outcome (R44, R45, R49, R51) -----------------------------------------------------------------------

/-- While a change runs on a running die, GO is held pending (R49). -/
theorem Block.clkGo_of_changing (b : Block) (d : Nat) (hc : (b.die d).change ≠ none) (hon : b.dieOff d = false) :
    b.clkGo d = b.set .CORE_CLK_PENDING d 1 := by
  have hs : (b.die d).change.isSome = true := Option.isSome_iff_ne_none.mpr hc
  simp [Block.clkGo, hs, hon]

/-- With no change running, or on a die that is off, a TARGET out of range is refused (R44). -/
theorem Block.clkGo_of_badval (b : Block) (d : Nat) (hc : (b.die d).change = none ∨ b.dieOff d = true)
    (hbad : codeOk (b.get .CORE_CLK_TARGET d) = false) : b.clkGo d = b.set .CORE_CLK_BADVAL d 1 := by
  have hidle : ((b.die d).change.isSome && !b.dieOff d) = false := by
    rcases hc with hc | hoff
    · simp [hc]
    · simp [hoff]
  simp [Block.clkGo, hidle, hbad]

/-- On a die that is off a TARGET in range is held for its return, with event 0x02 (R51). -/
theorem Block.clkGo_of_off (b : Block) (d : Nat) (hok : codeOk (b.get .CORE_CLK_TARGET d) = true) (hoff : b.dieOff d = true) :
    b.clkGo d = (b.set .CORE_CLK_PENDING d 1).event 0x02 0x02 [byteOf d, byteOf (b.get .CORE_CLK_TARGET d)] := by
  simp [Block.clkGo, hok, hoff]

/-- On a running die with no change running, a TARGET in range starts a change to it or to the lower code the Governor holds (R45). -/
theorem Block.clkGo_of_ready (b : Block) (d : Nat) (hd : d < b.dies.length) (hc : (b.die d).change = none)
    (hok : codeOk (b.get .CORE_CLK_TARGET d) = true) (hon : b.dieOff d = false) :
    ((b.clkGo d).die d).change = some (min (b.get .CORE_CLK_TARGET d) (b.die d).govCode) ∧
      ((b.clkGo d).die d).want = b.get .CORE_CLK_TARGET d ∧ (b.clkGo d).mem = b.mem ∧ (b.clkGo d).regs = b.regs := by
  have hgo : b.clkGo d = (b.setDie d { b.die d with want := b.get .CORE_CLK_TARGET d }).startChange d
      (min (b.get .CORE_CLK_TARGET d) (b.die d).govCode) false := by
    simp [Block.clkGo, hc, hok, hon]
  rw [hgo, Block.startChange, Block.die_setDie_same _ _ _ hd, Block.die_setDie_same _ _ _ (by simpa using hd)]
  exact ⟨rfl, rfl, rfl, rfl⟩

-- CORE_CLK_GO ------------------------------------------------------------------------------------------------------------------

theorem exec_coreClkGo (s : State) (d target : Nat) (hr : s.blk.inReset = false) :
    exec (.coreClkGo d target) s = .next { s with blk := s.blk.coreClkGo d target } :=
  State.act_running s (·.coreClkGo d target) hr

/-- CORE_CLK_GO of a die that exists is GO with its TARGET written, of which six bits stand (R43). -/
theorem Block.coreClkGo_eq (b : Block) (d target : Nat) (hd : d < 2) :
    b.coreClkGo d target = (b.set .CORE_CLK_TARGET d target).clkGo d := by
  simp [Block.coreClkGo, hd]

theorem Block.target_written (b : Block) (d target : Nat) :
    (b.set .CORE_CLK_TARGET d target).get .CORE_CLK_TARGET d = target % 64 :=
  Block.get_set_same _ _ _ _

/-- GO with a TARGET in range on a running die starts a change and writes no register but TARGET. -/
theorem Block.coreClkGo_starts (b : Block) (d target : Nat) (hd : d < 2) (hl : d < b.dies.length) (hc : (b.die d).change = none)
    (hok : codeOk (target % 64) = true) (hon : b.dieOff d = false) :
    (b.coreClkGo d target).get .CORE_CLK_TARGET d = target % 64 ∧
      ((b.coreClkGo d target).die d).change = some (min (target % 64) (b.die d).govCode) ∧
      ((b.coreClkGo d target).die d).want = target % 64 ∧ (b.coreClkGo d target).mem = b.mem ∧
      ∀ f i, ¬(f = .CORE_CLK_TARGET ∧ i = d) → (b.coreClkGo d target).get f i = b.get f i := by
  have ht := b.target_written d target
  obtain ⟨hchange, hwant, hmem, hregs⟩ :=
    (b.set .CORE_CLK_TARGET d target).clkGo_of_ready d hl hc (by rw [ht]; exact hok) hon
  have hget : ∀ f i, ((b.set .CORE_CLK_TARGET d target).clkGo d).get f i = (b.set .CORE_CLK_TARGET d target).get f i := by
    intro f i
    unfold Block.get
    rw [hregs]
  rw [Block.coreClkGo_eq b d target hd]
  refine ⟨by rw [hget, ht], by rw [hchange, ht]; rfl, by rw [hwant, ht], hmem, fun f i hne => ?_⟩
  rw [hget, Block.get_set, if_neg fun e => hne ⟨e.1.symm, e.2.symm⟩]

/-- GO while a change runs, or on a die that is off, is held pending. -/
theorem Block.coreClkGo_pends (b : Block) (d target : Nat) (hd : d < 2)
    (h : (b.die d).change ≠ none ∧ b.dieOff d = false ∨ codeOk (target % 64) = true ∧ b.dieOff d = true) :
    (b.coreClkGo d target).get .CORE_CLK_PENDING d = 1 ∧ (b.coreClkGo d target).dies = b.dies ∧
      (b.coreClkGo d target).mem = b.mem := by
  have ht := b.target_written d target
  rw [Block.coreClkGo_eq b d target hd]
  rcases h with ⟨hc, hon⟩ | ⟨hok, hoff⟩
  · rw [(b.set .CORE_CLK_TARGET d target).clkGo_of_changing d hc hon]
    exact ⟨Block.get_set_same _ _ _ _, rfl, rfl⟩
  · rw [(b.set .CORE_CLK_TARGET d target).clkGo_of_off d (by rw [ht]; exact hok) hoff]
    refine ⟨?_, by simp, by simp⟩
    rw [Block.event_get _ _ _ _ _ _ _ rfl]
    exact Block.get_set_same _ _ _ _

/-- GO with a TARGET out of range sets BADVAL and starts nothing. -/
theorem Block.coreClkGo_refuses (b : Block) (d target : Nat) (hd : d < 2) (hc : (b.die d).change = none ∨ b.dieOff d = true)
    (hbad : codeOk (target % 64) = false) :
    (b.coreClkGo d target).get .CORE_CLK_BADVAL d = 1 ∧ (b.coreClkGo d target).dies = b.dies ∧
      (b.coreClkGo d target).mem = b.mem := by
  rw [Block.coreClkGo_eq b d target hd,
    (b.set .CORE_CLK_TARGET d target).clkGo_of_badval d hc (by rw [Block.target_written]; exact hbad)]
  exact ⟨Block.get_set_same _ _ _ _, rfl, rfl⟩

-- PLL_RELOCK -------------------------------------------------------------------------------------------------------------------

/-- A die whose change to code `c` has ended, with event 0x01 written (R46). -/
def Block.changeEnded (b : Block) (d c : Nat) : Block :=
  (b.setDie d { b.die d with change := none, byGov := false, lastCode := c }).event 0x02 0x01
    [byteOf d, byteOf (b.die d).lastCode, byteOf c]

theorem Block.changeEnded_on_pending (b : Block) (d c : Nat) : (b.changeEnded d c).on .CORE_CLK_PENDING d = b.on .CORE_CLK_PENDING d :=
  Block.event_on _ _ _ _ _ _ _ rfl

theorem exec_pllRelock (s : State) (d : Nat) (hr : s.blk.inReset = false) :
    exec (.pllRelock d) s = .next { s with blk := s.blk.pllRelock d } :=
  State.act_running s (·.pllRelock d) hr

/-- With no change pending, PLL_RELOCK only ends the one that runs. -/
theorem Block.pllRelock_of_idle (b : Block) (d c : Nat) (hc : (b.die d).change = some c) (hp : b.on .CORE_CLK_PENDING d = false) :
    b.pllRelock d = (b.changeEnded d c).furlCount := by
  have hp' := (b.changeEnded_on_pending d c).trans hp
  unfold Block.changeEnded at hp' ⊢
  simp [Block.pllRelock, hc, hp']

/-- With a change pending, PLL_RELOCK clears PENDING and starts it with the TARGET now present (R49). -/
theorem Block.pllRelock_of_pending (b : Block) (d c : Nat) (hc : (b.die d).change = some c) (hp : b.on .CORE_CLK_PENDING d = true) :
    b.pllRelock d = (((b.changeEnded d c).set .CORE_CLK_PENDING d 0).clkGo d).furlCount := by
  have hp' := (b.changeEnded_on_pending d c).trans hp
  unfold Block.changeEnded at hp' ⊢
  simp [Block.pllRelock, hc, hp']

/-- The die whose change has ended runs at its code. -/
theorem Block.pllRelock_ends (b : Block) (d c : Nat) (hl : d < b.dies.length) (hc : (b.die d).change = some c)
    (hp : b.on .CORE_CLK_PENDING d = false) :
    ((b.pllRelock d).die d).change = none ∧ ((b.pllRelock d).die d).lastCode = c ∧ (b.pllRelock d).mem = b.mem := by
  have hdie : (b.pllRelock d).die d = { b.die d with change := none, byGov := false, lastCode := c } := by
    rw [Block.pllRelock_of_idle b d c hc hp, Block.die_of_dies (Block.furlCount_dies _), Block.changeEnded,
      Block.die_of_dies (Block.event_dies _ _ _ _ _), Block.die_setDie_same _ _ _ hl]
  refine ⟨by rw [hdie], by rw [hdie], ?_⟩
  rw [Block.pllRelock_of_idle b d c hc hp, Block.furlCount_mem, Block.changeEnded, Block.event_mem, Block.setDie_mem]

-- CLOCK_LOST_LOCK --------------------------------------------------------------------------------------------------------------

/-- What every loss of lock leaves: the PLL as not locked, its LOSS bit, and event 0x03 (R52). -/
def Block.lossNoted (b : Block) (n : Nat) : Block :=
  (({ b with pwr := { b.pwr with lost := setBit b.pwr.lost n } }).setB .CLK_LOSS_LOSS 0 n).event 0x02 0x03 [byteOf n]

theorem setBit_testBit_same (v i : Nat) : (setBit v i).testBit i = true := by
  simp [setBit]

/-- A bit within the field's width reads 1 once set. -/
theorem Block.bit_setB_same (b : Block) (f : Fld) (i n : Nat) (h : n < f.desc.width) : (b.setB f i n).bit f i n = true := by
  simp [Block.bit, Block.setB, setBit_testBit_same, Nat.testBit_mod_two_pow, h]

theorem exec_clockLostLock (s : State) (n : Nat) (hr : s.blk.inReset = false) :
    exec (.clockLostLock n) s = .next { s with blk := s.blk.clockLost n } :=
  State.act_running s (·.clockLost n) hr

/-- A loss of a clock that is held: noted, and then by clock a recovery of the die, an UNSYNC GMC, or nothing more (R52). -/
theorem Block.clockLost_eq (b : Block) (n : Nat) (hh : b.clkHeld n = true) :
    b.clockLost n = if n < 2 then (b.lossNoted n).startRecovery n false
      else if n = 3 ∧ ((b.lossNoted n).gState = gLocked ∨ (b.lossNoted n).gState = gHoldover) then (b.lossNoted n).setGState gUnsync
      else b.lossNoted n := by
  unfold Block.clockLost
  rw [if_neg (by simp [hh])]
  rfl

/-- The loss of a clock other than a ck_core and ck_gmc has no further effect. -/
theorem Block.clockLost_of_other (b : Block) (n : Nat) (h2 : 2 ≤ n) (h3 : n ≠ 3) (hh : b.clkHeld n = true) :
    b.clockLost n = b.lossNoted n := by
  rw [Block.clockLost_eq b n hh, if_neg (by omega), if_neg fun h => h3 h.1]

/-- The loss of a ck_core starts a recovery of its die (R81). -/
theorem Block.clockLost_of_core (b : Block) (n : Nat) (h2 : n < 2) (hh : b.clkHeld n = true) :
    b.clockLost n = (b.lossNoted n).startRecovery n false := by
  rw [Block.clockLost_eq b n hh, if_pos h2]

/-- The loss of ck_gmc makes a GMC that is LOCKED or in HOLDOVER UNSYNC (R548). -/
theorem Block.clockLost_of_gmc (b : Block) (hh : b.clkHeld 3 = true) :
    b.clockLost 3 = if (b.lossNoted 3).gState = gLocked ∨ (b.lossNoted 3).gState = gHoldover then (b.lossNoted 3).setGState gUnsync
      else b.lossNoted 3 := by
  simp [Block.clockLost_eq b 3 hh]

theorem Block.lossNoted_bit (b : Block) (n : Nat) (h : n < 26) : (b.lossNoted n).bit .CLK_LOSS_LOSS 0 n = true := by
  rw [Block.lossNoted, Block.event_bit _ _ _ _ _ _ _ _ rfl]
  exact Block.bit_setB_same _ _ _ _ h

theorem Block.lossNoted_pwr (b : Block) (n : Nat) : (b.lossNoted n).pwr = { b.pwr with lost := setBit b.pwr.lost n } := by
  simp [Block.lossNoted]

theorem Block.lossNoted_mem (b : Block) (n : Nat) : (b.lossNoted n).mem = b.mem := by
  simp [Block.lossNoted]

-- GMC_PLL_RELOCK ---------------------------------------------------------------------------------------------------------------

/-- A change of the GMC's STATE leaves power and memory alone. -/
theorem Block.setGState_frame (b : Block) (st : Nat) : (b.setGState st).pwr = b.pwr ∧ (b.setGState st).mem = b.mem := by
  by_cases hsame : b.gState = st
  · rw [Block.setGState, if_pos hsame]
    exact ⟨rfl, rfl⟩
  · have hset : ((b.set .GMC_STATUS_STATE 0 st).raiseAll 8).pwr = b.pwr ∧ ((b.set .GMC_STATUS_STATE 0 st).raiseAll 8).mem = b.mem :=
      ⟨Block.raiseAll_pwr _ _, Block.raiseAll_mem _ _⟩
    have hevent : ∀ (c : Block) (code : Nat), c.pwr = b.pwr ∧ c.mem = b.mem →
        (c.event 0x60 code).pwr = b.pwr ∧ (c.event 0x60 code).mem = b.mem :=
      fun c code h => ⟨(Block.event_pwr _ _ _ _ _).trans h.1, (Block.event_mem _ _ _ _ _).trans h.2⟩
    simp only [Block.setGState, if_neg hsame]
    split
    · exact hevent _ _ hset
    split
    · exact hevent _ _ hset
    split
    · exact hevent _ _ hset
    · exact hset

theorem exec_gmcPllRelock (s : State) (hr : s.blk.inReset = false) :
    exec .gmcPllRelock s = .next { s with blk := s.blk.gmcRelock } :=
  State.act_running s (·.gmcRelock) hr

/-- The ck_gmc PLL that had lost lock has it again (R903). -/
theorem Block.gmcRelock_ends (b : Block) (hl : b.pwr.lost.testBit 3 = true) :
    b.gmcRelock.pwr = { b.pwr with lost := clrBit b.pwr.lost 3 } ∧ b.gmcRelock.mem = b.mem := by
  simp only [Block.gmcRelock, hl, if_true]
  split
  · exact Block.setGState_frame _ _
  · exact ⟨rfl, rfl⟩

-- FLUME_WRITE_RESUMED ----------------------------------------------------------------------------------------------------------

theorem exec_flumeWriteResumed (s : State) (flume freed : Nat) (hr : s.blk.inReset = false) :
    exec (.flumeWriteResumed flume freed) s = .next { s with blk := s.blk.flumeResumed flume freed } :=
  State.act_running s (·.flumeResumed flume freed) hr

/-- With no posted traffic stalled there is nothing to send. -/
theorem Block.drainStalled_of_empty (b : Block) (n : Nat) (h : b.link.stalled = []) : Block.drainStalled n b = b := by
  cases n with
  | zero => rfl
  | succ n => simp [Block.drainStalled, h]

/-- Credits that the host grants while nothing is stalled are kept for later traffic (R823). -/
theorem Block.hostFreed_of_empty (b : Block) (n c : Nat) (hc : b.link.credits = some c) (hs : b.link.stalled = []) :
    b.hostFreed n = { b with link := { b.link with credits := some (c + n) } } := by
  have hgone : b.hostFreed n = { b with link := { b.link with credits := b.link.credits.map (· + n) } } :=
    Block.drainStalled_of_empty _ _ hs
  rw [hgone, hc, Option.map_some]

theorem Block.flumeResumed_host (b : Block) (freed : Nat) (h : freed ≠ 0) : b.flumeResumed hostFlume freed = b.hostFreed freed := by
  simp [Block.flumeResumed, h]

theorem Block.flumeResumed_other (b : Block) (flume freed : Nat) (h : freed ≠ 0) (hf : flume ≠ hostFlume) :
    b.flumeResumed flume freed = b.serve := by
  simp [Block.flumeResumed, h, hf]

theorem Block.flumeResumed_zero (b : Block) (flume : Nat) : b.flumeResumed flume 0 = b := by
  simp [Block.flumeResumed]

-- The obligation ---------------------------------------------------------------------------------------------------------------

/-- Settles O8: GO by the four outcomes of `clkGo`, the relocks and losses by their equations, and the flumes by what is stalled. -/
theorem clockCommands : Obligations.ClockCommands := by
  unfold Obligations.ClockCommands
  refine ⟨?goStarts, ?goPends, ?goRefused, ?relockEnds, ?relockStarts, ?otherLost, ?coreLost, ?gmcLost, ?gmcRelocks, ?flumeServes,
    ?flumeCredits, ?flumeNothing⟩
  case goStarts =>
    intro s d target hd hl hc hok hon hr
    exact ⟨_, exec_coreClkGo s d target hr, s.blk.coreClkGo_starts d target hd hl hc hok hon⟩
  case goPends =>
    intro s d target hd h hr
    exact ⟨_, exec_coreClkGo s d target hr, s.blk.coreClkGo_pends d target hd h⟩
  case goRefused =>
    intro s d target hd hc hbad hr
    exact ⟨_, exec_coreClkGo s d target hr, s.blk.coreClkGo_refuses d target hd hc hbad⟩
  case relockEnds =>
    intro s d c hl hc hp hr
    exact ⟨_, exec_pllRelock s d hr, s.blk.pllRelock_ends d c hl hc hp⟩
  case relockStarts =>
    rintro s d c b hc hp rfl hr
    exact ⟨_, exec_pllRelock s d hr, s.blk.pllRelock_of_pending d c hc hp⟩
  case otherLost =>
    intro s n h2 h3 h26 hh hr
    refine ⟨_, exec_clockLostLock s n hr, ?_⟩
    rw [Block.clockLost_of_other _ n h2 h3 hh]
    exact ⟨s.blk.lossNoted_bit n h26, s.blk.lossNoted_pwr n, s.blk.lossNoted_mem n⟩
  case coreLost =>
    rintro s n b h2 hh rfl hr
    exact ⟨_, exec_clockLostLock s n hr, s.blk.clockLost_of_core n h2 hh⟩
  case gmcLost =>
    rintro s b hh rfl hr
    exact ⟨_, exec_clockLostLock s 3 hr, s.blk.clockLost_of_gmc hh⟩
  case gmcRelocks =>
    intro s hl hr
    exact ⟨_, exec_gmcPllRelock s hr, s.blk.gmcRelock_ends hl⟩
  case flumeServes =>
    intro s flume freed hfreed hflume hr
    exact ⟨_, exec_flumeWriteResumed s flume freed hr, s.blk.flumeResumed_other flume freed hfreed hflume⟩
  case flumeCredits =>
    intro s freed c hfreed hc hs hr
    refine ⟨_, exec_flumeWriteResumed s hostFlume freed hr, ?_⟩
    rw [Block.flumeResumed_host _ _ hfreed, Block.hostFreed_of_empty _ _ c hc hs]
    exact ⟨rfl, rfl, rfl, rfl⟩
  case flumeNothing =>
    intro s flume hr
    exact ⟨_, exec_flumeWriteResumed s flume 0 hr, by rw [Block.flumeResumed_zero]⟩

end Sys2Proof.Machine
end

section
/-! SUPPORT. Writes of the always-on registers (spec/03, R33, R114, R115; spec/04, R139 to R142; spec/05, R207, R880): how a write
comes to the domain's door, the outcomes there, the flags of AON_STATUS, the crossing write applied, and the obligation on them. -/

namespace Sys2Proof.Machine

-- From the requester to the domain's door ------------------------------------------------------------------------------------

/-- A requester that may write every always-on register and whose writes arrive: the management controller, or the PF outside D3hot. -/
def Block.aonWriter (b : Block) (who : Requester) : Prop := who = .mctp ∨ who = .pf ∧ b.inD3 .pf = false

/-- SVC_LOCK concerns no always-on register (R818). -/
theorem Block.svcLocked_aon (b : Block) (off size val : Nat) (ha : aonOffset off = true) : b.svcLocked off size val = false := by
  have hout : ¬(0xA00000 ≤ off ∧ off < 0xB00000) := by
    simp only [aonOffset, decide_eq_true_eq] at ha
    omega
  simp [Block.svcLocked, hout]

/-- An aligned write of 4 or 8 bytes of an always-on register by such a requester is let through. -/
theorem Block.writeSetup_aon (b : Block) (who : Requester) (off size val mask meet : Nat) (hw : b.aonWriter who)
    (hs : size = 4 ∨ size = 8) (hal : off % size = 0) (ha : aonOffset off = true) :
    b.writeSetup who off size val mask meet = b.writeThrough who off size val mask meet := by
  have hform : ¬(!((size == 4 || size == 8) && off % size == 0)) = true := by rcases hs with rfl | rfl <;> simp [hal]
  rcases hw with rfl | ⟨rfl, hd⟩
  · unfold Block.writeSetup
    exact if_neg hform
  · have harrives : (if b.inD3 .pf = true then none else reqOffset .pf off) = some off := by
      rw [hd]
      rfl
    have hfree : ¬ b.svcLocked off size val = true := by simp [b.svcLocked_aon off size val ha]
    unfold Block.writeSetup
    rw [harrives]
    exact (if_neg hform).trans (if_neg hfree)

/-- A write of registers that exist, AON_STATUS apart, comes to the domain's door with nothing else done. -/
theorem Block.writeThrough_aon (b : Block) (who : Requester) (off size val mask meet : Nat) (ha : aonOffset off = true)
    (hf : ∀ w ∈ wordsOf off size val, fieldsAt w.1 ≠ []) (hne : off ≠ 0x30100) :
    b.writeThrough who off size val mask meet = b.aonWrite who off size val := by
  have hmapped : ((wordsOf off size val).any fun w => (fieldsAt w.1).isEmpty) = false := by
    simpa using hf
  simp [Block.writeThrough, ha, hmapped, hne]

/-- The two words of an aligned access to AON_STATUS hold no field that crosses. -/
theorem aonLive_of_status (size val : Nat) : ∀ w ∈ wordsOf 0x30100 size val, aonLive w.1 = false := by
  intro w hw
  unfold wordsOf at hw
  split at hw <;> simp only [List.mem_cons, List.not_mem_nil, or_false] at hw
  · rcases hw with rfl | rfl <;> simp [aonLive]
  · simp [hw, aonLive]

/-- A write that reaches a field that crosses is none of AON_STATUS. -/
theorem ne_status_of_live (off size val : Nat) (hl : ∃ w ∈ wordsOf off size val, aonLive w.1 = true) : off ≠ 0x30100 := by
  rintro rfl
  obtain ⟨w, hw, hlive⟩ := hl
  rw [aonLive_of_status size val w hw] at hlive
  cases hlive

/-- AON_WRITE of registers that exist, AON_STATUS apart, comes to the domain's door. -/
theorem Block.aonWrite_arrives (b : Block) (who : Requester) (off size val : Nat) (hw : b.aonWriter who)
    (hs : size = 4 ∨ size = 8) (hal : off % size = 0) (ha : aonOffset off = true)
    (hf : ∀ w ∈ wordsOf off size val, fieldsAt w.1 ≠ []) (hne : off ≠ 0x30100) :
    (if aonOffset off then b.writeSetup who off size val 0 0 else b) = b.aonWrite who off size val := by
  rw [if_pos ha, b.writeSetup_aon who off size val 0 0 hw hs hal ha, b.writeThrough_aon who off size val 0 0 ha hf hne]

-- At the domain's door: one equation for each outcome (R114, R115, R880) -------------------------------------------------------

/-- With no write crossing, one that reaches a field that can change crosses. -/
theorem Block.aonWrite_crosses (b : Block) (who : Requester) (off size val : Nat)
    (hl : ∃ w ∈ wordsOf off size val, aonLive w.1 = true) (hc : b.pwr.crossing = none) :
    b.aonWrite who off size val =
      { b with pwr := { b.pwr with crossing := some { who := who, off := off, size := size, val := val % 2 ^ (8 * size) } } } := by
  have hany : ((wordsOf off size val).any fun w => aonLive w.1) = true := List.any_eq_true.mpr hl
  simp [Block.aonWrite, hany, hc]

/-- While one crosses, another that would change something is dropped and AON_DROP set. -/
theorem Block.aonWrite_drops (b : Block) (who : Requester) (off size val : Nat)
    (hl : ∃ w ∈ wordsOf off size val, aonLive w.1 = true) (hc : b.pwr.crossing ≠ none)
    (hch : ∃ w ∈ wordsOf off size val, b.aonChanges w.1 w.2 = true) :
    b.aonWrite who off size val = b.set .AON_STATUS_AON_DROP 0 1 := by
  have hany : ((wordsOf off size val).any fun w => aonLive w.1) = true := List.any_eq_true.mpr hl
  have hchg : ((wordsOf off size val).any fun w => b.aonChanges w.1 w.2) = true := List.any_eq_true.mpr hch
  have hbusy : b.pwr.crossing.isSome = true := Option.isSome_iff_ne_none.mpr hc
  simp [Block.aonWrite, hany, hchg, hbusy]

/-- A write that reaches no field that can change does nothing. -/
theorem Block.aonWrite_of_fixed (b : Block) (who : Requester) (off size val : Nat)
    (hl : ∀ w ∈ wordsOf off size val, aonLive w.1 = false) : b.aonWrite who off size val = b := by
  have hnone : ((wordsOf off size val).any fun w => aonLive w.1) = false := by simpa using hl
  simp [Block.aonWrite, hnone]

/-- While one crosses, another that would change nothing does nothing. -/
theorem Block.aonWrite_of_unchanged (b : Block) (who : Requester) (off size val : Nat) (hc : b.pwr.crossing ≠ none)
    (hch : ∀ w ∈ wordsOf off size val, b.aonChanges w.1 w.2 = false) : b.aonWrite who off size val = b := by
  have hnone : ((wordsOf off size val).any fun w => b.aonChanges w.1 w.2) = false := by simpa using hch
  have hbusy : b.pwr.crossing.isSome = true := Option.isSome_iff_ne_none.mpr hc
  simp [Block.aonWrite, hnone, hbusy]

theorem exec_aonWrite (s : State) (who : Requester) (off size val : Nat) (hr : s.blk.inReset = false) (hw : s.blk.aonWriter who)
    (hs : size = 4 ∨ size = 8) (hal : off % size = 0) (ha : aonOffset off = true)
    (hf : ∀ w ∈ wordsOf off size val, fieldsAt w.1 ≠ []) (hne : off ≠ 0x30100) :
    exec (.aonWrite who off size val) s = .next { s with blk := s.blk.aonWrite who off size val } := by
  rw [← s.blk.aonWrite_arrives who off size val hw hs hal ha hf hne]
  exact State.act_running s (fun b => if aonOffset off then b.writeSetup who off size val 0 0 else b) hr

-- KR_LOAD, KR_CLEAR and KR_LOCK ------------------------------------------------------------------------------------------------

/-- The word of KR_CTRL has fields. -/
theorem krCtrl_fields (val : Nat) : ∀ w ∈ wordsOf 0x10120 4 val, fieldsAt w.1 ≠ [] := by
  have hmem : (.KR_CTRL_LOAD, 0) ∈ fieldsAt 0x10120 := by decide +kernel
  simpa [wordsOf] using List.ne_nil_of_mem hmem

/-- A write of KR_CTRL by the PF crosses when none does. -/
theorem Block.krCtrl_crosses (b : Block) (val : Nat) (hd : b.inD3 .pf = false) (hc : b.pwr.crossing = none) :
    b.writeSetup .pf 0x10120 4 val 0 0 =
      { b with pwr := { b.pwr with crossing := some { who := .pf, off := 0x10120, size := 4, val := val % 2 ^ 32 } } } := by
  rw [b.writeSetup_aon .pf 0x10120 4 val 0 0 (.inr ⟨rfl, hd⟩) (.inl rfl) rfl rfl,
    b.writeThrough_aon .pf 0x10120 4 val 0 0 rfl (krCtrl_fields val) (by decide)]
  exact b.aonWrite_crosses .pf 0x10120 4 val ⟨(0x10120, val % 2 ^ 32), by simp [wordsOf], rfl⟩ hc

theorem exec_krLoad (s : State) (hr : s.blk.inReset = false) :
    exec .krLoad s = .next { s with blk := s.blk.writeSetup .pf 0x10120 4 1 0 0 } :=
  State.act_running s (·.writeSetup .pf 0x10120 4 1 0 0) hr

theorem exec_krClear (s : State) (hr : s.blk.inReset = false) :
    exec .krClear s = .next { s with blk := s.blk.writeSetup .pf 0x10120 4 2 0 0 } :=
  State.act_running s (·.writeSetup .pf 0x10120 4 2 0 0) hr

theorem exec_krLock (s : State) (hr : s.blk.inReset = false) :
    exec .krLock s = .next { s with blk := s.blk.writeSetup .pf 0x10120 4 4 0 0 } :=
  State.act_running s (·.writeSetup .pf 0x10120 4 4 0 0) hr

-- AON_STATUS (R114, R207) ------------------------------------------------------------------------------------------------------

/-- One flag of AON_STATUS at a write: set where hardware sets it in that cycle, otherwise cleared by a one. -/
def Block.aonFlag (b : Block) (val hwSet n : Nat) (f : Fld) : Block :=
  if hwSet.testBit n then b.set f 0 1 else if val.testBit n then b.set f 0 0 else b

/-- What a write does to one flag, by its two bits: hardware sets it, a one clears it, or it stays. -/
theorem Block.aonFlag_cases (b : Block) (val hwSet n : Nat) (f : Fld) :
    hwSet.testBit n = true ∧ b.aonFlag val hwSet n f = b.set f 0 1 ∨
      hwSet.testBit n = false ∧ val.testBit n = true ∧ b.aonFlag val hwSet n f = b.set f 0 0 ∨
      hwSet.testBit n = false ∧ val.testBit n = false ∧ b.aonFlag val hwSet n f = b := by
  unfold Block.aonFlag
  cases hwSet.testBit n with
  | true => exact .inl ⟨rfl, rfl⟩
  | false =>
    cases val.testBit n with
    | true => exact .inr (.inl ⟨rfl, rfl, rfl⟩)
    | false => exact .inr (.inr ⟨rfl, rfl, rfl⟩)

theorem Block.aonStatus_eq (b : Block) (val hwSet : Nat) :
    b.aonStatus val hwSet = ((b.aonFlag val hwSet 1 .AON_STATUS_AON_DROP).aonFlag val hwSet 2 .AON_STATUS_ZEROED).aonFlag val hwSet 3
      .AON_STATUS_VBAT_LOST := rfl

@[simp] theorem Block.aonFlag_pwr (b : Block) (val hwSet n : Nat) (f : Fld) : (b.aonFlag val hwSet n f).pwr = b.pwr := by
  rcases b.aonFlag_cases val hwSet n f with ⟨_, h⟩ | ⟨_, _, h⟩ | ⟨_, _, h⟩ <;> rw [h] <;> rfl

@[simp] theorem Block.aonFlag_mem (b : Block) (val hwSet n : Nat) (f : Fld) : (b.aonFlag val hwSet n f).mem = b.mem := by
  rcases b.aonFlag_cases val hwSet n f with ⟨_, h⟩ | ⟨_, _, h⟩ | ⟨_, _, h⟩ <;> rw [h] <;> rfl

/-- The flag itself, one bit wide. -/
theorem Block.aonFlag_get_same (b : Block) (val hwSet n : Nat) (f : Fld) (hf : f.desc.width = 1) :
    (b.aonFlag val hwSet n f).get f 0 = if hwSet.testBit n then 1 else if val.testBit n then 0 else b.get f 0 := by
  rcases b.aonFlag_cases val hwSet n f with ⟨hset, h⟩ | ⟨hset, hone, h⟩ | ⟨hset, hone, h⟩
  · have hwidth : 1 % 2 ^ f.desc.width = 1 := congrArg (fun k => 1 % 2 ^ k) hf
    rw [h, hset, Block.get_set_same, if_pos rfl, hwidth]
  · rw [h, hset, hone, Block.get_set_same, Nat.zero_mod, if_neg Bool.false_ne_true, if_pos rfl]
  · rw [h, hset, hone, if_neg Bool.false_ne_true, if_neg Bool.false_ne_true]

/-- Every other register. -/
@[simp] theorem Block.aonFlag_get_other (b : Block) (val hwSet n : Nat) (f g : Fld) (i : Nat) (h : f ≠ g) :
    (b.aonFlag val hwSet n f).get g i = b.get g i := by
  rcases b.aonFlag_cases val hwSet n f with ⟨_, e⟩ | ⟨_, _, e⟩ | ⟨_, _, e⟩ <;> rw [e]
  · exact Block.get_set_other _ _ _ _ _ _ h
  · exact Block.get_set_other _ _ _ _ _ _ h

/-- The word of AON_STATUS has fields. -/
theorem status_fields (val : Nat) : ∀ w ∈ wordsOf 0x30100 4 val, fieldsAt w.1 ≠ [] := by
  have hmem : (.AON_STATUS_AON_DROP, 0) ∈ fieldsAt 0x30100 := by decide +kernel
  simpa [wordsOf] using List.ne_nil_of_mem hmem

/-- A write of AON_STATUS is applied at once, and nothing crosses. -/
theorem Block.writeSetup_status (b : Block) (who : Requester) (val meet : Nat) (hw : b.aonWriter who) :
    b.writeSetup who 0x30100 4 val meet meet = b.aonStatus (val % 2 ^ 32) meet := by
  have hmapped : ((wordsOf 0x30100 4 val).any fun w => (fieldsAt w.1).isEmpty) = false := by
    simpa using status_fields val
  rw [b.writeSetup_aon who 0x30100 4 val meet meet hw (.inl rfl) rfl rfl]
  have ha : aonOffset 0x30100 = true := rfl
  simp only [Block.writeThrough, ha, hmapped, Nat.and_self, if_true, Bool.false_eq_true, if_false]
  exact Block.aonWrite_of_fixed _ who 0x30100 4 val (aonLive_of_status 4 val)

theorem exec_aonStatusWrite (s : State) (who : Requester) (val meet : Nat) (hr : s.blk.inReset = false) (hw : s.blk.aonWriter who) :
    exec (.aonStatusWrite who val meet) s = .next { s with blk := s.blk.aonStatus (val % 2 ^ 32) meet } := by
  rw [← s.blk.writeSetup_status who val meet hw]
  exact State.act_running s (·.writeSetup who 0x30100 4 val meet meet) hr

/-- A bit below 32 of a word is that bit of the value written. -/
theorem testBit_word (v n : Nat) (h : n < 32) : (v % 2 ^ 32).testBit n = v.testBit n := by
  rw [Nat.testBit_mod_two_pow]
  simp [h]

-- The crossing write applied (R33) -----------------------------------------------------------------------------------------------

theorem exec_aonWriteApplied (s : State) : exec .aonWriteApplied s = .next { s with blk := s.blk.aonApplied } := rfl

/-- The block with its always-on domain free again. -/
def Block.uncrossed (b : Block) : Block := { b with pwr := { b.pwr with crossing := none } }

/-- A crossing write of one register takes effect as its one word. -/
theorem Block.aonApplied_word (b : Block) (w : AonWrite) (hc : b.pwr.crossing = some w) (hs : w.size ≠ 8) :
    b.aonApplied = b.uncrossed.applyAonWord w.off (w.val % 2 ^ 32) := by
  unfold Block.aonApplied
  rw [hc]
  exact if_neg hs

/-- A crossing write of 8 bytes takes effect as its two words, the lower first. -/
theorem Block.aonApplied_pair (b : Block) (w : AonWrite) (hc : b.pwr.crossing = some w) (hs : w.size = 8) :
    b.aonApplied = (b.uncrossed.applyAonWord w.off (w.val % 2 ^ 32)).applyAonWord (w.off + 4) (w.val / 2 ^ 32) := by
  unfold Block.aonApplied
  rw [hc]
  exact if_pos hs

/-- A word of KR_DATA (R139). -/
theorem Block.applyAonWord_krData (b : Block) (a v : Nat) (h : 0x10100 ≤ a ∧ a < 0x10120) :
    b.applyAonWord a v = { b with pwr := { b.pwr with krData := b.pwr.krData.set ((a - 0x10100) / 4) (v % 2 ^ 32) } } := by
  unfold Block.applyAonWord
  exact if_pos h

/-- A word of AON_SCRATCH. -/
theorem Block.applyAonWord_scratch (b : Block) (a v : Nat) (h : 0x30120 ≤ a ∧ a < 0x30130) :
    b.applyAonWord a v = b.set .AON_SCRATCH_DATA ((a - 0x30120) / 4) v := by
  unfold Block.applyAonWord
  rw [if_neg (by omega), if_neg (by omega), if_pos h]

/-- KR_REFUSED cleared by a one. -/
def Block.krAck (b : Block) (v : Nat) : Block := if v.testBit 4 then b.set .KR_CTRL_KR_REFUSED 0 0 else b

/-- LOAD: KR_DATA moves to the key RAM, with event 0x06 (R141). -/
def Block.krLoad (b : Block) (v : Nat) : Block :=
  if v.testBit 0 then
    ({ b with pwr := { b.pwr with keyRam := some (b.pwr.krData.flatMap (leBytes 4)) } }).event 0x01 0x06 [0]
  else b

/-- CLEAR: the key RAM is emptied, with event 0x06 (R140). -/
def Block.krClear (b : Block) (v : Nat) : Block :=
  if v.testBit 1 then ({ b with pwr := { b.pwr with keyRam := none } }).event 0x01 0x06 [1] else b

/-- LOCK is set by a one (R142). -/
def Block.krLock (b : Block) (v : Nat) : Block := if v.testBit 2 then b.set .KR_CTRL_LOCK 0 1 else b

/-- The word of KR_CTRL while LOCK is 0: its four parts in their order. -/
theorem Block.applyAonWord_krCtrl (b : Block) (v : Nat) (hl : b.on .KR_CTRL_LOCK = false) :
    b.applyAonWord 0x10120 v = (((b.krAck v).krLoad v).krClear v).krLock v := by
  unfold Block.applyAonWord
  rw [if_neg (by decide), if_pos rfl]
  simp only [hl, Bool.false_eq_true, if_false]
  rfl

@[simp] theorem Block.krAck_pwr (b : Block) (v : Nat) : (b.krAck v).pwr = b.pwr := by
  unfold Block.krAck
  split <;> rfl

@[simp] theorem Block.krLoad_pwr (b : Block) (v : Nat) : (b.krLoad v).pwr =
    { b.pwr with keyRam := if v.testBit 0 then some (b.pwr.krData.flatMap (leBytes 4)) else b.pwr.keyRam } := by
  unfold Block.krLoad
  by_cases h : v.testBit 0 = true
  · rw [if_pos h, if_pos h, Block.event_pwr]
  · rw [if_neg h, if_neg h]

@[simp] theorem Block.krClear_pwr (b : Block) (v : Nat) :
    (b.krClear v).pwr = { b.pwr with keyRam := if v.testBit 1 then none else b.pwr.keyRam } := by
  unfold Block.krClear
  by_cases h : v.testBit 1 = true
  · rw [if_pos h, if_pos h, Block.event_pwr]
  · rw [if_neg h, if_neg h]

@[simp] theorem Block.krLock_pwr (b : Block) (v : Nat) : (b.krLock v).pwr = b.pwr := by
  unfold Block.krLock
  split <;> rfl

@[simp] theorem Block.krAck_lock (b : Block) (v : Nat) : (b.krAck v).get .KR_CTRL_LOCK 0 = b.get .KR_CTRL_LOCK 0 := by
  unfold Block.krAck
  split
  · exact Block.get_set_other _ _ _ _ _ _ (by decide)
  · rfl

@[simp] theorem Block.krLoad_lock (b : Block) (v : Nat) : (b.krLoad v).get .KR_CTRL_LOCK 0 = b.get .KR_CTRL_LOCK 0 := by
  unfold Block.krLoad
  split
  · exact Block.event_get _ _ _ _ _ _ _ rfl
  · rfl

@[simp] theorem Block.krClear_lock (b : Block) (v : Nat) : (b.krClear v).get .KR_CTRL_LOCK 0 = b.get .KR_CTRL_LOCK 0 := by
  unfold Block.krClear
  split
  · exact Block.event_get _ _ _ _ _ _ _ rfl
  · rfl

theorem Block.krLock_lock (b : Block) (v : Nat) :
    (b.krLock v).get .KR_CTRL_LOCK 0 = if v.testBit 2 then 1 else b.get .KR_CTRL_LOCK 0 := by
  unfold Block.krLock
  by_cases h : v.testBit 2 = true
  · rw [if_pos h, if_pos h]
    exact Block.get_set_same _ _ _ _
  · rw [if_neg h, if_neg h]

-- The obligation, clause by clause -------------------------------------------------------------------------------------------------

/-- AON_STATUS written: its three flags, and nothing else. -/
theorem Block.aonStatus_frame (b : Block) (val meet : Nat) :
    (b.aonStatus (val % 2 ^ 32) meet).pwr = b.pwr ∧ (b.aonStatus (val % 2 ^ 32) meet).mem = b.mem ∧
      (b.aonStatus (val % 2 ^ 32) meet).get .AON_STATUS_AON_DROP 0 =
        (if meet.testBit 1 then 1 else if val.testBit 1 then 0 else b.get .AON_STATUS_AON_DROP 0) ∧
      (b.aonStatus (val % 2 ^ 32) meet).get .AON_STATUS_ZEROED 0 =
        (if meet.testBit 2 then 1 else if val.testBit 2 then 0 else b.get .AON_STATUS_ZEROED 0) ∧
      (b.aonStatus (val % 2 ^ 32) meet).get .AON_STATUS_VBAT_LOST 0 =
        (if meet.testBit 3 then 1 else if val.testBit 3 then 0 else b.get .AON_STATUS_VBAT_LOST 0) ∧
      ∀ f i, f ≠ .AON_STATUS_AON_DROP → f ≠ .AON_STATUS_ZEROED → f ≠ .AON_STATUS_VBAT_LOST →
        (b.aonStatus (val % 2 ^ 32) meet).get f i = b.get f i := by
  rw [Block.aonStatus_eq]
  refine ⟨by simp, by simp, ?drop, ?zeroed, ?lost, ?others⟩
  case drop =>
    rw [Block.aonFlag_get_other _ _ _ _ _ _ _ (by decide), Block.aonFlag_get_other _ _ _ _ _ _ _ (by decide),
      Block.aonFlag_get_same _ _ _ _ _ rfl, testBit_word _ _ (by decide)]
  case zeroed =>
    rw [Block.aonFlag_get_other _ _ _ _ _ _ _ (by decide), Block.aonFlag_get_same _ _ _ _ _ rfl, testBit_word _ _ (by decide),
      Block.aonFlag_get_other _ _ _ _ _ _ _ (by decide)]
  case lost =>
    rw [Block.aonFlag_get_same _ _ _ _ _ rfl, testBit_word _ _ (by decide), Block.aonFlag_get_other _ _ _ _ _ _ _ (by decide),
      Block.aonFlag_get_other _ _ _ _ _ _ _ (by decide)]
  case others =>
    intro f i hdrop hzeroed hlost
    rw [Block.aonFlag_get_other _ _ _ _ _ _ _ hlost.symm, Block.aonFlag_get_other _ _ _ _ _ _ _ hzeroed.symm,
      Block.aonFlag_get_other _ _ _ _ _ _ _ hdrop.symm]

/-- KR_CTRL applied while LOCK is 0: LOAD, then CLEAR, then LOCK. -/
theorem Block.aonApplied_krCtrl (b : Block) (w : AonWrite) (hc : b.pwr.crossing = some w) (hs : w.size ≠ 8) (ho : w.off = 0x10120)
    (hl : b.get .KR_CTRL_LOCK 0 = 0) :
    b.aonApplied.pwr.crossing = none ∧
      b.aonApplied.pwr.keyRam = (if w.val.testBit 1 then none else if w.val.testBit 0 then some (b.pwr.krData.flatMap (leBytes 4))
        else b.pwr.keyRam) ∧
      b.aonApplied.get .KR_CTRL_LOCK 0 = if w.val.testBit 2 then 1 else 0 := by
  have hl' : b.uncrossed.get .KR_CTRL_LOCK 0 = 0 := hl
  rw [b.aonApplied_word w hc hs, ho, Block.applyAonWord_krCtrl _ _ ((Block.on_eq_false_iff _ _ _).mpr hl')]
  refine ⟨by simp [Block.uncrossed], ?keyRam, ?lock⟩
  case keyRam =>
    rw [Block.krLock_pwr, Block.krClear_pwr, Block.krLoad_pwr, Block.krAck_pwr, testBit_word _ _ (by decide),
      testBit_word _ _ (by decide)]
    rfl
  case lock =>
    rw [Block.krLock_lock, Block.krClear_lock, Block.krLoad_lock, Block.krAck_lock, hl', testBit_word _ _ (by decide)]

/-- AON_SCRATCH applied: the word reads as written, and every other register as before. -/
theorem Block.aonApplied_scratch (b : Block) (w : AonWrite) (hc : b.pwr.crossing = some w) (hs : w.size ≠ 8)
    (ho : 0x30120 ≤ w.off ∧ w.off < 0x30130) :
    b.aonApplied.pwr = { b.pwr with crossing := none } ∧
      b.aonApplied.get .AON_SCRATCH_DATA ((w.off - 0x30120) / 4) = w.val % 2 ^ 32 ∧
      ∀ f i, ¬(f = .AON_SCRATCH_DATA ∧ i = (w.off - 0x30120) / 4) → b.aonApplied.get f i = b.get f i := by
  rw [b.aonApplied_word w hc hs, Block.applyAonWord_scratch _ _ _ ho]
  refine ⟨rfl, ?_, fun f i hne => ?_⟩
  · rw [Block.get_set_same]
    exact Nat.mod_mod _ _
  · rw [Block.get_set, if_neg fun e => hne ⟨e.1.symm, e.2.symm⟩]
    rfl

/-- AON_WRITE of fixed bits, or of what stands there already while a write crosses, changes nothing, in reset or out of it. -/
theorem exec_aonWrite_idle (s : State) (who : Requester) (off size val : Nat) (hw : s.blk.aonWriter who)
    (hs : size = 4 ∨ size = 8) (hal : off % size = 0) (ha : aonOffset off = true)
    (hf : ∀ w ∈ wordsOf off size val, fieldsAt w.1 ≠ []) (hne : off ≠ 0x30100)
    (h : s.blk.pwr.crossing ≠ none ∧ (∀ w ∈ wordsOf off size val, s.blk.aonChanges w.1 w.2 = false) ∨
      ∀ w ∈ wordsOf off size val, aonLive w.1 = false) :
    exec (.aonWrite who off size val) s = .next s := by
  cases hr : s.blk.inReset with
  | true => exact State.act_held s _ hr
  | false =>
    have hidle : s.blk.aonWrite who off size val = s.blk := by
      rcases h with ⟨hc, hch⟩ | hfixed
      · exact s.blk.aonWrite_of_unchanged who off size val hc hch
      · exact s.blk.aonWrite_of_fixed who off size val hfixed
    rw [exec_aonWrite s who off size val hr hw hs hal ha hf hne, hidle]

/-- Settles O3: what is written comes to the domain's door and there crosses, is dropped or does nothing; the crossing write is applied
word by word. -/
theorem alwaysOnWrites : Obligations.AlwaysOnWrites := by
  unfold Obligations.AlwaysOnWrites
  refine ⟨?crosses, ?drops, ?idle, ?krLoad, ?krClear, ?krLock, ?status, ?krData, ?krCtrl, ?scratch, ?pair⟩
  case crosses =>
    intro s who off size val hw hs hal ha hf hl hc hr
    refine ⟨_, exec_aonWrite s who off size val hr hw hs hal ha hf (ne_status_of_live off size val hl), ?_⟩
    rw [s.blk.aonWrite_crosses who off size val hl hc]
    exact ⟨rfl, rfl, rfl⟩
  case drops =>
    intro s who off size val hw hs hal ha hf hl hc hch hr
    refine ⟨_, exec_aonWrite s who off size val hr hw hs hal ha hf (ne_status_of_live off size val hl), ?_⟩
    rw [s.blk.aonWrite_drops who off size val hl hc hch]
    exact ⟨Block.get_set_same _ _ _ _, rfl, fun f i hne => Block.get_set_other _ _ _ _ _ _ hne.symm⟩
  case idle =>
    intro s who off size val hw hs hal ha hf hne h
    exact exec_aonWrite_idle s who off size val hw hs hal ha hf hne h
  case krLoad =>
    intro s hd hc hr
    refine ⟨_, exec_krLoad s hr, ?_⟩
    rw [s.blk.krCtrl_crosses 1 hd hc]
    exact ⟨rfl, rfl, rfl⟩
  case krClear =>
    intro s hd hc hr
    refine ⟨_, exec_krClear s hr, ?_⟩
    rw [s.blk.krCtrl_crosses 2 hd hc]
    exact ⟨rfl, rfl, rfl⟩
  case krLock =>
    intro s hd hc hr
    refine ⟨_, exec_krLock s hr, ?_⟩
    rw [s.blk.krCtrl_crosses 4 hd hc]
    exact ⟨rfl, rfl, rfl⟩
  case status =>
    intro s who val meet hw hr
    exact ⟨_, exec_aonStatusWrite s who val meet hr hw, s.blk.aonStatus_frame val meet⟩
  case krData =>
    rintro s w hc hs ⟨k, hk, ho⟩
    refine ⟨_, exec_aonWriteApplied s, ?_⟩
    rw [s.blk.aonApplied_word w hc hs, Block.applyAonWord_krData _ _ _ (by omega), Nat.mod_mod]
    exact ⟨rfl, rfl⟩
  case krCtrl =>
    intro s w hc hs ho hl
    exact ⟨_, exec_aonWriteApplied s, s.blk.aonApplied_krCtrl w hc hs ho hl⟩
  case scratch =>
    rintro s w hc hs ⟨k, hk, ho⟩
    exact ⟨_, exec_aonWriteApplied s, s.blk.aonApplied_scratch w hc hs (by omega)⟩
  case pair =>
    intro s w hc hs
    exact ⟨_, exec_aonWriteApplied s, s.blk.aonApplied_pair w hc hs⟩

end Sys2Proof.Machine
end

section
/-! SUPPORT. Rings that start and stop (spec/06, R243, R270 to R274): what a ring's own registers and table entry read as after each
update of a ring, that host accesses and held lines change only the host link, and the obligation on the enables and disables. -/

namespace Sys2Proof.Machine

-- What changes the host link alone --------------------------------------------------------------------------------------------

/-- The second block differs from the first in the host link and in what has been sent, and in nothing else. -/
def Block.LinkOnly (b c : Block) : Prop := ∃ l o, c = { b with link := l, out := o }

theorem Block.LinkOnly.refl (b : Block) : b.LinkOnly b := ⟨_, _, rfl⟩

theorem Block.LinkOnly.regs {b c : Block} (h : b.LinkOnly c) : c.regs = b.regs := by
  obtain ⟨_, _, rfl⟩ := h
  rfl

theorem Block.LinkOnly.mem {b c : Block} (h : b.LinkOnly c) : c.mem = b.mem := by
  obtain ⟨_, _, rfl⟩ := h
  rfl

theorem Block.LinkOnly.sqs {b c : Block} (h : b.LinkOnly c) : c.sqs = b.sqs := by
  obtain ⟨_, _, rfl⟩ := h
  rfl

theorem Block.LinkOnly.cqs {b c : Block} (h : b.LinkOnly c) : c.cqs = b.cqs := by
  obtain ⟨_, _, rfl⟩ := h
  rfl

theorem Block.linkOnly_send (b : Block) (o : Out) : b.LinkOnly (b.send o) := ⟨_, _, rfl⟩

theorem Block.linkOnly_issueRead (b : Block) (which : HostRead) (fn a n : Nat) : b.LinkOnly (b.issueRead which fn a n) := by
  simp only [Block.issueRead]
  split
  · exact ⟨_, _, rfl⟩
  · split <;> exact ⟨_, _, rfl⟩

theorem Block.linkOnly_askRead (b : Block) (which : HostRead) (fn a n : Nat) : b.LinkOnly (b.askRead which fn a n) := by
  unfold Block.askRead
  split
  · exact b.linkOnly_issueRead which fn a n
  · exact ⟨_, _, rfl⟩

/-- A host read for a partition whose host accesses can be sent. -/
theorem Block.startRead_of_up (b : Block) (p : Nat) (which : HostRead) (a n : Nat) (h : b.hostUp p = true) :
    b.startRead p which a n = some (b.askRead which (b.partFn p) a n) := by
  unfold Block.startRead
  exact if_pos h

theorem Block.startRead_of_down (b : Block) (p : Nat) (which : HostRead) (a n : Nat) (h : b.hostUp p = false) :
    b.startRead p which a n = none := by
  unfold Block.startRead
  exact if_neg (by simp [h])

/-- A host read that can be sent changes the host link alone, whatever is done where it cannot. -/
theorem Block.linkOnly_startRead (b d : Block) (p : Nat) (which : HostRead) (a n : Nat) (h : b.hostUp p = true) :
    b.LinkOnly ((b.startRead p which a n).getD d) := by
  rw [b.startRead_of_up _ _ _ _ h]
  exact b.linkOnly_askRead _ _ _ _

theorem Block.linkOnly_readLine (b : Block) (p l : Nat) : b.LinkOnly (b.readLine p l) := by
  unfold Block.readLine
  split
  · exact Block.LinkOnly.refl b
  · cases hup : b.hostUp p with
    | true => exact b.linkOnly_startRead b _ _ _ _ hup
    | false =>
      rw [b.startRead_of_down _ _ _ _ hup]
      exact Block.LinkOnly.refl b

/-- Lines given up and a partition moved to the PF (R243, R882). -/
theorem Block.linkOnly_settleRings (b : Block) (p : Nat) : b.LinkOnly (b.settleRings p) := ⟨_, _, rfl⟩

/-- The one examination after an enable, of a word that changes nothing. -/
theorem Block.linkOnly_firstLook (b : Block) (at_ : Option (Nat × Nat × Nat)) (w : Nat) (look : Block → Nat → Block)
    (hlook : ∀ c, b.LinkOnly c → look c w = c) : b.LinkOnly (b.firstLook at_ (some w) look) := by
  have hstill : ∀ c, b.LinkOnly c → b.LinkOnly (look c w) := fun c hc => by
    rw [hlook c hc]
    exact hc
  unfold Block.firstLook
  cases at_ with
  | none => exact hstill b (Block.LinkOnly.refl b)
  | some line =>
    obtain ⟨p, l, k⟩ := line
    dsimp only
    split
    · exact Block.LinkOnly.refl b
    split
    · exact b.linkOnly_readLine p l
    split
    · split
      · exact hstill b (Block.LinkOnly.refl b)
      · exact hstill _ ⟨_, _, rfl⟩
    · exact hstill _ (b.linkOnly_send _)

-- What a submission ring reads as ---------------------------------------------------------------------------------------------

theorem Block.get_of_regs {b c : Block} (h : c.regs = b.regs) (f : Fld) (i : Nat) : c.get f i = b.get f i := by
  unfold Block.get
  rw [h]

theorem Block.sqState_of_regs {b c : Block} (h : c.regs = b.regs) (q : SqRef) : c.sqState q = b.sqState q := by
  cases q <;> exact Block.get_of_regs h _ _

theorem Block.sq_of_sqs {b c : Block} (h : c.sqs = b.sqs) (q : SqRef) : c.sq q = b.sq q := by
  unfold Block.sq
  rw [h]

theorem Block.sqTail_of_sqs {b c : Block} (h : c.sqs = b.sqs) (q : SqRef) : c.sqTail q = b.sqTail q :=
  congrArg SqAux.lastWord (Block.sq_of_sqs h q)

@[simp] theorem Block.sq_setSq_same (b : Block) (q : SqRef) (x : SqAux) : (b.setSq q x).sq q = x := Tab.get_put_same _ _ _ _
@[simp] theorem Block.setSq_mem (b : Block) (q : SqRef) (x : SqAux) : (b.setSq q x).mem = b.mem := rfl

/-- A state of two bits, as written. -/
theorem Block.sqState_setSqState (b : Block) (q : SqRef) (v : Nat) (h : v < 4) : (b.setSqState q v).sqState q = v := by
  cases q <;> exact (Block.get_set_same _ _ _ _).trans (Nat.mod_eq_of_lt h)

@[simp] theorem Block.setSqState_sqs (b : Block) (q : SqRef) (v : Nat) : (b.setSqState q v).sqs = b.sqs := by
  cases q <;> rfl

@[simp] theorem Block.setSqState_mem (b : Block) (q : SqRef) (v : Nat) : (b.setSqState q v).mem = b.mem := by
  cases q <;> rfl

@[simp] theorem Block.sqState_setSqEnable (b : Block) (q : SqRef) (v : Nat) : (b.setSqEnable q v).sqState q = b.sqState q := by
  cases q <;> exact Block.get_set_other _ _ _ _ _ _ (by decide)

@[simp] theorem Block.setSqEnable_sqs (b : Block) (q : SqRef) (v : Nat) : (b.setSqEnable q v).sqs = b.sqs := by
  cases q <;> rfl

@[simp] theorem Block.setSqEnable_mem (b : Block) (q : SqRef) (v : Nat) : (b.setSqEnable q v).mem = b.mem := by
  cases q <;> rfl

@[simp] theorem Block.sqState_setSqHead (b : Block) (q : SqRef) (w : Nat) : (b.setSqHead q w).sqState q = b.sqState q := by
  cases q with
  | host p r => simp [Block.setSqHead, Block.sqState]
  | post c r => simp [Block.setSqHead, Block.sqState]

@[simp] theorem Block.setSqHead_sqs (b : Block) (q : SqRef) (w : Nat) : (b.setSqHead q w).sqs = b.sqs := by
  cases q <;> rfl

@[simp] theorem Block.setSqHead_mem (b : Block) (q : SqRef) (w : Nat) : (b.setSqHead q w).mem = b.mem := by
  cases q <;> rfl

@[simp] theorem Block.sqState_setSqTail (b : Block) (q : SqRef) (w : Nat) : (b.setSqTail q w).sqState q = b.sqState q := by
  cases q with
  | host p r => exact Block.get_set_other _ _ _ _ _ _ (by decide)
  | post c r => rfl

@[simp] theorem Block.setSqTail_mem (b : Block) (q : SqRef) (w : Nat) : (b.setSqTail q w).mem = b.mem := by
  cases q <;> rfl

/-- A new tail word is all that changes of the ring's table entry. -/
@[simp] theorem Block.sq_setSqTail (b : Block) (q : SqRef) (w : Nat) : (b.setSqTail q w).sq q = { b.sq q with lastWord := w } := by
  cases q <;> exact Block.sq_setSq_same _ _ _

/-- HALT_CAUSE and the in-flight count of a ring that starts. -/
def Block.sqFresh (b : Block) (q : SqRef) : Block :=
  match q with
  | .host p r => (b.set .SQ_STATUS_HALT_CAUSE (ringIx p r) 0).set .SQ_INFLIGHT_COUNT (ringIx p r) 0
  | .post c r => b.set .POST_STATUS_HALT_CAUSE (postIx c r) 0

@[simp] theorem Block.sqState_sqFresh (b : Block) (q : SqRef) : (b.sqFresh q).sqState q = b.sqState q := by
  cases q with
  | host p r => simp [Block.sqFresh, Block.sqState]
  | post c r => simp [Block.sqFresh, Block.sqState]

@[simp] theorem Block.sqFresh_sqs (b : Block) (q : SqRef) : (b.sqFresh q).sqs = b.sqs := by
  cases q <;> rfl

@[simp] theorem Block.sqFresh_mem (b : Block) (q : SqRef) : (b.sqFresh q).mem = b.mem := by
  cases q <;> rfl

-- SQ_ENABLE -------------------------------------------------------------------------------------------------------------------

/-- A submission ring that has just been made ACTIVE at its start, before its first word is examined (R270). -/
def Block.sqStarted (b : Block) (q : SqRef) : Block :=
  (((((b.setSq q SqAux.reset).setSqState q rActive).setSqEnable q 1).setSqHead q (b.sqStart q)).setSqTail q (b.sqStart q)).sqFresh q

theorem Block.sqStarted_state (b : Block) (q : SqRef) : (b.sqStarted q).sqState q = rActive := by
  simp [Block.sqStarted, Block.sqState_setSqState _ _ rActive (by decide)]

theorem Block.sqStarted_sq (b : Block) (q : SqRef) : (b.sqStarted q).sq q = { SqAux.reset with lastWord := b.sqStart q } := by
  have hsq : ((((b.setSq q SqAux.reset).setSqState q rActive).setSqEnable q 1).setSqHead q (b.sqStart q)).sq q = SqAux.reset := by
    rw [Block.sq_of_sqs (b := b.setSq q SqAux.reset) (by simp), Block.sq_setSq_same]
  rw [Block.sqStarted, Block.sq_of_sqs (Block.sqFresh_sqs _ _), Block.sq_setSqTail, hsq]

theorem Block.sqStarted_mem (b : Block) (q : SqRef) : (b.sqStarted q).mem = b.mem := by
  simp [Block.sqStarted]

theorem exec_sqEnable (s : State) (q : SqRef) (w : Nat) (hr : s.blk.inReset = false) :
    exec (.sqEnable q w) s = .next { s with blk := s.blk.sqEnable q (some w) } :=
  State.act_running s (·.sqEnable q (some w)) hr

/-- An enable that nothing refuses starts the ring and examines one word. -/
theorem Block.sqEnable_starts (b : Block) (q : SqRef) (w : Option Nat) (hoff : b.sqState q = rOff) (hok : b.sqRefusal q = none) :
    b.sqEnable q w = (b.sqStarted q).firstLook (sqLine q) w fun b w => b.examineTail q w := by
  unfold Block.sqEnable
  rw [if_neg (not_not_intro hoff), hok]
  cases q <;> rfl

/-- An enable that is refused leaves its cause. -/
theorem Block.sqEnable_refused (b : Block) (q : SqRef) (w : Option Nat) (c : Nat) (hoff : b.sqState q = rOff)
    (hbad : b.sqRefusal q = some c) : b.sqEnable q w = b.setSqRefused q c := by
  unfold Block.sqEnable
  rw [if_neg (not_not_intro hoff), hbad]

/-- The word a ring holds already changes nothing. -/
theorem Block.examineTail_same (b : Block) (q : SqRef) : b.examineTail q (b.sqTail q) = b := by
  simp [Block.examineTail]

/-- A ring enabled with its own start as the first word: nothing but the host link differs from the ring as started. -/
theorem Block.sqEnable_at_start (b : Block) (q : SqRef) (hoff : b.sqState q = rOff) (hok : b.sqRefusal q = none) :
    (b.sqStarted q).LinkOnly (b.sqEnable q (some (b.sqStart q))) := by
  rw [b.sqEnable_starts q _ hoff hok]
  refine Block.linkOnly_firstLook _ _ _ _ fun c hc => ?_
  have htail : c.sqTail q = b.sqStart q := by rw [Block.sqTail_of_sqs hc.sqs, Block.sqTail, b.sqStarted_sq]
  rw [← htail]
  exact c.examineTail_same q

theorem Block.sqEnable_start (b : Block) (q : SqRef) (hoff : b.sqState q = rOff) (hok : b.sqRefusal q = none) :
    (b.sqEnable q (some (b.sqStart q))).sqState q = rActive ∧ (b.sqEnable q (some (b.sqStart q))).sqTail q = b.sqStart q ∧
      ((b.sqEnable q (some (b.sqStart q))).sq q).queue = [] ∧ (b.sqEnable q (some (b.sqStart q))).mem = b.mem := by
  have hlink := b.sqEnable_at_start q hoff hok
  have hsq := (Block.sq_of_sqs hlink.sqs q).trans (b.sqStarted_sq q)
  refine ⟨(Block.sqState_of_regs hlink.regs q).trans (b.sqStarted_state q), ?_, ?_, hlink.mem.trans (b.sqStarted_mem q)⟩
  · rw [Block.sqTail, hsq]
  · rw [hsq]
    rfl

/-- A cause of R271 fits its field. -/
theorem Block.sqRefusal_host_lt (b : Block) (p r c : Nat) (h : b.sqRefusal (.host p r) = some c) : c < 8 := by
  simp only [Block.sqRefusal] at h
  split at h
  · cases h; decide
  split at h
  · cases h; decide
  split at h
  · cases h; decide
  split at h
  · cases h; decide
  · cases h

theorem Block.setSqRefused_host (b : Block) (p r c : Nat) (hc : c < 8) :
    (b.setSqRefused (.host p r) c).sqState (.host p r) = b.sqState (.host p r) ∧
      (b.setSqRefused (.host p r) c).get .SQ_STATUS_CFG_REFUSED (ringIx p r) = 1 ∧
      (b.setSqRefused (.host p r) c).get .SQ_STATUS_REFUSE_CAUSE (ringIx p r) = c ∧ (b.setSqRefused (.host p r) c).mem = b.mem := by
  refine ⟨?state, ?refused, ?cause, rfl⟩
  case state => simp [Block.setSqRefused, Block.sqState]
  case refused =>
    rw [Block.setSqRefused, Block.get_set_other _ _ _ _ _ _ (by decide), Block.get_set_same]
    rfl
  case cause => exact (Block.get_set_same _ _ _ _).trans (Nat.mod_eq_of_lt hc)

-- SQ_DISABLE ------------------------------------------------------------------------------------------------------------------

theorem exec_sqDisable (s : State) (q : SqRef) (hr : s.blk.inReset = false) :
    exec (.sqDisable q) s = .next { s with blk := s.blk.sqDisable q } :=
  State.act_running s (·.sqDisable q) hr

/-- A ring turned OFF: beside its state, only the host link changes. -/
theorem Block.linkOnly_sqOff (b : Block) (q : SqRef) : (b.setSqState q rOff).LinkOnly (b.sqOff q) := by
  cases q with
  | host p r => exact Block.linkOnly_settleRings _ p
  | post c r => exact Block.LinkOnly.refl _

/-- Clearing ENABLE (R272): OFF with nothing fetched uncompleted, DRAINING otherwise. -/
theorem Block.sqDisable_eq (b : Block) (q : SqRef) (h : b.sqState q = rActive ∨ b.sqState q = rHalted) :
    b.sqDisable q = if (b.sq q).live = [] then (b.setSqEnable q 0).sqOff q else (b.setSqEnable q 0).setSqState q rDraining := by
  unfold Block.sqDisable
  rw [if_pos h, ← Block.sq_of_sqs (b.setSqEnable_sqs q 0)]

theorem Block.sqDisable_frame (b : Block) (q : SqRef) (h : b.sqState q = rActive ∨ b.sqState q = rHalted) :
    (b.sqDisable q).sqState q = (if (b.sq q).live = [] then rOff else rDraining) ∧ (b.sqDisable q).mem = b.mem ∧
      (b.sqDisable q).sqs = b.sqs := by
  rw [b.sqDisable_eq q h]
  split
  · have hlink := (b.setSqEnable q 0).linkOnly_sqOff q
    exact ⟨(Block.sqState_of_regs hlink.regs q).trans (Block.sqState_setSqState _ _ _ (by decide)), hlink.mem.trans (by simp),
      hlink.sqs.trans (by simp)⟩
  · exact ⟨Block.sqState_setSqState _ _ _ (by decide), by simp, by simp⟩

-- What a completion ring reads as ---------------------------------------------------------------------------------------------

theorem Block.cqState_of_regs {b c : Block} (h : c.regs = b.regs) (q : CqRef) : c.cqState q = b.cqState q := by
  cases q <;> exact Block.get_of_regs h _ _

theorem Block.cq_of_cqs {b c : Block} (h : c.cqs = b.cqs) (q : CqRef) : c.cq q = b.cq q := by
  unfold Block.cq
  rw [h]

@[simp] theorem Block.cq_setCq_same (b : Block) (q : CqRef) (x : CqAux) : (b.setCq q x).cq q = x := Tab.get_put_same _ _ _ _
@[simp] theorem Block.setCq_mem (b : Block) (q : CqRef) (x : CqAux) : (b.setCq q x).mem = b.mem := rfl
theorem Block.cqState_setCqState (b : Block) (q : CqRef) (v : Nat) (h : v < 4) : (b.setCqState q v).cqState q = v := by
  cases q <;> exact (Block.get_set_same _ _ _ _).trans (Nat.mod_eq_of_lt h)

@[simp] theorem Block.setCqState_cqs (b : Block) (q : CqRef) (v : Nat) : (b.setCqState q v).cqs = b.cqs := by
  cases q <;> rfl

@[simp] theorem Block.setCqState_mem (b : Block) (q : CqRef) (v : Nat) : (b.setCqState q v).mem = b.mem := by
  cases q <;> rfl

@[simp] theorem Block.cqState_setCqEnable (b : Block) (q : CqRef) (v : Nat) : (b.setCqEnable q v).cqState q = b.cqState q := by
  cases q <;> exact Block.get_set_other _ _ _ _ _ _ (by decide)

@[simp] theorem Block.setCqEnable_cqs (b : Block) (q : CqRef) (v : Nat) : (b.setCqEnable q v).cqs = b.cqs := by
  cases q <;> rfl

@[simp] theorem Block.setCqEnable_mem (b : Block) (q : CqRef) (v : Nat) : (b.setCqEnable q v).mem = b.mem := by
  cases q <;> rfl

@[simp] theorem Block.cqState_setCqTail (b : Block) (q : CqRef) (w : Nat) : (b.setCqTail q w).cqState q = b.cqState q := by
  cases q with
  | host p c => simp [Block.setCqTail, Block.cqState]
  | core c => simp [Block.setCqTail, Block.cqState]

@[simp] theorem Block.setCqTail_cqs (b : Block) (q : CqRef) (w : Nat) : (b.setCqTail q w).cqs = b.cqs := by
  cases q <;> rfl

@[simp] theorem Block.setCqTail_mem (b : Block) (q : CqRef) (w : Nat) : (b.setCqTail q w).mem = b.mem := by
  cases q <;> rfl

@[simp] theorem Block.cqState_setCqHead (b : Block) (q : CqRef) (w : Nat) : (b.setCqHead q w).cqState q = b.cqState q := by
  cases q with
  | host p c => exact Block.get_set_other _ _ _ _ _ _ (by decide)
  | core c => rfl

@[simp] theorem Block.setCqHead_mem (b : Block) (q : CqRef) (w : Nat) : (b.setCqHead q w).mem = b.mem := by
  cases q <;> rfl

@[simp] theorem Block.cq_setCqHead (b : Block) (q : CqRef) (w : Nat) : (b.setCqHead q w).cq q = { b.cq q with lastWord := w } := by
  cases q <;> exact Block.cq_setCq_same _ _ _

@[simp] theorem Block.cqState_setCqRsv (b : Block) (q : CqRef) (v : Nat) : (b.setCqRsv q v).cqState q = b.cqState q := by
  cases q with
  | host p c => exact Block.get_set_other _ _ _ _ _ _ (by decide)
  | core c => rfl

@[simp] theorem Block.setCqRsv_mem (b : Block) (q : CqRef) (v : Nat) : (b.setCqRsv q v).mem = b.mem := by
  cases q <;> rfl

@[simp] theorem Block.setCqRsv_sqs (b : Block) (q : CqRef) (v : Nat) : (b.setCqRsv q v).sqs = b.sqs := by
  cases q <;> rfl

@[simp] theorem Block.cq_setCqRsv (b : Block) (q : CqRef) (v : Nat) : (b.setCqRsv q v).cq q = { b.cq q with rsv := v } := by
  cases q <;> exact Block.cq_setCq_same _ _ _

/-- HALT_CAUSE of a completion ring that starts. -/
def Block.cqFresh (b : Block) (q : CqRef) : Block :=
  match q with
  | .host p c => b.set .CQ_STATUS_HALT_CAUSE (ringIx p c) 0
  | .core c => b.set .CORE_CQ_STATUS_HALT_CAUSE c 0

@[simp] theorem Block.cqState_cqFresh (b : Block) (q : CqRef) : (b.cqFresh q).cqState q = b.cqState q := by
  cases q <;> exact Block.get_set_other _ _ _ _ _ _ (by decide)

@[simp] theorem Block.cqFresh_cqs (b : Block) (q : CqRef) : (b.cqFresh q).cqs = b.cqs := by
  cases q <;> rfl

@[simp] theorem Block.cqFresh_mem (b : Block) (q : CqRef) : (b.cqFresh q).mem = b.mem := by
  cases q <;> rfl

-- CQ_ENABLE -------------------------------------------------------------------------------------------------------------------

/-- A completion ring that has just been made ACTIVE at its start, before its first word is examined (R270). -/
def Block.cqStarted (b : Block) (q : CqRef) : Block :=
  ((((((b.setCq q CqAux.reset).setCqState q rActive).setCqEnable q 1).setCqTail q (b.cqStart q)).setCqHead q
    (b.cqStart q)).setCqRsv q 0).cqFresh q

theorem Block.cqStarted_state (b : Block) (q : CqRef) : (b.cqStarted q).cqState q = rActive := by
  simp [Block.cqStarted, Block.cqState_setCqState _ _ rActive (by decide)]

theorem Block.cqStarted_cq (b : Block) (q : CqRef) :
    (b.cqStarted q).cq q = { CqAux.reset with lastWord := b.cqStart q, rsv := 0 } := by
  have hcq : ((((b.setCq q CqAux.reset).setCqState q rActive).setCqEnable q 1).setCqTail q (b.cqStart q)).cq q = CqAux.reset := by
    rw [Block.cq_of_cqs (b := b.setCq q CqAux.reset) (by simp), Block.cq_setCq_same]
  rw [Block.cqStarted, Block.cq_of_cqs (Block.cqFresh_cqs _ _), Block.cq_setCqRsv, Block.cq_setCqHead, hcq]

theorem Block.cqStarted_mem (b : Block) (q : CqRef) : (b.cqStarted q).mem = b.mem := by
  simp [Block.cqStarted]

theorem exec_cqEnable (s : State) (q : CqRef) (w : Nat) (hr : s.blk.inReset = false) :
    exec (.cqEnable q w) s = .next { s with blk := s.blk.cqEnable q (some w) } :=
  State.act_running s (·.cqEnable q (some w)) hr

theorem Block.cqEnable_starts (b : Block) (q : CqRef) (w : Option Nat) (hoff : b.cqState q = rOff) (hok : b.cqRefusal q = none) :
    b.cqEnable q w = (b.cqStarted q).firstLook (cqLine q) w fun b w => b.examineHead q w := by
  unfold Block.cqEnable
  rw [if_neg (not_not_intro hoff), hok]
  cases q <;> rfl

theorem Block.cqEnable_refused (b : Block) (q : CqRef) (w : Option Nat) (c : Nat) (hoff : b.cqState q = rOff)
    (hbad : b.cqRefusal q = some c) : b.cqEnable q w = b.setCqRefused q c := by
  unfold Block.cqEnable
  rw [if_neg (not_not_intro hoff), hbad]

theorem Block.examineHead_same (b : Block) (q : CqRef) : b.examineHead q (b.cqHead q) = b := by
  simp [Block.examineHead]

/-- A completion ring enabled with its own start as the first word. -/
theorem Block.cqEnable_at_start (b : Block) (q : CqRef) (hoff : b.cqState q = rOff) (hok : b.cqRefusal q = none) :
    (b.cqStarted q).LinkOnly (b.cqEnable q (some (b.cqStart q))) := by
  rw [b.cqEnable_starts q _ hoff hok]
  refine Block.linkOnly_firstLook _ _ _ _ fun c hc => ?_
  have hhead : c.cqHead q = b.cqStart q := by rw [Block.cqHead, Block.cq_of_cqs hc.cqs, b.cqStarted_cq]
  rw [← hhead]
  exact c.examineHead_same q

theorem Block.cqEnable_start (b : Block) (q : CqRef) (hoff : b.cqState q = rOff) (hok : b.cqRefusal q = none) :
    (b.cqEnable q (some (b.cqStart q))).cqState q = rActive ∧ (b.cqEnable q (some (b.cqStart q))).cqHead q = b.cqStart q ∧
      (b.cqEnable q (some (b.cqStart q))).cqRsv q = 0 ∧ (b.cqEnable q (some (b.cqStart q))).mem = b.mem := by
  have hlink := b.cqEnable_at_start q hoff hok
  have hcq := (Block.cq_of_cqs hlink.cqs q).trans (b.cqStarted_cq q)
  refine ⟨(Block.cqState_of_regs hlink.regs q).trans (b.cqStarted_state q), ?_, ?_, hlink.mem.trans (b.cqStarted_mem q)⟩
  · rw [Block.cqHead, hcq]
  · rw [Block.cqRsv, hcq]

theorem Block.cqRefusal_host_lt (b : Block) (p r c : Nat) (h : b.cqRefusal (.host p r) = some c) : c < 8 := by
  simp only [Block.cqRefusal] at h
  split at h
  · cases h; decide
  split at h
  · cases h; decide
  split at h
  · cases h; decide
  · cases h

theorem Block.setCqRefused_host (b : Block) (p r c : Nat) (hc : c < 8) :
    (b.setCqRefused (.host p r) c).cqState (.host p r) = b.cqState (.host p r) ∧
      (b.setCqRefused (.host p r) c).get .CQ_STATUS_CFG_REFUSED (ringIx p r) = 1 ∧
      (b.setCqRefused (.host p r) c).get .CQ_STATUS_REFUSE_CAUSE (ringIx p r) = c ∧ (b.setCqRefused (.host p r) c).mem = b.mem := by
  refine ⟨?state, ?refused, ?cause, rfl⟩
  case state => simp [Block.setCqRefused, Block.cqState]
  case refused =>
    rw [Block.setCqRefused, Block.get_set_other _ _ _ _ _ _ (by decide), Block.get_set_same]
    rfl
  case cause => exact (Block.get_set_same _ _ _ _).trans (Nat.mod_eq_of_lt hc)

theorem Block.setCqRefused_core (b : Block) (c cause : Nat) (hc : cause < 8) :
    (b.setCqRefused (.core c) cause).get .CORE_CQ_STATUS_CFG_REFUSED c = 1 ∧
      (b.setCqRefused (.core c) cause).get .CORE_CQ_STATUS_REFUSE_CAUSE c = cause ∧
      (b.setCqRefused (.core c) cause).cqState (.core c) = b.cqState (.core c) := by
  refine ⟨?refused, ?cause, ?state⟩
  case refused =>
    rw [Block.setCqRefused, Block.get_set_other _ _ _ _ _ _ (by decide), Block.get_set_same]
    rfl
  case cause => exact (Block.get_set_same _ _ _ _).trans (Nat.mod_eq_of_lt hc)
  case state => simp [Block.setCqRefused, Block.cqState]

-- CQ_DISABLE ------------------------------------------------------------------------------------------------------------------

theorem exec_cqDisable (s : State) (q : CqRef) (hr : s.blk.inReset = false) :
    exec (.cqDisable q) s = .next { s with blk := s.blk.cqDisable q } :=
  State.act_running s (·.cqDisable q) hr

/-- With every submission ring that names it OFF, a completion ring turns OFF (R274); beside its registers, only the host link changes. -/
theorem Block.cqDisable_stops (b : Block) (q : CqRef) (hon : b.cqState q ≠ rOff)
    (hall : ((b.sqsOf q).all fun x => b.sqState x == rOff) = true) :
    ((b.setCqEnable q 0).setCqState q rOff).LinkOnly (b.cqDisable q) := by
  unfold Block.cqDisable
  rw [if_neg hon, if_pos hall]
  cases q with
  | host p c => exact Block.linkOnly_settleRings _ p
  | core c => exact Block.LinkOnly.refl _

theorem Block.cqDisable_refused (b : Block) (q : CqRef) (hon : b.cqState q ≠ rOff)
    (hsome : ((b.sqsOf q).all fun x => b.sqState x == rOff) = false) : b.cqDisable q = b.setCqRefused q 7 := by
  unfold Block.cqDisable
  rw [if_neg hon, if_neg (by simp [hsome])]

-- The obligation ---------------------------------------------------------------------------------------------------------------

/-- Settles O14: an enable either starts its ring, where the first word repeats the start and so changes only the host link, or leaves
its cause; a disable turns its ring OFF, lets it drain, or is refused. -/
theorem ringsStartAndStop : Obligations.RingsStartAndStop := by
  unfold Obligations.RingsStartAndStop
  refine ⟨?sqStarts, ?sqRefused, ?sqStops, ?cqStarts, ?cqRefused, ?cqStops, ?cqKept⟩
  case sqStarts =>
    intro s q hoff hok hr
    exact ⟨_, exec_sqEnable s q _ hr, s.blk.sqEnable_start q hoff hok⟩
  case sqRefused =>
    intro s p r word c hoff hbad hr
    refine ⟨_, exec_sqEnable s _ word hr, ?_⟩
    rw [s.blk.sqEnable_refused _ _ c hoff hbad, ← hoff]
    exact s.blk.setSqRefused_host p r c (s.blk.sqRefusal_host_lt p r c hbad)
  case sqStops =>
    intro s q hon hr
    exact ⟨_, exec_sqDisable s q hr, s.blk.sqDisable_frame q hon⟩
  case cqStarts =>
    intro s q hoff hok hr
    exact ⟨_, exec_cqEnable s q _ hr, s.blk.cqEnable_start q hoff hok⟩
  case cqRefused =>
    intro s p r word c hoff hbad hr
    refine ⟨_, exec_cqEnable s _ word hr, ?_⟩
    rw [s.blk.cqEnable_refused _ _ c hoff hbad, ← hoff]
    exact s.blk.setCqRefused_host p r c (s.blk.cqRefusal_host_lt p r c hbad)
  case cqStops =>
    intro s q hon hall hr
    have hlink := s.blk.cqDisable_stops q hon hall
    exact ⟨_, exec_cqDisable s q hr,
      (Block.cqState_of_regs hlink.regs q).trans (Block.cqState_setCqState _ _ _ (by decide)), hlink.mem.trans (by simp)⟩
  case cqKept =>
    intro s c hon hsome hr
    refine ⟨_, exec_cqDisable s _ hr, ?_⟩
    rw [s.blk.cqDisable_refused _ hon hsome]
    exact s.blk.setCqRefused_core c 7 (by decide)

end Sys2Proof.Machine
end

section
/-! SUPPORT. Descriptors on their way to the Hopper (spec/06, R253 to R259, R287, R308; spec/11, R581): what a fetch reserves, what its
return gives, the hand-over with replay and without, the job a descriptor becomes, and the obligation on them. -/

namespace Sys2Proof.Machine

-- DESCRIPTOR_FETCH ------------------------------------------------------------------------------------------------------------

/-- The table entry of a ring once its next fetch has been noted (R255, R259). -/
def Block.fetchEntry (b : Block) (q : SqRef) : SqAux :=
  let k := b.fetchCount q
  let n := b.sqSize q
  let x := b.sq q
  let last := (b.fetchPos q + k) % (2 ^ 16 * n)
  { x with
    fetches := x.fetches ++ [(b.fetchPos q % n, (List.range k).map fun i => arrivalAt n x.accepts ((b.fetchPos q + i) % (2 ^ 16 * n)))]
    nextSeq := x.nextSeq + k
    live := x.live ++ (List.range k).map (x.nextSeq + ·)
    accepts := x.accepts.filter fun e => decide (0 < posDist n last e.1 ∧ posDist n last e.1 ≤ n) }

/-- A ring's next fetch noted, with a completion slot reserved for each of its descriptors (R256), before its read is sent. -/
def Block.fetchNoted (b : Block) (q : SqRef) : Block :=
  let c := (b.setSq q (b.fetchEntry q)).setCqRsv (b.sqCq q) (b.cqRsv (b.sqCq q) + b.fetchCount q)
  match q with
  | .host p r => c.set .SQ_INFLIGHT_COUNT (ringIx p r) (b.fetchEntry q).live.length
  | .post _ _ => c

theorem Block.fetchNoted_sqs (b : Block) (q : SqRef) : (b.fetchNoted q).sqs = (b.setSq q (b.fetchEntry q)).sqs := by
  cases q with
  | host p r => exact Block.setCqRsv_sqs _ _ _
  | post c r => exact Block.setCqRsv_sqs _ _ _

theorem Block.fetchNoted_sq (b : Block) (q : SqRef) : (b.fetchNoted q).sq q = b.fetchEntry q := by
  rw [Block.sq_of_sqs (b.fetchNoted_sqs q), Block.sq_setSq_same]

theorem Block.fetchNoted_mem (b : Block) (q : SqRef) : (b.fetchNoted q).mem = b.mem := by
  cases q with
  | host p r => exact Block.setCqRsv_mem _ _ _
  | post c r => exact Block.setCqRsv_mem _ _ _

theorem Block.fetchNoted_rsv (b : Block) (q : SqRef) :
    (b.fetchNoted q).cqRsv (b.sqCq q) = b.cqRsv (b.sqCq q) + b.fetchCount q := by
  cases q with
  | host p r => exact congrArg CqAux.rsv (Block.cq_setCqRsv _ _ _)
  | post c r => exact congrArg CqAux.rsv (Block.cq_setCqRsv _ _ _)

@[simp] theorem Block.setCqRsv_link (b : Block) (q : CqRef) (v : Nat) : (b.setCqRsv q v).link = b.link := by
  cases q <;> rfl

@[simp] theorem Block.setCqRsv_get_other (b : Block) (q : CqRef) (v : Nat) (f : Fld) (i : Nat) (h : .CQ_RESERVED_COUNT ≠ f) :
    (b.setCqRsv q v).get f i = b.get f i := by
  cases q with
  | host p c => exact Block.get_set_other _ _ _ _ _ _ h
  | core c => rfl

/-- A host whose accesses can be sent stays so. -/
theorem Block.fetchNoted_hostUp (b : Block) (q : SqRef) (p : Nat) : (b.fetchNoted q).hostUp p = b.hostUp p := by
  cases q with
  | host p' r => simp [Block.fetchNoted, Block.hostUp, Block.setSq]
  | post c r => simp [Block.fetchNoted, Block.hostUp, Block.setSq]

/-- A fetch with something to fetch: beside what is noted, only the host link changes, by the read that leaves. -/
theorem Block.linkOnly_fetch (b : Block) (q : SqRef) (hk : b.fetchCount q ≠ 0) (hr : b.resetting (b.sqPart q) = false)
    (hup : ∀ p r, q = .host p r → b.hostUp p = true) : (b.fetchNoted q).LinkOnly (b.fetch q) := by
  have hgo : ¬(b.fetchCount q = 0 ∨ b.resetting (b.sqPart q) = true) := by simp [hk, hr]
  unfold Block.fetch
  rw [if_neg hgo]
  cases q with
  | host p r =>
    have hup' : (b.fetchNoted (.host p r)).hostUp p = true := (b.fetchNoted_hostUp _ p).trans (hup p r rfl)
    exact Block.linkOnly_startRead _ _ _ _ _ _ hup'
  | post c r => exact Block.LinkOnly.refl _

theorem exec_descriptorFetch (s : State) (q : SqRef) (hr : s.blk.inReset = false) :
    exec (.descriptorFetch q) s = .next { s with blk := s.blk.fetch q } :=
  State.act_running s (·.fetch q) hr

/-- What a fetch leaves: as many new order numbers and reserved slots as descriptors, and one more fetch under way. -/
theorem Block.fetch_frame (b : Block) (q : SqRef) (hk : b.fetchCount q ≠ 0) (hr : b.resetting (b.sqPart q) = false)
    (hup : ∀ p r, q = .host p r → b.hostUp p = true) :
    ((b.fetch q).sq q).nextSeq = (b.sq q).nextSeq + b.fetchCount q ∧ ((b.fetch q).sq q).fetches.length = (b.sq q).fetches.length + 1 ∧
      (b.fetch q).cqRsv (b.sqCq q) = b.cqRsv (b.sqCq q) + b.fetchCount q ∧ (b.fetch q).mem = b.mem := by
  have hlink := b.linkOnly_fetch q hk hr hup
  have hsq := (Block.sq_of_sqs hlink.sqs q).trans (b.fetchNoted_sq q)
  refine ⟨by rw [hsq, Block.fetchEntry], by simp [hsq, Block.fetchEntry], ?_, hlink.mem.trans (b.fetchNoted_mem q)⟩
  rw [Block.cqRsv, Block.cq_of_cqs hlink.cqs]
  exact b.fetchNoted_rsv q

-- DESCRIPTOR_FETCH_RETURN -----------------------------------------------------------------------------------------------------

theorem exec_descriptorFetchReturn (s : State) (q : SqRef) (descs : Option (List (List Byte))) (hr : s.blk.inReset = false) :
    exec (.descriptorFetchReturn q descs) s = .next { s with blk := s.blk.fetchReturn q descs } :=
  State.act_running s (·.fetchReturn q descs) hr

/-- A host ring's read that was wanted gives what it brought. -/
theorem Block.fetchReturn_host (b c : Block) (p r : Nat) (descs : Option (List (List Byte)))
    (h : b.readDone (.fetch p r) = some (true, c)) : b.fetchReturn (.host p r) descs = c.fetchData (.host p r) descs := by
  simp only [Block.fetchReturn, h]

/-- A post ring's descriptors come from hub SRAM. -/
theorem Block.fetchReturn_post (b : Block) (c r first : Nat) (arr : List (Nat × Nat)) (rest : List (Nat × List (Nat × Nat)))
    (descs : Option (List (List Byte))) (h : (b.sq (.post c r)).fetches = (first, arr) :: rest) :
    b.fetchReturn (.post c r) descs = (b.postDescs c (b.sqBase (.post c r) + 64 * first) arr.length).2.fetchData (.post c r)
      (some (b.postDescs c (b.sqBase (.post c r) + 64 * first) arr.length).1) := by
  simp only [Block.fetchReturn, h]

-- Operations that run whole ----------------------------------------------------------------------------------------------------

/-- An operation counts by what it does to the block it starts on. -/
theorem Block.whole_congr (b : Block) (agent : Nat) {f g : Block → Block} (h : f (b.began agent) = g (b.began agent)) :
    b.whole agent f = b.whole agent g := by
  unfold Block.whole Block.attempt
  simp only [h]

/-- An operation that nothing stops has run whole. -/
theorem Block.whole_runs (b : Block) (agent : Nat) (f : Block → Block) (h : (f (b.began agent)).ms.eng.stall = none) :
    b.whole agent f = (f (b.began agent)).ended agent := by
  unfold Block.whole
  rw [Block.attempt_runs b agent (fun b => ((), f b)) h]

-- HAND_OVER and REPLAY_DESC_RELEASE --------------------------------------------------------------------------------------------

theorem exec_handOver (s : State) (q : SqRef) (also : List SqRef) (hr : s.blk.inReset = false) :
    exec (.handOver q also) s = .next { s with blk := s.blk.handOvers q also } :=
  State.act_running s (·.handOvers q also) hr

theorem exec_replayDescRelease (s : State) (q : SqRef) (hr : s.blk.inReset = false) :
    exec (.replayDescRelease q) s = .next { s with blk := s.blk.replayDescRelease q } :=
  State.act_running s (·.replayDescRelease q) hr

/-- A ring handed over with no other in its cycle. -/
theorem Block.handOvers_alone (b : Block) (q : SqRef) : b.handOvers q [] = b.handOver q := rfl

/-- Of two rings in one cycle the one of the lower number goes first (R308). -/
theorem Block.handOvers_pair (b : Block) (q r : SqRef) (h : sqOrder r < sqOrder q) :
    b.handOvers q [r] = (b.handOver r).handOver q := by
  have hne : r ≠ q := fun e => by simp [e] at h
  have hnub : nub [q, r] = [q, r] := by simp [nub, hne]
  have hlate : decide (sqOrder q ≤ sqOrder r) = false := by simpa using h
  rw [Block.handOvers, hnub]
  simp [sortBy, insertBy, hlate]

/-- The head of a ring's queue handed over, unless replay still holds it (R581). -/
def Block.handDue (b : Block) (q : SqRef) (f : Fetched) : Block :=
  match b.replayDue q with
  | (some t, b) => if t ≤ b.gmc then b.handHead q f else b
  | (none, b) => b.handHead q f

/-- The head of a ring's queue handed over once the count at which replay releases it has come, and not without one (R581). -/
def Block.handReleased (b : Block) (q : SqRef) (f : Fetched) : Block :=
  match b.replayDue q with
  | (some t, b) => if t ≤ b.gmc then b.handHead q f else b
  | (none, b) => b

theorem Block.handOver_of_head (b : Block) (q : SqRef) (f : Fetched) (l : List Fetched) (hq : (b.sq q).queue = f :: l)
    (hr : b.resetting (b.sqPart q) = false) : b.handOver q = b.whole (handAgent (b.sqPart q)) fun b => b.handDue q f := by
  have hgo : ¬b.resetting (b.sqPart q) = true := by simp [hr]
  simp only [Block.handOver, hq]
  rw [if_neg hgo]
  refine b.whole_congr _ ?_
  unfold Block.handDue
  rcases (b.began (handAgent (b.sqPart q))).replayDue q with ⟨_ | t, c⟩
  · rfl
  · simp only [← Nat.not_le, ite_not]

/-- Replay that is off holds nothing. -/
theorem Block.replayDue_of_off (b : Block) (q : SqRef) (h : b.replayOn (b.sqPart q) = false) : b.replayDue q = (none, b) := by
  simp [Block.replayDue, h]

theorem Block.handDue_of_off (b : Block) (q : SqRef) (f : Fetched) (h : b.replayOn (b.sqPart q) = false) :
    b.handDue q f = b.handHead q f := by
  rw [Block.handDue, b.replayDue_of_off q h]

/-- With replay off, the hand-over is that of the ring's oldest descriptor. -/
theorem Block.handOver_of_replayOff (b : Block) (q : SqRef) (f : Fetched) (l : List Fetched) (hq : (b.sq q).queue = f :: l)
    (hr : b.resetting (b.sqPart q) = false) (hoff : b.replayOn (b.sqPart q) = false) :
    b.handOver q = b.whole (handAgent (b.sqPart q)) fun b => b.handHead q f := by
  rw [b.handOver_of_head q f l hq hr]
  exact b.whole_congr _ (Block.handDue_of_off _ q f hoff)

/-- At its recorded count a descriptor held by replay goes on. -/
theorem Block.replayDescRelease_of_head (b : Block) (q : SqRef) (f : Fetched) (l : List Fetched) (hq : (b.sq q).queue = f :: l) :
    b.replayDescRelease q = b.whole (handAgent (b.sqPart q)) fun b => b.handReleased q f := by
  simp only [Block.replayDescRelease, hq]
  rfl

-- A descriptor accepted ----------------------------------------------------------------------------------------------------------

/-- A descriptor that fits its width, is no PAWL executed at hand-over and is admitted leaves its queue as a job. -/
theorem Block.handHead_accepts (b : Block) (q : SqRef) (f : Fetched) (hw : b.widthFault (b.sqPart q) f.bytes = none)
    (hp : pawlAtOnce f.bytes = false) (ha : b.admitFault (b.sqPart q) f.bytes = none) :
    b.handHead q f = (b.dequeue q true).accept q f := by
  simp [Block.handHead, hw, hp, ha]

/-- The job of an accepted descriptor is the last of the table, with the next arrival number. -/
theorem Block.accept_jobs (b : Block) (q : SqRef) (f : Fetched) : ∃ j, (b.accept q f).hop.jobs = b.hop.jobs ++ [j] ∧
    j.id = b.hop.nextId ∧ j.desc = f.bytes ∧ j.part = b.sqPart q ∧ j.accepted = b.gmc := by
  refine ⟨_, rfl, ?_⟩
  split <;> exact ⟨rfl, rfl, rfl, rfl⟩

/-- The hand-over of an accepted descriptor, from the ring's queue to the table of jobs. -/
theorem Block.handOver_accepts (b : Block) (q : SqRef) (f : Fetched) (l : List Fetched) (hq : (b.sq q).queue = f :: l)
    (hr : b.resetting (b.sqPart q) = false) (hoff : b.replayOn (b.sqPart q) = false) (hw : b.widthFault (b.sqPart q) f.bytes = none)
    (hp : pawlAtOnce f.bytes = false) (ha : b.admitFault (b.sqPart q) f.bytes = none) :
    b.handOver q = (((b.began (handAgent (b.sqPart q))).dequeue q true).accept q f).ended (handAgent (b.sqPart q)) := by
  have hhead := (b.began (handAgent (b.sqPart q))).handHead_accepts q f hw hp ha
  rw [b.handOver_of_replayOff q f l hq hr hoff, Block.whole_runs, hhead]
  rw [hhead]
  rfl

-- The obligation ---------------------------------------------------------------------------------------------------------------

/-- Settles O16: a fetch by what it notes before its read leaves, the return by where its descriptors come from, and the hand-over as
one operation on the oldest descriptor, which nothing can stop once the descriptor is accepted. -/
theorem descriptorsFetchedAndHandedOver : Obligations.DescriptorsFetchedAndHandedOver := by
  unfold Obligations.DescriptorsFetchedAndHandedOver
  refine ⟨?fetch, ?hostReturn, ?postReturn, ?handed, ?replayed, ?released, ?ordered, ?accepted⟩
  case fetch =>
    intro s q hk hpart hup hr
    exact ⟨_, exec_descriptorFetch s q hr, s.blk.fetch_frame q hk hpart hup⟩
  case hostReturn =>
    intro s p r descs b hdone hr
    exact ⟨_, exec_descriptorFetchReturn s _ descs hr, s.blk.fetchReturn_host b p r descs hdone⟩
  case postReturn =>
    rintro s c r first arr rest descs x hf rfl hr
    exact ⟨_, exec_descriptorFetchReturn s _ descs hr, s.blk.fetchReturn_post c r first arr rest descs hf⟩
  case handed =>
    intro s q f l hq hpart hoff hr
    exact ⟨_, exec_handOver s q [] hr, s.blk.handOver_of_replayOff q f l hq hpart hoff⟩
  case replayed =>
    intro s q f l hq hpart hr
    exact ⟨_, exec_handOver s q [] hr, s.blk.handOver_of_head q f l hq hpart⟩
  case released =>
    intro s q f l hq hr
    exact ⟨_, exec_replayDescRelease s q hr, s.blk.replayDescRelease_of_head q f l hq⟩
  case ordered =>
    intro s q r hlt hr
    refine ⟨_, exec_handOver s q [r] hr, s.blk.handOvers_pair q r ?_⟩
    cases q with
    | host p m =>
      cases r with
      | host p' n => exact hlt
      | post c n => exact hlt.elim
    | post a m =>
      cases r with
      | host p' n => exact hlt.elim
      | post c n =>
        dsimp only at hlt
        simp only [sqOrder, postIx]
        omega
  case accepted =>
    intro s q f l hq hpart hoff hw hp ha hr
    refine ⟨_, exec_handOver s q [] hr, ?_⟩
    dsimp only
    rw [Block.handOvers_alone, s.blk.handOver_accepts q f l hq hpart hoff hw hp ha]
    obtain ⟨j, hjobs, hj⟩ := ((s.blk.began (handAgent (s.blk.sqPart q))).dequeue q true).accept_jobs q f
    have hqueue : (((s.blk.began (handAgent (s.blk.sqPart q))).dequeue q true).sq q).queue = l := by
      rw [Block.dequeue, Block.sq_setSq_same]
      exact congrArg List.tail hq
    refine ⟨rfl, hqueue, rfl, rfl, ?_, j, ?_, hj⟩
    · exact (congrArg List.length hjobs).trans List.length_append
    · exact hjobs ▸ List.mem_append_right _ (List.mem_singleton_self j)

end Sys2Proof.Machine
end

section
/-! SUPPORT. Jobs that start and end (spec/07, R251, R291, R307, R314, R316; spec/11, R551 to R555): the table of jobs under its updates,
that a record due leaves every other job in the table, a launch that must wait for nothing, and the obligation on them. -/

namespace Sys2Proof.Machine

-- The table of jobs -----------------------------------------------------------------------------------------------------------

/-- The arrival numbers of the jobs in the table. -/
def Block.jobIds (b : Block) : List Nat := b.hop.jobs.map (·.id)

theorem Block.job_id {b : Block} {id : Nat} {j : Job} (h : b.job id = some j) : j.id = id := by
  simpa using List.find?_some h

theorem Block.job_eq_none_iff (b : Block) (id : Nat) : b.job id = none ↔ id ∉ b.jobIds := by
  simp [Block.job, Block.jobIds]

/-- A job of the table is read back as it was put there. -/
theorem Block.job_setJob {b : Block} {j k : Job} (h : b.job j.id = some k) : (b.setJob j).job j.id = some j := by
  have hsame : ((fun x : Job => decide (x.id = j.id)) ∘ fun x => if x.id = j.id then j else x) = fun x => decide (x.id = j.id) := by
    funext x
    by_cases hx : x.id = j.id <;> simp [hx]
  have hfind : b.hop.jobs.find? (fun x => decide (x.id = j.id)) = some k := h
  rw [Block.job, Block.setJob, Block.setJobs, List.find?_map, hsame, hfind, Option.map_some, if_pos (Block.job_id h)]

/-- The same with the number named apart. -/
theorem Block.job_setJob_of_id {b : Block} {id : Nat} {j k : Job} (h : b.job id = some k) (hid : j.id = id) :
    (b.setJob j).job id = some j := by
  subst hid
  exact Block.job_setJob h

theorem Block.dropJob_gone (b : Block) (id : Nat) : id ∉ (b.dropJob id).jobIds := by
  simp [Block.jobIds, Block.dropJob, Block.setJobs]

-- What leaves the Hopper alone --------------------------------------------------------------------------------------------------

theorem Block.jobIds_of_hop {b c : Block} (h : c.hop = b.hop) : c.jobIds = b.jobIds := by
  unfold Block.jobIds
  rw [h]

theorem Block.LinkOnly.hop {b c : Block} (h : b.LinkOnly c) : c.hop = b.hop := by
  obtain ⟨_, _, rfl⟩ := h
  rfl

@[simp] theorem Block.setSq_hop (b : Block) (q : SqRef) (x : SqAux) : (b.setSq q x).hop = b.hop := rfl
@[simp] theorem Block.setCq_hop (b : Block) (q : CqRef) (x : CqAux) : (b.setCq q x).hop = b.hop := rfl

@[simp] theorem Block.setSqState_hop (b : Block) (q : SqRef) (v : Nat) : (b.setSqState q v).hop = b.hop := by
  cases q <;> rfl

@[simp] theorem Block.setCqState_hop (b : Block) (q : CqRef) (v : Nat) : (b.setCqState q v).hop = b.hop := by
  cases q <;> rfl

@[simp] theorem Block.setCqTail_hop (b : Block) (q : CqRef) (w : Nat) : (b.setCqTail q w).hop = b.hop := by
  cases q <;> rfl

@[simp] theorem Block.setCqRsv_hop (b : Block) (q : CqRef) (v : Nat) : (b.setCqRsv q v).hop = b.hop := by
  cases q <;> rfl

@[simp] theorem Block.sqOff_hop (b : Block) (q : SqRef) : (b.sqOff q).hop = b.hop := by
  rw [(b.linkOnly_sqOff q).hop, Block.setSqState_hop]

@[simp] theorem Block.sendVector_hop (b : Block) (p c : Nat) : (b.sendVector p c).hop = b.hop := by
  simp only [Block.sendVector]
  split
  · rfl
  split
  · rfl
  split
  · rfl
  · rw [Block.sendMsix_hop, Block.setCq_hop]

@[simp] theorem Block.haltIrq_hop (b : Block) (q : CqRef) : (b.haltIrq q).hop = b.hop := by
  cases q with
  | host p c => exact b.sendVector_hop p c
  | core c => exact b.raiseLine_hop c 4

@[simp] theorem Block.recordIrq_hop (b : Block) (q : CqRef) (now : Bool) (status : Nat) : (b.recordIrq q now status).hop = b.hop := by
  cases q with
  | core c => exact b.raiseLine_hop c 4
  | host p c =>
    simp only [Block.recordIrq]
    rw [apply_ite Block.hop, Block.sendVector_hop, ite_self, Block.setCq_hop]

@[simp] theorem Block.hubWrite_hop (b : Block) (c a : Nat) (l : List Byte) : (b.hubWrite c a l).hop = b.hop := by
  unfold Block.hubWrite
  split <;> rfl

@[simp] theorem Block.loseRecord_hop (b : Block) (q : CqRef) : (b.loseRecord q).hop = b.hop := by
  cases q with
  | host p c => exact Block.setCqRsv_hop _ _ _
  | core c => exact Block.setCqRsv_hop _ _ _

@[simp] theorem Block.haltCq_hop (b : Block) (q : CqRef) (cause : Nat) (data : List Byte) : (b.haltCq q cause data).hop = b.hop := by
  cases q <;> simp [Block.haltCq]

@[simp] theorem Block.refuseRecord_hop (b : Block) (q : CqRef) : (b.refuseRecord q).hop = b.hop := by
  simp [Block.refuseRecord]

@[simp] theorem Block.putRecord_hop (b : Block) (q : CqRef) (r : Rec) : (b.putRecord q r).hop = b.hop := by
  simp only [Block.putRecord, Block.recordIrq_hop]
  split
  · rw [Block.bump_hop, Block.setCqRsv_hop, Block.setCqTail_hop]
    cases q with
    | host p c => simp only [Block.send_hop, Block.usePost_hop, apply_ite Block.hop, ite_self]
    | core c => simp only [Block.hubWrite_hop, apply_ite Block.hop, ite_self]
  · rw [Block.setCqRsv_hop, Block.setCqTail_hop]
    cases q with
    | host p c => simp only [Block.send_hop, Block.usePost_hop, apply_ite Block.hop, ite_self]
    | core c => simp only [Block.hubWrite_hop, apply_ite Block.hop, ite_self]

@[simp] theorem Block.countTimeout_hop (b : Block) (p status : Nat) : (b.countTimeout p status).hop = b.hop := by
  unfold Block.countTimeout
  split <;> rfl

-- A record due --------------------------------------------------------------------------------------------------------------------

/-- A fence met changes the phase of jobs and no number. -/
theorem Block.promoteFenced_jobIds (b : Block) (q : SqRef) : (b.promoteFenced q).jobIds = b.jobIds := by
  simp only [Block.jobIds, Block.promoteFenced, List.map_map]
  refine List.map_congr_left fun j _ => ?_
  dsimp only [Function.comp]
  split <;> rfl

theorem Block.retire_jobIds (b : Block) (q : SqRef) (seq : Nat) : (b.retire q seq).jobIds = b.jobIds := by
  simp only [Block.retire, Block.promoteFenced_jobIds]
  refine Block.jobIds_of_hop ?_
  cases q <;> simp [apply_ite Block.hop]

theorem Block.recordGo_jobIds (b : Block) (h : HeldRec) : (b.recordGo h).jobIds = b.jobIds := by
  have hretire : ∀ c : Block, c.hop = b.hop → (c.retire h.rec_.sq h.seq).jobIds = b.jobIds :=
    fun c hc => (c.retire_jobIds _ _).trans (Block.jobIds_of_hop hc)
  unfold Block.recordGo
  dsimp only
  split
  · exact hretire _ (b.loseRecord_hop _)
  split
  · exact hretire _ (b.putRecord_hop _ _)
  split
  · exact hretire _ (b.refuseRecord_hop _)
  split
  · rfl
  · exact hretire _ (b.putRecord_hop _ _)

/-- A record written, held, stalled or lost leaves the jobs of the table there. -/
theorem Block.writeRecord_jobIds (b : Block) (r : Rec) (seq : Nat) (entry : Bool) : (b.writeRecord r seq entry).jobIds = b.jobIds := by
  simp only [Block.writeRecord]
  split
  · rfl
  split
  · rfl
  · exact b.recordGo_jobIds _

/-- A job whose record is due is no longer in the table. -/
theorem Block.finalize_gone (b : Block) (j : Job) (status cause result : Nat) (mark outMark : Option (List Byte)) :
    (b.finalize j status cause result mark outMark).job j.id = none := by
  have hgone : j.id ∉ ((b.dropJob j.id).countTimeout j.part status).jobIds := by
    rw [Block.jobIds_of_hop (Block.countTimeout_hop _ _ _)]
    exact b.dropJob_gone j.id
  rw [Block.job_eq_none_iff]
  simp only [Block.finalize]
  split
  · exact hgone
  · rw [Block.writeRecord_jobIds]
    exact hgone

/-- A job without a Mark that ends is no longer in the table. -/
theorem Block.conclude_gone (b : Block) (j : Job) (status cause result : Nat) (h : dMark j.desc = false) :
    (b.conclude j status cause result).job j.id = none := by
  unfold Block.conclude
  rw [if_neg (by simp [h])]
  exact b.finalize_gone j status cause result none none

-- NOP and DEADLINE_PASSED -------------------------------------------------------------------------------------------------------

theorem exec_nop (s : State) (id : Nat) (hr : s.blk.inReset = false) : exec (.nop id) s = .next { s with blk := s.blk.nop id } :=
  State.act_running s (·.nop id) hr

theorem Block.nop_completes (b : Block) (id : Nat) (j : Job) (hj : b.job id = some j) (hop : dOpcode j.desc = 0x00)
    (hph : j.phase = .admitted) (hf : b.fenceMet j = true) (hs : j.startable = true) (hx : b.expired j = false) :
    b.nop id = b.conclude { j with started := some b.gmc } stDone 0 0 := by
  simp [Block.nop, hj, hop, hph, hf, hs, hx]

theorem exec_deadlinePassed (s : State) (id : Nat) (hr : s.blk.inReset = false) :
    exec (.deadlinePassed id) s = .next { s with blk := s.blk.deadlinePassed id } :=
  State.act_running s (·.deadlinePassed id) hr

theorem Block.deadlinePassed_completes (b : Block) (id : Nat) (j : Job) (hj : b.job id = some j) (hd : dDeadline j.desc ≠ 0)
    (hle : dDeadline j.desc ≤ b.gmc) (hs : j.started = none) (hph : j.phase ≠ .marking) :
    b.deadlinePassed id = (b.unqueue (.job id)).conclude j stTimeout 0x52 0 := by
  have hx : b.expired j = true := by simp [Block.expired, hd, hle, hs]
  simp [Block.deadlinePassed, hj, hx, hph]

-- LAUNCH and LAUNCH_AT ----------------------------------------------------------------------------------------------------------

/-- The second block differs from the first in the memory system and in the fabric, and in nothing else. -/
def Block.MemSysOnly (b c : Block) : Prop := ∃ m f, c = { b with ms := m, fab := f }

/-- Bit errors that strike change the memory system alone. -/
theorem Block.memSysOnly_strike (b : Block) (l : List Strike) : b.MemSysOnly (b.strike l) := by
  unfold Block.strike
  induction l generalizing b with
  | nil => exact ⟨_, _, rfl⟩
  | cons x l ih =>
    rw [List.foldl_cons]
    split
    · obtain ⟨m, f, h⟩ := ih (b.setFault (x.addr / 32) { b.fault (x.addr / 32) with err := xorSyms (b.fault (x.addr / 32)).err x.err })
      exact ⟨m, f, h⟩
    · exact ih b

/-- The block on which a command's operation runs. -/
theorem Block.memSysOnly_given (b : Block) (agent : Nat) (strikes : List Strike) (replies : List Reply) :
    b.MemSysOnly (b.given agent strikes replies) := by
  obtain ⟨m, f, h⟩ := b.memSysOnly_strike strikes
  unfold Block.given
  rw [h]
  exact ⟨_, _, rfl⟩

/-- An operation that only puts a job in its place runs whole. -/
theorem Block.runOp_setJob (b : Block) (agent : Nat) (strikes : List Strike) (replies : List Reply) (f : Block → Block) (j k : Job)
    (hk : b.job j.id = some k) (hf : ∀ c, b.MemSysOnly c → f c = c.setJob j) :
    (b.runOp agent strikes replies f).job j.id = some j ∧ (b.runOp agent strikes replies f).regs = b.regs := by
  have hgiven := b.memSysOnly_given agent strikes replies
  have hput := hf _ hgiven
  rw [Block.runOp_runs _ _ _ _ _ (by rw [hput]; rfl), hput]
  obtain ⟨m, fb, h⟩ := hgiven
  rw [h]
  exact ⟨Block.job_setJob hk, rfl⟩

/-- A launch without a Mark or a Tally record due has no mark list to be judged. -/
theorem Block.checkMarkList_of_unmarked (b : Block) (id : Nat) (go : Block → Block) (j : Job) (hj : b.job id = some j)
    (hm : dMark j.desc = false) (ht : j.tally = false) : b.checkMarkList id go = go b := by
  simp [Block.checkMarkList, hj, hm, ht]

theorem Job.dieSel_tasks (j : Job) (n : Nat) : Job.dieSel { j with tasks := n } = j.dieSel := rfl

/-- The job of a LAUNCH whose arguments pass: in the ready list of its PRIO, or waiting for DELAY ticks (R291, R316). -/
def Block.launched (b : Block) (j : Job) : Job :=
  { j with
    tasks := dArg j.desc 0x10 4
    phase := if dArg j.desc 0x18 4 = 0 then .ready (dPrio j.desc) b.gmc else .delayed (b.dueAt j.accepted (dArg j.desc 0x18 4)) }

/-- What a launch goes by lies outside the memory system and the fabric. -/
theorem Block.MemSysOnly.launch_reads {b c : Block} (h : b.MemSysOnly c) : c.job = b.job ∧ c.fenceMet = b.fenceMet ∧
    c.launchFault = b.launchFault ∧ c.noTile = b.noTile ∧ c.launched = b.launched := by
  obtain ⟨_, _, rfl⟩ := h
  exact ⟨rfl, rfl, rfl, rfl, rfl⟩

theorem Block.launch_passes (b : Block) (id : Nat) (j : Job) (hj : b.job id = some j) (hop : dOpcode j.desc = 0x10)
    (hph : j.phase = .admitted) (hf : b.fenceMet j = true) (hok : b.launchFault j = none) (ht : b.noTile j.part j.dieSel = false) :
    b.launch id = b.setJob (b.launched j) := by
  simp only [Block.launch, hj, hok, Job.dieSel_tasks, ht]
  rw [if_pos ⟨hop, hph, hf⟩, if_neg Bool.false_ne_true]
  unfold Block.launched
  by_cases hd : dArg j.desc 0x18 4 = 0
  · rw [if_pos hd, if_pos hd]
    rfl
  · rw [if_neg hd, if_neg hd]

theorem exec_launch (s : State) (id : Nat) (strikes : List Strike) (replies : List Reply) (hr : s.blk.inReset = false) :
    exec (.launch id strikes replies) s =
      .next { s with blk := s.blk.runOp (jobAgent id) strikes replies (·.checkMarkList id (·.launch id)) } :=
  State.act_running s (·.runOp (jobAgent id) strikes replies (·.checkMarkList id (·.launch id))) hr

/-- The job of a LAUNCH_AT whose arguments pass: waiting for its count AT (R551). -/
def Job.launchedAt (j : Job) : Job := { j with tasks := dArg j.desc 0x10 4, phase := .atCount (dArg j.desc 0x18 8) }

theorem Block.launchAt_passes (b : Block) (id : Nat) (j : Job) (hj : b.job id = some j) (hop : dOpcode j.desc = 0x11)
    (hph : j.phase = .admitted) (hf : b.fenceMet j = true) (hok : b.launchFault j = none) (ht : b.noTile j.part j.dieSel = false)
    (h0 : dArg j.desc 0x18 8 ≠ 0) (hfar : dArg j.desc 0x18 8 ≤ j.accepted + 2 ^ 40) : b.launchAt id = b.setJob j.launchedAt := by
  have hat : ¬(dArg j.desc 0x18 8 = 0 ∨ j.accepted + 2 ^ 40 < dArg j.desc 0x18 8) := by omega
  simp only [Block.launchAt, hj, hok, Job.dieSel_tasks, ht]
  rw [if_pos ⟨hop, hph, hf⟩, if_neg hat, if_neg Bool.false_ne_true]
  rfl

theorem exec_launchAt (s : State) (id : Nat) (strikes : List Strike) (replies : List Reply) (hr : s.blk.inReset = false) :
    exec (.launchAt id strikes replies) s =
      .next { s with blk := s.blk.runOp (jobAgent id) strikes replies (·.checkMarkList id (·.launchAt id)) } :=
  State.act_running s (·.runOp (jobAgent id) strikes replies (·.checkMarkList id (·.launchAt id))) hr

-- LAUNCH_AT_READY and LAUNCH_AT_START ---------------------------------------------------------------------------------------------

theorem exec_launchAtReady (s : State) (id : Nat) (hr : s.blk.inReset = false) :
    exec (.launchAtReady id) s = .next { s with blk := s.blk.launchAtReady id } :=
  State.act_running s (·.launchAtReady id) hr

/-- From count AT minus 4,096 the job is in the ready list of priority 3 (R553). -/
theorem Block.launchAtReady_joins (b : Block) (id c : Nat) (j : Job) (hj : b.job id = some j) (hph : j.phase = .atCount c)
    (hc : c ≤ b.gmc + 4096) : b.launchAtReady id = b.setJob { j with phase := .ready 3 b.gmc } := by
  simp only [Block.launchAtReady, hj, hph]
  exact if_pos hc

theorem exec_launchAtStart (s : State) (id : Nat) (hr : s.blk.inReset = false) :
    exec (.launchAtStart id) s = .next { s with blk := s.blk.launchAtStart id } :=
  State.act_running s (·.launchAtStart id) hr

/-- At AT the result of a LAUNCH_AT that nothing has degraded is judged (R555). -/
theorem Block.startCheck_eq (b : Block) (j : Job) (hop : dOpcode j.desc = 0x11) (hd : j.degraded = 0) :
    b.startCheck j = if b.inCluster && b.get .GMC_STATUS_STATE != 1 then { j with degraded := 0xB2 }
      else if j.next = 0 then { j with degraded := 0xB1 } else j := by
  unfold Block.startCheck
  exact if_neg (by simp [hop, hd])

theorem Block.startCheck_id (b : Block) (j : Job) : (b.startCheck j).id = j.id := by
  unfold Block.startCheck
  split
  · rfl
  split
  · rfl
  split <;> rfl

theorem Block.launchAtStart_judges (b : Block) (id : Nat) (j : Job) (hj : b.job id = some j) (ht : j.tasks ≠ 0)
    (hle : dArg j.desc 0x18 8 ≤ b.gmc) : b.launchAtStart id = b.setJob (b.startCheck j) := by
  simp only [Block.launchAtStart, hj]
  exact if_pos ⟨ht, hle⟩

-- The obligation ---------------------------------------------------------------------------------------------------------------

/-- Settles O19: each command puts its job in its place with what the rule says of it, or ends it, which takes it from the table. -/
theorem launchesAndJobs : Obligations.LaunchesAndJobs := by
  unfold Obligations.LaunchesAndJobs
  refine ⟨?nop, ?launch, ?launchAt, ?atReady, ?atStart, ?deadline⟩
  case nop =>
    intro s id j hj hop hph hf hs hx hr
    refine ⟨_, exec_nop s id hr, s.blk.nop_completes id j hj hop hph hf hs hx, fun hm => ?_⟩
    obtain rfl := Block.job_id hj
    dsimp only
    rw [s.blk.nop_completes j.id j hj hop hph hf hs hx]
    exact s.blk.conclude_gone { j with started := some s.blk.gmc } stDone 0 0 hm
  case launch =>
    intro s id strikes replies j hj hop hph hf hm ht hok htile hr
    refine ⟨_, exec_launch s id strikes replies hr, ?_⟩
    obtain rfl := Block.job_id hj
    refine s.blk.runOp_setJob _ _ _ _ (s.blk.launched j) j hj ?_
    intro c hc
    obtain ⟨hjob, hfence, hfault, htiles, hput⟩ := hc.launch_reads
    rw [← hjob] at hj
    rw [c.checkMarkList_of_unmarked _ _ j hj hm ht, ← hput]
    exact c.launch_passes _ j hj hop hph (hfence ▸ hf) (hfault ▸ hok) (htiles ▸ htile)
  case launchAt =>
    intro s id strikes replies j hj hop hph hf hm ht hok htile h0 hfar hr
    refine ⟨_, exec_launchAt s id strikes replies hr, ?_⟩
    obtain rfl := Block.job_id hj
    refine s.blk.runOp_setJob _ _ _ _ j.launchedAt j hj ?_
    intro c hc
    obtain ⟨hjob, hfence, hfault, htiles, _⟩ := hc.launch_reads
    rw [← hjob] at hj
    rw [c.checkMarkList_of_unmarked _ _ j hj hm ht]
    exact c.launchAt_passes _ j hj hop hph (hfence ▸ hf) (hfault ▸ hok) (htiles ▸ htile) h0 hfar
  case atReady =>
    intro s id c j hj hph hc hr
    refine ⟨_, exec_launchAtReady s id hr, ?_⟩
    rw [s.blk.launchAtReady_joins id c j hj hph hc]
    exact ⟨Block.job_setJob_of_id hj (Block.job_id (j := j) hj), rfl, rfl⟩
  case atStart =>
    intro s id j hj hop hle hd ht hr
    refine ⟨_, exec_launchAtStart s id hr, ?_⟩
    rw [s.blk.launchAtStart_judges id j hj ht hle, ← s.blk.startCheck_eq j hop hd]
    exact ⟨rfl, rfl, Block.job_setJob_of_id hj ((s.blk.startCheck_id j).trans (Block.job_id hj))⟩
  case deadline =>
    intro s id j hj hd hle hs hph hr
    refine ⟨_, exec_deadlinePassed s id hr, s.blk.deadlinePassed_completes id j hj hd hle hs hph, fun hm => ?_⟩
    obtain rfl := Block.job_id hj
    dsimp only
    rw [s.blk.deadlinePassed_completes j.id j hj hd hle hs hph]
    exact Block.conclude_gone _ j stTimeout 0x52 0 hm

end Sys2Proof.Machine
end
